-- ==== Sys2Proof/Word.lean ====
section
/-! DEFINITION. Words, bytes, the table type in which State holds every numbered collection, and the
block numbers shared by all files. -/

namespace Sys2Proof

/-- A word is 32 bits (spec 00_scope.md, Bits, bytes and words). -/
abbrev Word := BitVec 32

/-- A byte. Multi-byte quantities are little-endian (R4). -/
abbrev Byte := BitVec 8

/-- A 64-bit quantity. -/
abbrev DWord := BitVec 64

/-- A table: the entries that differ from the table's default, in rising key order. The default is the
value of an entry at reset, so an empty table is the table at reset. -/
abbrev Tbl (α : Type) := List (Nat × α)

/-- A signed Q16.16 quantity, as its 32-bit integer value (R2); the operations saturate (R325). -/
abbrev Q := Int

end Sys2Proof
end

