-- ==== Sys2Proof/Syntax/Operand.lean ====
section
/-! DEFINITION. The operands of the commands: mailbox requests, what a bus or a sensor delivers. -/

namespace Sys2Proof

/-- Where a mailbox request came from and where its response goes: a slot (R29), the service port
(R439), or nowhere (taken from a slot that has been reset since, so that its response is discarded, R21). -/
inductive Via where
  | slot (n : Fin 64)
  | service
  | discarded (n : Fin 64)
deriving DecidableEq, Repr

/-- What the DMA of each bulk descriptor of a request answers, in descriptor order: the bytes of a
buffer that is read, any bytes for a buffer that is written, and none for a DMA access that ends in
an unsuccessful completion (R35). A descriptor with no entry counts as none. -/
abbrev Dma := List (Option (List Byte))

/-- What the surroundings answer while a request runs: its DMA (R35), and whether the flash operations
it makes succeed (MEDIA_FAIL of R50). -/
structure Env where
  dma : Dma
  mediaOk : Bool
deriving DecidableEq, Repr

/-- A mailbox request less its opcode, which the row gives (R29): bits [31:16] of word 0, word 1, the
words from word 2 on, and what the surroundings answer it. -/
structure Req where
  via : Via
  flags : BitVec 16
  tag : Word
  args : List Word
  env : Env
deriving DecidableEq, Repr

/-- An error that a read of memory meets. `dram`: the XOR between the sixteen 40-bit beats read from the
devices of a channel's line and its stored codeword (R214, R216). `sram`: how many bits of an aligned
8-byte word of tile SRAM read wrong (R202). `misread`: the devices give, for a line of a channel, the
codeword that was written for another line (R215). -/
inductive Flaw where
  | dram (chan : Fin 12) (line : Nat) (beats : List (BitVec 40))
  | sram (tile : Fin 64) (word : Nat) (bits : Nat)
  | misread (chan : Fin 12) (line other : Nat)
deriving DecidableEq, Repr

/-- One sample of the power loop and the input measurements that SYS_POWER_STATUS returns, but for the die temperature,
which comes from the monitor block (R345, R451). -/
structure PowerReading where
  vin10mV : Nat
  iinMa : Nat
  pinW : Nat
  pdieW : Nat
  vhold10mV : Nat
deriving DecidableEq, Repr

/-- What the SPD and the training of a socket give (R205): the first row of R205's table that the DIMM
fails (1 to 6), 7 when the SPD could not be read, 0 when none; its capacity; whether it trained. -/
structure Spd where
  populated : Bool
  failRow : Fin 8
  capGiB : Nat
  trained : Bool
deriving DecidableEq, Repr

/-- A Management-class change of a moving region's entry, as the home module sends it (R250). `phase`:
1 copy, 2 drain, 0 flip. -/
structure MoveUpdate where
  fromModule : BitVec 16
  jobTag : Word
  region : BitVec 16
  phase : Fin 3
  base : DWord
  newBase : DWord
deriving DecidableEq, Repr

/-- A received codeword after the Reed-Solomon decoder of R260: how many symbols were in error, and the
frame it carries (R261): a 56-bit header and 505 bytes. -/
structure Codeword where
  symErrs : Nat
  header : BitVec 56
  body : List Byte
deriving DecidableEq, Repr

/-- What one conversion of the monitor scan gives (R337): kind, index and value under the corrections in use, signed
Q16.16. -/
structure Reading where
  kind : Fin 6
  index : Nat
  value : Q
deriving DecidableEq, Repr

/-- One item that REF, TEMP, VOLT, TAP or HEAT measured (R340): the procedure, whether it is a gain, kind and index of
the reading it corrects (for REF kind 0 and the ADC), and the value in the format of its field (R347). -/
structure CalItem where
  proc : Fin 5
  gain : Bool
  kind : Nat
  index : Nat
  value : Int
deriving DecidableEq, Repr

/-- A frame that reaches the timing port: destination address bytes first, without FCS, and whether the
FCS is good (R363, R366). -/
structure EthFrame where
  bytes : List Byte
  fcsOk : Bool
deriving DecidableEq, Repr

/-- An event as its raiser gives it: code, severity and the items of its body (R394, R395). -/
structure Ev where
  code : BitVec 16
  sev : Fin 5
  body : List Word
deriving DecidableEq, Repr

end Sys2Proof
end

