-- ==== Sys2Proof/Syntax.lean ====
section
/-! DEFINITION. The commands of the Dripen 2460: one constructor per row of spec/opcode_table.json, in
the table's order, with the operands its rule gives it. -/

namespace Sys2Proof

/-- A command: an operation of the host interface, a step of a unit of the block, or an event that
reaches it. -/
inductive Instr where
  /-- SYS_INFO, R57. Returns trained DIMMs, memory size, module ID, job bitmaps, ECLK, free tiles and degrading conditions. -/
  | sysInfo (r : Req)
  /-- SYS_COMMIT_CONFIG, R52. Checks that every required setting is loaded and moves the module from Configurable to an operating state. -/
  | sysCommitConfig (r : Req)
  /-- SYS_DECONFIG, R51. Returns a Ready or Degraded module with no job defined to Configurable and removes all BAR2 mappings. -/
  | sysDeconfig (r : Req)
  /-- SYS_MAINTENANCE, R58. Sets or clears the Maintenance flag. -/
  | sysMaintenance (r : Req)
  /-- SYS_RESET, R454. Starts a module reset or a host-link reset 1 ms after the done bit is set. -/
  | sysReset (r : Req)
  /-- SYS_POWER_STATUS, R451. Returns one 50 µs sample of input, die power, ECLK, hold-up store and the power alarms. -/
  | sysPowerStatus (r : Req)
  /-- MAP_WINDOW, R62. Maps, remaps or unmaps a BAR2 window page onto a region offset of a job. -/
  | mapWindow (r : Req)
  /-- JOB_DEFINE, R149. Defines a job with its role count, rounding seed and job_tag. -/
  | jobDefine (r : Req)
  /-- JOB_LOAD_PATTERN, R142. Load-checks and stores a Pattern and its preload for a range of roles of a job. -/
  | jobLoadPattern (r : Req)
  /-- JOB_START, R150. Starts a job now, or arms a schedule entry that starts it at a Sitetime instant. -/
  | jobStart (r : Req)
  /-- JOB_STOP, R151. Stops every local role of a running job, lets issued Stitch operations finish, or disarms an armed start. -/
  | jobStop (r : Req)
  /-- JOB_STATUS, R144. Returns a job's status, fault record, flags, tiles, timing shares and optional tile detail. -/
  | jobStatus (r : Req)
  /-- JOB_RELEASE, R254. Frees a job, its Patterns, tiles, roles, regions, ownership and ledger entries. -/
  | jobRelease (r : Req)
  /-- JOB_TALLY_READ, R153. Returns the 64 tallies of one locally bound role. -/
  | jobTallyRead (r : Req)
  /-- REGION_DECLARE, R239. Declares a region's size, kind, view, movability and home. -/
  | regionDeclare (r : Req)
  /-- ROLE_DECLARE, R239. Declares the home module of a range of roles. -/
  | roleDeclare (r : Req)
  /-- REGION_PIN, R240. Pins a local region to a place or imports a remote region's address. -/
  | regionPin (r : Req)
  /-- ROLE_PIN, R240. Pins a local role to a tile or imports a remote role's module and tile. -/
  | rolePin (r : Req)
  /-- PLACE_JOB, R241. Binds roles, places regions, writes ownership, role table and directory, and updates the transit ledger, all or nothing. -/
  | placeJob (r : Req)
  /-- REGION_QUERY, R246. Returns a region's Region Map entry, pin and placement flags and entry index. -/
  | regionQuery (r : Req)
  /-- ROLE_QUERY, R235. Returns a role's home module, tile and local, known and pinned flags. -/
  | roleQuery (r : Req)
  /-- REGION_MOVE, R250. Starts a three-phase move of a local region to a new place. -/
  | regionMove (r : Req)
  /-- FABRIC_PLAN_LOAD, R289. Loads the torus part of the fabric plan, the Stitch timeouts and the module ID. -/
  | fabricPlanLoad (r : Req)
  /-- FABRIC_STATUS, R285. Returns the state, lanes and transit ledger of every port and eyelet. -/
  | fabricStatus (r : Req)
  /-- ROUTE_LOAD, R290. Checks and writes a run of route table entries. -/
  | routeLoad (r : Req)
  /-- EYELET_DEFINE, R291. Defines, changes or deletes an eyelet's lanes and expected far end. -/
  | eyeletDefine (r : Req)
  /-- CLASS_WEIGHTS, R281. Sets the class weights of one or every torus port and eyelet output. -/
  | classWeights (r : Req)
  /-- FABRIC_COUNTERS, R292. Returns the counts of one unit or of the Stitch unit, optionally resetting the pool peak. -/
  | fabricCounters (r : Req)
  /-- LACE_PLAN_COMPILE, R303. Compiles a full lace plan against the active bank, reports the touched list and optionally loads the shadow bank. -/
  | lacePlanCompile (r : Req)
  /-- LACE_BANK_QUERY, R300. Returns the contents and status of the active or shadow lace bank. -/
  | laceBankQuery (r : Req)
  /-- LACE_STATUS, R309. Returns state, flags, pass loss and tap powers of a range of lace entries. -/
  | laceStatus (r : Req)
  /-- WELT_POWER, R316. Powers the Welt on or removes heater power. -/
  | weltPower (r : Req)
  /-- WELT_FORCE, R317. Forces one cell to bar, cross or a raw drive, or releases the force, at the next sample. -/
  | weltForce (r : Req)
  /-- SHANK_COEF_LOAD, R331. Writes a plane's pending coefficient set, or makes it active when none is active. -/
  | shankCoefLoad (r : Req)
  /-- SHANK_COEF_SWAP, R332. Makes a plane's pending set active at the next boundary with bumpless re-initialisation. -/
  | shankCoefSwap (r : Req)
  /-- SHANK_LIMITS, R334. Sets a plane's cell power, plane power and thermal limits. -/
  | shankLimits (r : Req)
  /-- SHANK_RATE, R319. Sets the Shank sample period of both planes from each plane's next boundary. -/
  | shankRate (r : Req)
  /-- SHANK_STATUS, R324. Returns one sample's plane summary and optional detail of one cell. -/
  | shankStatus (r : Req)
  /-- CAL_RUN, R342. Starts a calibration run of the procedures in the mask. -/
  | calRun (r : Req)
  /-- CAL_STATUS, R340. Returns running, deferred and failed procedures, count, stamps, drift and stale readings. -/
  | calStatus (r : Req)
  /-- MONITOR_READ, R337. Returns a range of monitor readings with stale and slewing flags. -/
  | monitorRead (r : Req)
  /-- SCHED_ARM, R373. Arms a lace commit or notice-only schedule entry for a Sitetime instant. -/
  | schedArm (r : Req)
  /-- SCHED_DISARM, R370. Disarms an armed schedule entry, with the effect on its job or image. -/
  | schedDisarm (r : Req)
  /-- SCHED_QUERY, R376. Returns one entry record, or returns and empties the fired list. -/
  | schedQuery (r : Req)
  /-- TIME_PORT_CONFIG, R363. Sets the timing port speed, filters and MAC address. -/
  | timePortConfig (r : Req)
  /-- PPS_CONFIG, R368. Configures 1PPS input and output and optionally loads the next second boundary. -/
  | ppsConfig (r : Req)
  /-- EPOCH_CONFIG, R378. Starts or stops epoch boundaries with a period, origin, first index and job mask. -/
  | epochConfig (r : Req)
  /-- BUDDY_SET, R381. Sets or clears this module's buddy, or reserves or frees a mirror store. -/
  | buddySet (r : Req)
  /-- HEARTBEAT_CONFIG, R386. Sets heartbeat period, miss count and the peer list. -/
  | heartbeatConfig (r : Req)
  /-- RECOVER_PROMOTE, R389. Promotes a source's mirror image to primary, or restores a stopped job to a promotable index. -/
  | recoverPromote (r : Req)
  /-- RESILIENCE_STATUS, R379. Returns epoch, copy, buddy, peer and store status. -/
  | resilienceStatus (r : Req)
  /-- LOG_READ, R405. Returns stored records from a sequence number, filtered by severity or Heel. -/
  | logRead (r : Req)
  /-- LOG_FREEZE, R406. Freezes the log at a freeze_seq or thaws it. -/
  | logFreeze (r : Req)
  /-- LOG_LASTGASP_READ, R404. Returns the last-gasp ring of recent Error and Fatal events. -/
  | logLastgaspRead (r : Req)
  /-- LOG_FILTER, R402. Sets per-group minimum severities that are stored. -/
  | logFilter (r : Req)
  /-- FW_BEGIN, R429. Checks and writes an image header to staging and starts a delivery. -/
  | fwBegin (r : Req)
  /-- FW_BLOCK, R430. Checks a block's GCM tag and stores the block in staging. -/
  | fwBlock (r : Req)
  /-- FW_VERIFY, R431. Reads back, decrypts and digests every staged block. -/
  | fwVerify (r : Req)
  /-- FW_ARM, R432. Arms a firmware activation entry for a verified staged image. -/
  | fwArm (r : Req)
  /-- FW_STATUS, R428. Returns staging state, agent, staged header values and any armed activation. -/
  | fwStatus (r : Req)
  /-- FW_ABORT, R428. Disarms any activation and empties the staging state. -/
  | fwAbort (r : Req)
  /-- ID_CERT_READ, R442. Returns the module or device-CA certificate. -/
  | idCertRead (r : Req)
  /-- ATTEST_REPORT, R443. Returns a signed attestation report over a host nonce. -/
  | attestReport (r : Req)
  /-- SVC_TOKEN_KEY, R440. Installs or clears a service-port token key slot and closes any open session. -/
  | svcTokenKey (r : Req)
  /-- TEST_UNLOCK, R444. Issues a challenge nonce or checks a signed grant that enables boundary scan. -/
  | testUnlock (r : Req)
  /-- MBX_RING_WRITE, R38. A write to MBX_RING_LO or MBX_RING_HI makes Free slots Pending and counts rings of other slots. -/
  | mbxRingWrite (hi : Bool) (value : Word)
  /-- SLOT_TAKE, R39. Yarler takes the oldest Pending slot and starts executing its command. -/
  | slotTake (env : Env)
  /-- MBX_DONE_WRITE, R42. Writing 1 to a done bit frees the slot. -/
  | mbxDoneWrite (hi : Bool) (value : Word)
  /-- MBX_ERR_READ, R37. A read returns and clears the count of ignored rings. -/
  | mbxErrRead
  /-- IRQ_MASK_WRITE, R48. A write to IRQ_MASK unmasks vectors, sending messages for cause bits already set. -/
  | irqMaskWrite (value : Word)
  /-- IRQ_JOB_MASK_WRITE, R48. A write to IRQ_JOB_MASK unmasks job vectors, sending messages for cause bits already set. -/
  | irqJobMaskWrite (value : Word)
  /-- COALESCE_GAP_END, R49. At the end of an IRQ_COALESCE gap one message covers done bits set during it. -/
  | coalesceGapEnd (k : Fin 32)
  /-- REGISTER_WRITE, R8. A write to a register with no row of its own sets, clears or ignores fields by its access code. -/
  | registerWrite (off : BitVec 26) (value : DWord) (wide : Bool)
  /-- BAR0_BAD_ACCESS, R7. A BAR0 access of wrong width or alignment completes without effect and raises 0xB001. -/
  | bar0BadAccess (off : BitVec 26) (width : Nat) (isRead : Bool)
  /-- BAR2_READ, R60. A host read of a window page is translated through the Region Map or returns all ones. -/
  | bar2Read (addr : BitVec 34) (len : Nat) (flaws : List Flaw)
  /-- BAR2_WRITE, R59. A host write to a window page is translated and written, held during a move drain, or dropped. -/
  | bar2Write (addr : BitVec 34) (bytes : List Byte) (flaws : List Flaw)
  /-- FUNCTION_LEVEL_RESET, R21. PCIe FLR resets IRQ, MSI-X, MBX, slots and BAR2 mappings and discards untaken commands. -/
  | functionLevelReset
  /-- D3HOT_ENTRY, R20. Entering D3hot makes the module ignore BAR accesses and hold MSI-X messages. -/
  | d3hotEntry
  /-- D0_RETURN, R20. Returning to D0 sends the held MSI-X messages. -/
  | d0Return
  /-- HOST_LINK_RESET, R454. A fundamental reset, hot reset or link down resets the host-facing blocks only. -/
  | hostLinkReset
  /-- MODULE_RESET, R454. MOD_RESET_N low resets every domain except security and recorder until the pin rises. -/
  | moduleReset
  /-- POWER_ON, R455. Input rising through 46 V powers the domains in order and starts the module in Boot. -/
  | powerOn
  /-- BOOT_ROM_START, R432. The boot ROM checks its key and acts on the boot control state. -/
  | bootRomStart
  /-- TRIAL_TIMEOUT, R434. A Trial image that has not reached Configurable in 30 s sets boot control Dead. -/
  | trialTimeout
  /-- MIGRATION, R349. A new image converts an older calibration record and records the log version change. -/
  | migration (flashOk : Bool)
  /-- STARTUP_COMPLETE, R455. Once zeroing, recorder scan, calibration and hold-up charge are done the module enters Configurable. -/
  | startupComplete (fusesBlown : Fin 65)
  /-- GLB_HEARTBEAT_TICK, R27. GLB_HEARTBEAT increments every 1 ms while firmware runs. -/
  | glbHeartbeatTick
  /-- OPSEC_TICK, R27. The operating-seconds count advances each second. -/
  | opsecTick
  /-- POWER_FAIL, R457. Input below 40 V for 20 µs, or overvoltage, drops PWR_GOOD, sheds domains and starts the flush. -/
  | powerFail (vin10mV : Nat)
  /-- HOLDUP_END, R458. The hold-up store reaches 40 V; management and recorder go off, or a power-on reset follows if input is present. -/
  | holdupEnd (inputPresent : Bool)
  /-- INPUT_RANGE_CHANGE, R460. The input leaves or returns to 48–72 V and raises 0x1001. -/
  | inputRangeChange (vin10mV : Nat)
  /-- HOLDUP_CHECK, R450. Every 24 h a partial discharge checks the hold-up store and may set its alarm. -/
  | holdupCheck (capUf : Nat) (vhold10mV : Nat)
  /-- POWER_LOOP_SAMPLE, R451. Every 50 µs the power loop samples die power, input current and die temperature and may lower ECLK. -/
  | powerLoopSample (r : PowerReading)
  /-- ECLK_STEP_UP, R451. After 1 ms with all readings below 95 % of their limits ECLK rises by 25 MHz. -/
  | eclkStepUp
  /-- POWER_LIMIT_TRIP, R453. Die power or input current over limit for 10 ms at the ECLK floor raises Fatal 0x1005. -/
  | powerLimitTrip
  /-- DIE_OVERTEMP_TRIP, R453. A die sensor at 110 °C or above for 1 ms raises Fatal 0x1006. -/
  | dieOvertempTrip (sensor : Fin 64)
  /-- CONVERTER_TEMP_CHANGE, R460. The converter rises above or falls below 110 °C and raises 0x1008. -/
  | converterTempChange (temp : Int)
  /-- MATRIX, R124. A MATRIX step runs its passes through the array and optionally emits converted outputs. -/
  | matrix (tile : Fin 64) (flaws : List Flaw)
  /-- MATRIX_COMPLETE, R115. A MATRIX step finishes, frees the matrix unit and bumps its done tally when enabled. -/
  | matrixComplete (tile : Fin 64)
  /-- VECTOR, R128. A VECTOR step applies one vector operation to n elements. -/
  | vector (tile : Fin 64) (flaws : List Flaw)
  /-- VECTOR_COMPLETE, R115. A VECTOR step finishes, frees the vector unit and bumps its done tally when enabled. -/
  | vectorComplete (tile : Fin 64)
  /-- STITCH, R131. A STITCH step forms a descriptor, takes a stitch-table entry and hands the operation to the Stitch unit. -/
  | stitch (tile : Fin 64) (flaws : List Flaw)
  /-- WAIT, R134. A WAIT step holds the sequencer until a tally meets its target. -/
  | wait (tile : Fin 64)
  /-- WAIT_MET, R120. The tested tally meets the target; the wait releases and optionally consumes. -/
  | waitMet (tile : Fin 64)
  /-- WAIT_TIMEOUT, R141. A WAIT's timeout expires and the role faults with WAIT_TIMEOUT. -/
  | waitTimeout (tile : Fin 64)
  /-- TIMEWAIT, R135. A TIMEWAIT step forms its target and holds, faults or goes on late. -/
  | timewait (tile : Fin 64)
  /-- TIMEWAIT_RELEASE, R136. Sitetime reaches the target and the next step issues within 40 ns. -/
  | timewaitRelease (tile : Fin 64)
  /-- LOOP, R138. A LOOP step advances or resets its counter and jumps or falls through. -/
  | loop (tile : Fin 64)
  /-- FENCE, R139. A FENCE step waits for the selected units and Stitch operations. -/
  | fence (tile : Fin 64)
  /-- FENCE_RELEASE, R139. The fence's waits are met; it copies or clears flags and the sequencer goes on. -/
  | fenceRelease (tile : Fin 64)
  /-- END, R140. An END step waits as a full fence. -/
  | endStep (tile : Fin 64)
  /-- ROLE_END, R140. The role ends, keeps its exit code, and the job becomes Done when its last local role ends. -/
  | roleEnd (tile : Fin 64)
  /-- JOB_START_INSTANT, R146. At the start instant tiles are cleared, loaded and seeded, and step 0 issues on every tile. -/
  | jobStartInstant (job : Fin 16)
  /-- STITCH_ENTRY_GRANT, R185. A freed shared-pool entry is granted to the oldest waiting request. -/
  | stitchEntryGrant
  /-- STITCH_SEGMENT_SEND, R173. A segment is translated, routed and sent as a request packet, starting its timer. -/
  | stitchSegmentSend (tag : Fin 16384) (part : Fin 17) (flaws : List Flaw)
  /-- HELD_OPERATION_RELEASE, R181. A held operation is sent in the cycle after the earlier overlapping operation completes. -/
  | heldOperationRelease (tag : Fin 16384)
  /-- STITCH_REQUEST_RECEIVE, R194. A target checks a request against its ownership map, applies it and answers. -/
  | stitchRequestReceive (flaws : List Flaw)
  /-- STITCH_RESPONSE_RECEIVE, R191. The initiator matches, checks and accepts a response, completing parts and the operation. -/
  | stitchResponseReceive
  /-- STITCH_TIMEOUT, R190. A segment timer reaches the timeout; the operation ends in TIMEOUT and its entry enters quarantine. -/
  | stitchTimeout (tag : Fin 16384)
  /-- QUARANTINE_END, R187. A quarantined entry becomes free after the timeout that expired. -/
  | quarantineEnd (tag : Fin 16384)
  /-- SRAM_CORRECTION_REWRITE, R203. A corrected SRAM word is rewritten in the next cycle no port wants. -/
  | sramCorrectionRewrite (tile : Fin 64) (word : Nat)
  /-- SRAM_BANK_SCRUB, R203. Each bank reads and rewrites every row once in 100 ms. -/
  | sramBankScrub (tile : Fin 64) (bank : Fin 48) (flaws : List Flaw)
  /-- MRDIMM_CORRECTION_REWRITE, R217. A corrected MRDIMM line is written back unless a later write arrived. -/
  | mrdimmCorrectionRewrite (chan : Fin 12) (line : Nat)
  /-- PATROL_SCRUB_READ, R226. A due scrub read takes a free slot, or is forced after 1 ms. -/
  | patrolScrubRead (chan : Fin 12) (sub : Fin 2) (flaws : List Flaw)
  /-- SCRUB_PERIOD_CHANGE, R225. The scrub period moves to 6 h on many corrections or back to 24 h after a quiet day. -/
  | scrubPeriodChange (chan : Fin 12)
  /-- DIMM_TEMP_READ, R223. Every 10 ms each DIMM temperature is read and refresh, bandwidth or service acts on it. -/
  | dimmTempRead (chan : Fin 12) (temp : Int)
  /-- CA_PARITY_ERROR, R221. A command or address parity error repeats the command, retrains or takes the channel out of service. -/
  | caParityError (chan : Fin 12) (fails : Fin 5)
  /-- CHANNEL_ZERO_COMPLETE, R208. A channel finishes zeroing and enters service. -/
  | channelZeroComplete (chan : Fin 12)
  /-- MOVE_UPDATE_RECEIVE, R250. A job module receives a Management-class change of a moving region's entry. -/
  | moveUpdateReceive (u : MoveUpdate)
  /-- MOVE_COPY_COMPLETE, R250. The copy phase ends and the Lastmaker sets drain on every job module. -/
  | moveCopyComplete (flaws : List Flaw)
  /-- MOVE_DRAIN_ACK, R250. A job module acknowledges drain; after the last, marked granules are copied again. -/
  | moveDrainAck (module : BitVec 16) (flaws : List Flaw)
  /-- MOVE_FLIP, R250. After the recopy the entry flips to the new place and held operations are released. -/
  | moveFlip
  /-- MOVE_FLIP_ACK, R250. A job module acknowledges the flip. -/
  | moveFlipAck (module : BitVec 16)
  /-- MOVE_OLD_PLACE_RELEASE, R250. 40 ms after the last flip acknowledgement ownership of the old place is removed. -/
  | moveOldPlaceRelease
  /-- MOVE_DRAIN_TIMEOUT, R252. A job module fails to acknowledge drain within 50 ms and the move aborts. -/
  | moveDrainTimeout
  /-- MOVE_FLIP_ACK_TIMEOUT, R252. A module does not acknowledge a flip within 50 ms and 0x3026 is raised. -/
  | moveFlipAckTimeout
  /-- HELLO_SEND, R262. Every 100 µs each lane sends a hello frame in place of a data frame. -/
  | helloSend (unit : Fin 22) (lane : Fin 32)
  /-- HELLO_RECEIVE, R262. A received hello is compared with the plan and restores eyelet credits. -/
  | helloReceive (unit : Fin 22) (lane : Fin 32) (body : List Byte)
  /-- FRAME_RECEIVE, R261. A received codeword is decoded and its frame's packets and credits delivered, or a replay requested. -/
  | frameReceive (unit : Fin 22) (lane : Fin 32) (cw : Codeword)
  /-- REPLAY_REQUEST_RECEIVE, R265. A torus port resends every frame after ack, and retrains after 8 requests. -/
  | replayRequestReceive (port : Fin 6) (ack : BitVec 16)
  /-- EYELET_SEQ_GAP_TIMEOUT, R266. An eyelet sequence gap closes after 10 µs. -/
  | eyeletSeqGapTimeout (eyelet : Fin 16)
  /-- PACKET_SEND, R269. A packet is sent on a unit once credits are held and the arbiter grants it. -/
  | packetSend (unit : Fin 22)
  /-- PACKET_FORWARD, R274. A module holding a packet forwards it, delivers it, sends it into an eyelet or drops it. -/
  | packetForward (unit : Fin 22) (buf : Fin 8)
  /-- LANE_LOCK_TIMEOUT, R267. A lane without lock for 1 ms, or unheard by the far end for 1 ms, goes out of service. -/
  | laneLockTimeout (unit : Fin 22) (lane : Fin 32) (deaf : Bool)
  /-- LANE_ERROR_CHECK, R267. Each second a lane's error and symbol counts are tested against their limits. -/
  | laneErrorCheck (unit : Fin 22) (lane : Fin 32) (uncorrectable corrected received : Nat)
  /-- LANE_RETRY, R267. Every 10 s an out-of-service lane is tried again. -/
  | laneRetry (unit : Fin 22) (lane : Fin 32)
  /-- LANE_RETURN, R267. After one second with lock and no uncorrectable codeword the lane returns to service. -/
  | laneReturn (unit : Fin 22) (lane : Fin 32)
  /-- UNIT_MISSING, R287. A planned port or eyelet in Down or Mismatch for 1 ms becomes missing. -/
  | unitMissing (unit : Fin 22)
  /-- RELACE_QUIESCE, R288. At T − 100 µs lanes of touched laces stop being dealt data frames. -/
  | relaceQuiesce (seq : BitVec 16)
  /-- LANE_DEAL_RESUME, R288. Once the far heard mask shows the relocked lane, dealing resumes. -/
  | laneDealResume (lane : Fin 32)
  /-- SCHEDULE_ENTRY_FIRE, R374. An Armed entry reaches its instant, or is passed by a step, and fires its action. -/
  | scheduleEntryFire
  /-- RELACE_COMPLETE, R310. Every touched lace has locked, gone dark, been forced or failed, and 0x5003 is raised. -/
  | relaceComplete
  /-- LACE_DARK, R309. Inlet power below −30 dBm for 100 µs makes a lace Dark. -/
  | laceDark (index : Fin 320)
  /-- LACE_LIGHT_RETURN, R309. Inlet power above −28 dBm returns a Dark lace to Settling. -/
  | laceLightReturn (index : Fin 320)
  /-- LACE_SETTLE_TIMEOUT, R309. A lace not Locked 10 ms after entering Settling becomes Unlocked. -/
  | laceSettleTimeout (index : Fin 320)
  /-- LACE_LOCK_LOSS, R309. A lit lace out of lock for 1 ms becomes Unlocked. -/
  | laceLockLoss (index : Fin 320)
  /-- LACE_LOSS_ALARM, R314. A Locked lace with pass loss above 3.5 dB for one second raises 0x5009. -/
  | laceLossAlarm (index : Fin 320)
  /-- SHANK_SAMPLE, R324. At each boundary the Shank computes the position, power and thermal loops and the drives of every cell. -/
  | shankSample (plane : Fin 2)
  /-- SHANK_THERMAL_TRIP, R334. A plane at t_lim + 10 °C for 10 ms raises Fatal 0x5013. -/
  | shankThermalTrip (plane : Fin 2)
  /-- MONITOR_SCAN, R338. Every 50 µs each ADC group converts its taps once and makes one slow conversion. -/
  | monitorScan (group : Fin 32) (readings : List Reading)
  /-- BANDGAP_COMPARE, R339. Every 1 ms BG0 is compared with BG1. -/
  | bandgapCompare (bg0uV bg1uV : Int)
  /-- BANDGAP_FAIL, R339. A band-gap difference above 2.4 mV for 10 ms raises 0x6002 and fails REF. -/
  | bandgapFail
  /-- CAL_DRIFT_TEST, R343. Every 100 ms temperatures are tested for 15 °C drift, which triggers a run. -/
  | calDriftTest
  /-- CAL_DEFERRED_START, R344. A deferred automatic run starts when no relace is pending, or after 10 s. -/
  | calDeferredStart
  /-- CAL_RUN_COMPLETE, R342. A calibration run ends, stores its values and raises 0x6001. -/
  | calRunComplete (items : List CalItem)
  /-- CAL_RECORD_WRITE, R348. A field record is written to the other slot and becomes current on a good read-back. -/
  | calRecordWrite (ok : Bool)
  /-- TMU_ADDEND_WRITE, R355. A TMU_ADDEND write sets the rate or is refused, and restarts the watchdog. -/
  | tmuAddendWrite (value : Word)
  /-- TMU_STEP_WRITE, R357. A TMU_STEP write steps Sitetime or is refused by an armed entry. -/
  | tmuStepWrite (value : Word)
  /-- TMU_WDOG_WRITE, R356. A TMU_WDOG write sets the timeout and restarts the watchdog. -/
  | tmuWdogWrite (value : Word)
  /-- TMU_NS_READ, R354. A TMU_NS read latches TMU_FRAC, TMU_SNAP and TMU_ERA from the same tick. -/
  | tmuNsRead
  /-- HOLDOVER_ENTER, R356. The watchdog expires, holdover sets and 0x7001 is raised. -/
  | holdoverEnter
  /-- NS_WRAP, R351. ns wraps forward, era rises and the wrap bit sets. -/
  | nsWrap
  /-- SECOND_BOUNDARY, R368. Sitetime passes next_edge; sec rises and next_edge advances. -/
  | secondBoundary
  /-- PPS_INPUT_EDGE, R367. An accepted 1PPS input edge is captured with its Sitetime; `pulse` is the length in ns of
  the pulse that the edge begins. -/
  | ppsInputEdge (rising : Bool) (pulse : Nat)
  /-- PPS_LOST, R367. 2 s without a capture sets pps_lost and raises 0x7006. -/
  | ppsLost
  /-- SCHED_RECORD_EXPIRE, R371. A Spent or Disarmed record is dropped 2^31 ns after its instant. -/
  | schedRecordExpire (index : Fin 1024)
  /-- TPM_FRAME_RECEIVE, R366. A received timing-port frame is timestamped, written to a buffer and written back. -/
  | tpmFrameReceive (f : EthFrame) (dma : Dma)
  /-- TPM_TX_TAIL_WRITE, R364. Advancing the transmit tail gives descriptors to the module for sending. -/
  | tpmTxTailWrite (value : Word)
  /-- TPM_FRAME_TRANSMIT, R366. A frame leaves the port and its descriptor is written back with the timestamp. -/
  | tpmFrameTransmit (dma : Dma)
  /-- TPM_RING_SIZE_WRITE, R364. A ring size write starts or stops the ring and resets head to 0. -/
  | tpmRingSizeWrite (tx : Bool) (value : Word)
  /-- TPM_DROP_READ, R364. A read returns and clears the receive drop counts. -/
  | tpmDropRead
  /-- TIME_PORT_LINK_CHANGE, R377. The timing-port link goes up or down and raises 0x7013. -/
  | timePortLinkChange (up : Bool)
  /-- DIRTY_DRAIN_END, R229. The drain sweep ends and the boundary entry becomes Spent. -/
  | dirtyDrainEnd
  /-- MIRROR_COPY_START, R384. The mirror engine starts an image once the buddy's other journal half is free.
  The header comes by the mirror engine's own read; `header` is empty (log 46). -/
  | mirrorCopyStart (header : List Byte)
  /-- MIRROR_PAGE_READ, R380. The mirror engine reads a pending page into staging and releases writes held on it. -/
  | mirrorPageRead (flaws : List Flaw)
  /-- MIRROR_SEAL, R384. When every copy operation completes the mirror engine writes the seal into the header. -/
  | mirrorSeal
  /-- STORE_APPLY, R384. Within 1 ms of a seal the holder applies the older journal half and sets applied. -/
  | storeApply (store : Fin 4)
  /-- HEARTBEAT_SEND, R386. Each heartbeat period Yarler puts a heartbeat record to every peer. -/
  | heartbeatSend
  /-- HEARTBEAT_RECEIVE, R387. A heartbeat arrives and may make a lost peer heard again. -/
  | heartbeatReceive (record : Vector Word 8)
  /-- PEER_CHECK, R387. Once per period each watched peer is tested and may be found lost. -/
  | peerCheck (peer : Fin 64)
  /-- EVENT_RAISE, R402. A raised event is stored in the buffer with a sequence number, counted or discarded, and fires its vector. -/
  | eventRaise (e : Ev)
  /-- LOG_CHUNK_WRITE, R401. With 4,096 bytes waiting and the flash free, the recorder programs a chunk of the oldest records. -/
  | logChunkWrite
  /-- LOG_CHUNK_COMPLETE, R401. A chunk is programmed and verified, its records leave the buffer, or it is rewritten at the next chunk. -/
  | logChunkComplete (ok : Bool)
  /-- LOSS_RECORD_WRITE, R403. When fill allows, a Loss record of the held counts is stored. -/
  | lossRecordWrite
  /-- TOE_ERASE_COMPLETE, R399. A Toe sector erase ends, or fails and retires the sector. -/
  | toeEraseComplete (ok : Bool)
  /-- LOG_FREEZE_TIMEOUT, R406. A freeze's timeout expires and the log thaws. -/
  | logFreezeTimeout
  /-- LOG_SCAN_COMPLETE, R400. The power-up scan finds the write point and newest seq, and buffered records are written. -/
  | logScanComplete (bad : List (Fin 512 × Fin 16))
  /-- LOG_FILL_PEAK_READ, R412. A read returns the peak fill and reloads it with the current fill. -/
  | logFillPeakRead
  /-- LOG_LOST_READ, R412. A read returns and clears the count of counted events. -/
  | logLostRead
  /-- CVU_START, R415. CVUn_CMD start loads init, clears count and status and feeds the prefix. -/
  | cvuStart (unit : Fin 8) (andCheck : Bool)
  /-- CVU_CHECK, R419. CVUn_CMD check compares result with expect and may set IRQ_CAUSE bit 6. -/
  | cvuCheck (unit : Fin 8)
  /-- CVU_FEED_B, R415. A CVUn_FEED_B write feeds one byte. -/
  | cvuFeedB (unit : Fin 8) (value : Word)
  /-- CVU_FEED_H, R415. A CVUn_FEED_H write feeds two bytes. -/
  | cvuFeedH (unit : Fin 8) (value : Word)
  /-- CVU_FEED_W, R415. A CVUn_FEED_W write feeds four bytes. -/
  | cvuFeedW (unit : Fin 8) (value : Word)
  /-- CVU_CTRL_WRITE, R414. A CVUn_CTRL write sets the configuration or is refused and sets cfg_err. -/
  | cvuCtrlWrite (unit : Fin 8) (value : Word)
  /-- SVC_SESSION_OPEN, R440. The first message of a TCP session carries a token that is accepted or refused. -/
  | svcSessionOpen (token : List Byte) (peer : DWord)
  /-- SVC_MESSAGE, R441. A later session message carries a mailbox request that runs if its right is held. -/
  | svcMessage (words : List Word) (env : Env)
  /-- SVC_SESSION_IDLE_TIMEOUT, R438. A session closes after 300 s without a message. -/
  | svcSessionIdleTimeout
  /-- SVC_SESSION_CLOSE, R438. The peer closes the session. -/
  | svcSessionClose
  /-- TEST_NONCE_EXPIRY, R444. A test-unlock nonce expires 60 s after it was issued. -/
  | testNonceExpiry
  /-- RESET_DELAY_EXPIRY, R454. 1 ms after the done bit of SYS_RESET is set, the requested module reset or host-link reset begins. -/
  | resetDelayExpiry
  /-- MOD_RESET_RELEASE, R465. MOD_RESET_N rising releases the blocks held in reset and start-up begins. -/
  | modResetRelease
  /-- HOLDUP_STORE_CHARGED, R447. The hold-up store reaches its charged voltage and PWR_GOOD rises. -/
  | holdupStoreCharged (vhold10mV : Nat)
  /-- DIMM_TRAINING_COMPLETE, R207. SPD read and training of a DIMM end; the channel proceeds to zeroing or is absent, with event 0x2006 where it applies. -/
  | dimmTrainingComplete (chan : Fin 12) (spd : Spd)
  /-- DIMM_SHUTDOWN_CONDITION, R207. A DIMM's power management reports a shutdown condition and its channel leaves service. -/
  | dimmShutdownCondition (chan : Fin 12)
  /-- MEMORY_RETRAIN_COMPLETE, R221. The single channel retrain after a fourth failed parity attempt ends, returning the channel or taking it out of service. -/
  | memoryRetrainComplete (chan : Fin 12) (ok : Bool)
  /-- LINK_TRAINING_COMPLETE, R285. A torus port's link training or retraining ends: the link is trained (Extra or toward Up) or the port goes down. -/
  | linkTrainingComplete (port : Fin 6) (ok : Bool)
  /-- LANE_LOCK_GAINED, R288. A lane's receiver acquires lock and codeword alignment, after which hellos resume on it. -/
  | laneLockGained (unit : Fin 22) (lane : Fin 32)
  /-- PPS_OUT_RISE, R369. PPS OUT rises when Sitetime reaches the next second boundary less out_delay_ns. -/
  | ppsOutRise
  /-- PPS_OUT_FALL, R369. PPS OUT falls width_us after its rising edge. -/
  | ppsOutFall
deriving DecidableEq, Repr

end Sys2Proof
end

