-- ==== Sys2Proof/Machine/Parts.lean ====
section
/-! DEFINITION. The pieces of State, one structure per block of the module. Each field's docstring says
its width, the rule that names it and its value at reset; a field that is an entry of a table holds its
reset value as the structure's default. -/

namespace Sys2Proof.Machine

/-- The module state of R17, with the value that GLB_STATE.state shows. -/
inductive ModState where
  | boot | migrate | configurable | ready | running | degraded | halted | dead
deriving DecidableEq, Repr

/-- `GLB_` block and what it copies (R27). -/
structure Glb where
  /-- 4 bits as GLB_STATE.state; 01 R17, 02 R51; reset Boot. -/
  state : ModState := .boot
  /-- 4 bits; 02 R27 GLB_STATE.prev_state; reset 0. -/
  prev : BitVec 4 := 0
  /-- 1 bit; 02 R27, R58 GLB_STATE.maint; reset 0. -/
  maint : Bool := false
  /-- 8 bits; 02 R27 GLB_STATE.seq; reset 0. -/
  seq : BitVec 8 := 0
  /-- 16 bits; 02 R27 GLB_STATE_CAUSE.code; reset 0. -/
  cause : BitVec 16 := 0
  /-- 1 bit; 02 R27 GLB_STATE.holdover, 12 R353; reset 0. -/
  holdover : Bool := false
  /-- 32 bits; 02 R27 GLB_OPSEC; reset DESIGN CHOICE 0 ("Stored count", log 3). -/
  opsec : Word := 0
  /-- 24 bits; 02 R27 GLB_PCYCLE; reset DESIGN CHOICE 1 (a stored count of 0, raised by the power-on, log 3). -/
  pcycle : BitVec 24 := 1
  /-- 32 bits; 02 R27 GLB_HEARTBEAT; reset 0. -/
  heartbeat : Word := 0
  /-- 32 bits; 02 R27 GLB_SCRATCH; reset 0. -/
  scratch : Word := 0
  /-- 32 bits; 02 R27 GLB_FW_VER; reset 0. -/
  fwVer : Word := 0
  /-- 7 bits; 02 R27 GLB_SVN, 16 R436; reset DESIGN CHOICE 0 ("Fused", log 3). -/
  svn : BitVec 7 := 0
  /-- 64 bits; 02 R27 GLB_SERIAL_LO and GLB_SERIAL_HI; reset DESIGN CHOICE 0 ("Fused", log 3). -/
  serial : DWord := 0
  /-- 8 bits; 02 R27 GLB_ID.die_rev; reset DESIGN CHOICE 0 ("Fused", log 3). -/
  dieRev : Byte := 0
  /-- 8 bits; 02 R27 GLB_ID.board_rev; reset DESIGN CHOICE 0 ("Fused", log 3). -/
  boardRev : Byte := 0
  /-- 16 bits; 02 R27 GLB_MODULE_ID.module_id; reset 0. -/
  moduleId : BitVec 16 := 0
  /-- 1 bit; 02 R27 GLB_MODULE_ID.valid; reset 0. -/
  moduleIdValid : Bool := false
  /-- 1 bit; 02 R56, 17 R455: Yarler firmware runs; reset 0. -/
  yarlerUp : Bool := false
  /-- 1 bit; 02 R55, R56: the Fatal event that halted the module unpowers the Welt; reset 0. -/
  weltKilled : Bool := false
deriving DecidableEq, Repr

/-- The condition of a mailbox slot (02, Ring, take and done). -/
inductive SlotCond where
  | free | pending | busy | done
deriving DecidableEq, Repr

/-- One mailbox slot. -/
structure Slot where
  /-- the slot's bits of MBX_PENDING, MBX_BUSY and MBX_DONE; 02 R37; reset Free. -/
  cond : SlotCond := .free
  /-- the number of held BAR2 writes that had come when the slot was rung; 02 R44; reset 0. -/
  after : Nat := 0
  /-- 512 words of 32 bits by word number; 02 R28; reset 0 (R21). -/
  req : Tbl Word := []
  /-- 512 words of 32 bits by word number; 02 R28; reset 0 (R21). -/
  resp : Tbl Word := []
deriving DecidableEq, Repr

/-- A command that Yarler has taken and whose response is still to come (R43, R45). -/
structure Taken where
  /-- 16 bits; 02 R29 opcode; reset none. -/
  opcode : BitVec 16
  /-- the request; 02 R29; reset none. -/
  req : Req
  /-- its place in the order of taking; 02 R43; reset none. -/
  order : Nat
  /-- the number of held BAR2 writes that had come when its slot was rung; 02 R44; reset none. -/
  after : Nat := 0
deriving DecidableEq, Repr

/-- `MBX_` block (R37) and Yarler's record of taken commands. -/
structure Mbx where
  /-- 64 slots by slot number; 02 R23, R37; reset all Free and empty. -/
  slots : Tbl Slot := []
  /-- slot numbers in the order rung, oldest first; 02 R39; reset empty. -/
  rung : List Nat := []
  /-- taken commands that an ordered flag or a common object keeps from starting; 02 R43; reset empty. -/
  waiting : List Taken := []
  /-- started commands whose response waits for something; 02 R45; reset empty. -/
  started : List Taken := []
  /-- count of the commands kept in waiting and started, which orders them; 02 R43; reset 0. -/
  orders : Nat := 0
  /-- 16 bits; 02 R37 MBX_ERR.bad_rings; reset 0. -/
  badRings : BitVec 16 := 0
deriving DecidableEq, Repr

/-- One entry of the MSI-X table (R23, R48). -/
structure MsixEntry where
  /-- 32 bits; 02 R23 MSI-X table; reset PRESUMED 0 (PCIe base specification, log 4). -/
  addrLo : Word := 0
  /-- 32 bits; 02 R23; reset PRESUMED 0 (log 4). -/
  addrHi : Word := 0
  /-- 32 bits; 02 R23; reset PRESUMED 0 (log 4). -/
  data : Word := 0
  /-- 32 bits, Vector Control, bit 0 the mask; 02 R23, R48; reset PRESUMED 1 (log 4). -/
  ctrl : Word := 1
deriving DecidableEq, Repr

/-- The IRQ_COALESCE gap of a vector in 32 to 63 (R49). -/
structure Gap where
  /-- 1 bit; 02 R49: a gap runs; reset 0. -/
  isOpen : Bool := false
  /-- oscillator ticks; 02 R49: when the gap began; reset 0. -/
  since : Nat := 0
  /-- gap length in µs taken when the message was sent; 02 R49; reset 0. -/
  us : Nat := 0
  /-- 1 bit; 02 R49: a done bit set during the gap; reset 0. -/
  owed : Bool := false
deriving DecidableEq, Repr

/-- `IRQ_` block, MSI-X table and pending bits (R46 to R49). -/
structure Irq where
  /-- 8 bits; 02 R47 IRQ_CAUSE; reset 0. -/
  cause : BitVec 8 := 0
  /-- 16 bits; 02 R47 IRQ_JOB_CAUSE; reset 0. -/
  jobCause : BitVec 16 := 0
  /-- 8 bits; 02 R47 IRQ_MASK; reset 0xFF. -/
  mask : BitVec 8 := 0xFF
  /-- 16 bits; 02 R47 IRQ_JOB_MASK; reset 0xFFFF. -/
  jobMask : BitVec 16 := 0xFFFF
  /-- 24 bits: vectors 0 to 23 whose message is owed because the cause bit set while masked; 02 R48; reset 0. -/
  owed : BitVec 24 := 0
  /-- 3 bits; 02 R47 IRQ_EVT_LEVEL; reset 2. -/
  evtLevel : BitVec 3 := 2
  /-- 16 bits; 02 R47 IRQ_COALESCE; reset 0. -/
  coalesce : BitVec 16 := 0
  /-- 32 bits; 02 R47 IRQ_EVT_SEQ; reset 0. -/
  evtSeq : Word := 0
  /-- gaps of vectors 32 to 63, by vector; 02 R49; reset none. -/
  gaps : Tbl Gap := []
  /-- 64 entries by vector; 02 R23, R48; reset as MsixEntry. -/
  msix : Tbl MsixEntry := []
  /-- 64 bits; 02 R23, R48 pending bit array; reset 0. -/
  pba : BitVec 64 := 0
  /-- 1 bit: the function mask of the MSI-X capability, which no command of the table writes; 02 R48; reset PRESUMED 0 (log 4). -/
  fnMask : Bool := false
  /-- 1 bit; 02 R20: the function is in D3hot; reset 0. -/
  d3hot : Bool := false
  /-- vectors whose message D3hot holds, oldest first; 02 R20; reset empty. -/
  held : List Nat := []
deriving DecidableEq, Repr

/-- How a BAR2 window page stands (R59 to R61). -/
inductive PageCond where
  | unmapped | mapped | suspended
deriving DecidableEq, Repr

/-- One BAR2 window page (MAP_WINDOW). -/
structure Window where
  /-- 02 R60, R61; reset unmapped. -/
  cond : PageCond := .unmapped
  /-- 1 bit; 02 MAP_WINDOW read; reset 0. -/
  rd : Bool := false
  /-- 1 bit; 02 MAP_WINDOW write; reset 0. -/
  wr : Bool := false
  /-- 4 bits; 02 MAP_WINDOW job; reset 0. -/
  job : Nat := 0
  /-- 16 bits; 02 MAP_WINDOW region; reset 0. -/
  region : Nat := 0
  /-- 40 bits; 02 MAP_WINDOW offset; reset 0. -/
  offset : Nat := 0
deriving DecidableEq, Repr

/-- A BAR2 write that waits in the host interface (R251, R380). -/
structure HeldBar2 where
  /-- 10 bits; 02 R59 page; reset none. -/
  page : Nat
  /-- the page's mapping when the write came; 02 R62; reset none. -/
  map : Window
  /-- 24 bits; 02 R59 offset in the page; reset none. -/
  off : Nat
  /-- 02 R59 the bytes; reset none. -/
  bytes : List Byte
  /-- the memory page (channel × 2^22 + page) that the write first waited for, and the tick since when; 13 R380; reset none. -/
  wait : Option (Nat × Nat) := none
  /-- its place in the order in which writes were first held; 02 R44; reset none. -/
  no : Nat := 0
deriving DecidableEq, Repr

/-- BAR2 windows and the writes that the host interface holds (R59, R251, R380). -/
structure Bar2 where
  /-- 1,024 pages by page number; 02 R22, R59; reset all unmapped (R21). -/
  pages : Tbl Window := []
  /-- held writes, oldest first; 07 R251, 13 R380; reset empty. -/
  held : List HeldBar2 := []
  /-- count of the writes that have been held; 02 R44; reset 0. -/
  writes : Nat := 0
deriving DecidableEq, Repr

/-- `TMU_` block: Sitetime, holdover, 1PPS (R351 to R369). -/
structure Tmu where
  /-- 32 bits; 12 R351, R353 ns; reset 0. -/
  ns : Word := 0
  /-- 32 bits; 12 R351 frac; reset 0. -/
  frac : Word := 0
  /-- 16 bits; 12 R351 era; reset 0. -/
  era : BitVec 16 := 0
  /-- 32 bits; 12 R353 TMU_ADDEND; reset 0x2000_0000. -/
  addend : Word := 0x20000000
  /-- 1 bit; 12 R353, R356 TMU_STATUS.holdover; reset 1. -/
  holdover : Bool := true
  /-- bits [7:1] of TMU_STATUS in their places, bit 0 clear; 12 R353; reset 0. -/
  status : BitVec 8 := 0
  /-- 8 bits; 12 R353 TMU_WDOG.timeout_s; reset 16. -/
  timeoutS : BitVec 8 := 16
  /-- oscillator ticks at the last restart of the watchdog; 12 R356; reset 0. -/
  wdogStart : Nat := 0
  /-- 1 bit: the watchdog has expired and not been restarted; 12 R356; reset 0. -/
  wdogDone : Bool := false
  /-- 1 bit: an addend write has been accepted since the reset of the block; 02 SYS_COMMIT_CONFIG, 12 R356; reset 0. -/
  addendWritten : Bool := false
  /-- oscillator ticks when holdover was entered; 12 R377 0x7002; reset 0. -/
  holdoverSince : Nat := 0
  /-- 32 bits; 12 R353 TMU_FRAC latch; reset 0. -/
  latFrac : Word := 0
  /-- 32 bits; 12 R353 TMU_SNAP latch; reset 0. -/
  latSec : Word := 0
  /-- 16 bits; 12 R353 TMU_ERA latch; reset 0. -/
  latEra : BitVec 16 := 0
  /-- 32 bits; 12 R353 TMU_PPS_TS; reset 0. -/
  ppsTs : Word := 0
  /-- 32 bits; 12 R353 TMU_PPS_FRAC; reset 0. -/
  ppsFrac : Word := 0
  /-- 16 bits; 12 R353 TMU_PPS_ERA; reset 0. -/
  ppsEra : BitVec 16 := 0
  /-- 7 bits, TMU_IRQ_EN bits [7:1]; 12 R353; reset 0x7D. -/
  irqEn : BitVec 7 := 0x7D
  /-- 48 bits, on the extended counter; 12 R368 next_edge; reset 1,000,000,000. -/
  nextEdge : BitVec 48 := 1000000000
  /-- 32 bits; 12 R368 sec; reset 0. -/
  sec : Word := 0
  /-- 1 bit: a boundary loaded by set_edge has not been reached; 12 PPS_CONFIG; reset 0. -/
  edgeLoaded : Bool := false
  /-- 1 bit; 12 PPS_CONFIG in_en; reset DESIGN CHOICE 0 (log 3). -/
  inEn : Bool := false
  /-- 1 bit; 12 PPS_CONFIG in_fall; reset DESIGN CHOICE 0 (log 3). -/
  inFall : Bool := false
  /-- 1 bit; 12 PPS_CONFIG out_en; reset DESIGN CHOICE 0 (log 3). -/
  outEn : Bool := false
  /-- 16 bits signed; 12 PPS_CONFIG in_delay_ns; reset DESIGN CHOICE 0 (log 3). -/
  inDelay : BitVec 16 := 0
  /-- 16 bits signed; 12 PPS_CONFIG out_delay_ns; reset DESIGN CHOICE 0 (log 3). -/
  outDelay : BitVec 16 := 0
  /-- µs; 12 PPS_CONFIG width_us, 0 meaning 100,000; reset DESIGN CHOICE 100,000 (log 3). -/
  widthUs : Nat := 100000
  /-- oscillator ticks of the last capture, if any; 12 R367; reset none. -/
  lastCapture : Option Nat := none
  /-- oscillator ticks when the input was enabled; 12 R367; reset 0. -/
  enabledAt : Nat := 0
  /-- 1 bit: the loss of the present gap has been reported; 12 R367; reset 0. -/
  lostTold : Bool := false
  /-- 1 bit; 12 R369 level of PPS OUT; reset 0. -/
  ppsOut : Bool := false
  /-- oscillator ticks when PPS OUT rose; 12 R369; reset 0. -/
  ppsRose : Nat := 0
  /-- 48 bits: the boundary whose pulse PPS OUT gave last, if any; 12 R369; reset none. -/
  ppsGiven : Option (BitVec 48) := none
deriving DecidableEq, Repr

/-- The state of a schedule entry (R370). -/
inductive EntState where
  | free | armed | firing | spent | disarmed
deriving DecidableEq, Repr

/-- One schedule entry (R370 to R376). -/
structure Entry where
  /-- 3 bits; 12 R370; reset Free. -/
  st : EntState := .free
  /-- 48 bits, the instant on the extended counter (era and ns); 12 R373, R376; reset 0. -/
  instant : BitVec 48 := 0
  /-- 16 bits; 12 R371; reset 0. -/
  seq : BitVec 16 := 0
  /-- 4 bits; 12 R372; reset 0. -/
  action : Nat := 0
  /-- 1 bit; 12 R376 notify; reset 0. -/
  notify : Bool := false
  /-- 1 bit; 12 R376 late; reset 0. -/
  late : Bool := false
  /-- 1 bit; 12 R376 failed; reset 0. -/
  failed : Bool := false
  /-- 16 bits; 12 R376 arg; reset 0. -/
  arg : Nat := 0
  /-- 32 bits; 12 R376 tag; reset 0. -/
  tag : Word := 0
  /-- count of armings before this one, which orders entries of one instant; 12 R374; reset 0. -/
  order : Nat := 0
  /-- 1 bit: a positive step passed the instant; 12 R359; reset 0. -/
  passed : Bool := false
  /-- 1 bit: the lanes it touches have been quiesced; 08 R288; reset 0. -/
  quiesced : Bool := false
deriving DecidableEq, Repr

/-- The schedule (R370 to R376). -/
structure Sched where
  /-- 1,024 entries by index; 12 R370; reset all Free (R375). -/
  entries : Tbl Entry := []
  /-- 16 bits: the next sequence number; 12 R371; reset 1. -/
  nextSeq : BitVec 16 := 1
  /-- count of armings; 12 R374; reset 0. -/
  armCount : Nat := 0
  /-- the fired list, oldest first, at most 64; 12 SCHED_QUERY; reset empty. -/
  fired : List (BitVec 16) := []
  /-- 1 bit; 12 SCHED_QUERY overflow; reset 0. -/
  overflow : Bool := false
deriving DecidableEq, Repr

/-- One timing-port ring (R364). -/
structure Ring where
  /-- 32 bits; 12 R364 base low; reset 0. -/
  baseLo : Word := 0
  /-- 32 bits; 12 R364 base high; reset 0. -/
  baseHi : Word := 0
  /-- 13 bits; 12 R364 entries; reset 0. -/
  size : Nat := 0
  /-- 12 bits; 12 R364 tail; reset 0. -/
  tail : Nat := 0
  /-- 12 bits; 12 R364 head; reset 0. -/
  head : Nat := 0
deriving DecidableEq, Repr

/-- `TPM_` block and the timing port (R363 to R366). -/
structure Tpm where
  /-- 12 R364 receive ring; reset as Ring. -/
  rx : Ring := {}
  /-- 12 R364 transmit ring; reset as Ring. -/
  tx : Ring := {}
  /-- 16 bits; 12 R364 TPM_DROP.no_desc; reset 0. -/
  noDesc : BitVec 16 := 0
  /-- 16 bits; 12 R364 TPM_DROP.bad; reset 0. -/
  bad : BitVec 16 := 0
  /-- 2 bits; 12 TIME_PORT_CONFIG speed; reset DESIGN CHOICE 0, port off (log 3). -/
  speed : Nat := 0
  /-- 1 bit; 12 TIME_PORT_CONFIG autoneg; reset DESIGN CHOICE 0 (log 3). -/
  autoneg : Bool := false
  /-- 1 bit; 12 TIME_PORT_CONFIG ptp_mcast; reset DESIGN CHOICE 0 (log 3). -/
  ptpMcast : Bool := false
  /-- 1 bit; 12 TIME_PORT_CONFIG all_mcast; reset DESIGN CHOICE 0 (log 3). -/
  allMcast : Bool := false
  /-- 1 bit; 12 TIME_PORT_CONFIG promisc; reset DESIGN CHOICE 0 (log 3). -/
  promisc : Bool := false
  /-- 48 bits, byte 0 in the top bits; 12 TIME_PORT_CONFIG mac; reset DESIGN CHOICE 0 (log 3). -/
  mac : BitVec 48 := 0
  /-- 1 bit; 12 R377 link up; reset 0. -/
  linkUp : Bool := false
  /-- 1 bit: a transceiver is in the cage; 18 R469; reset DESIGN CHOICE 1 (log 74). -/
  cage : Bool := true
deriving DecidableEq, Repr

/-- A write that waits in a check-value unit (R417). -/
structure CvuWrite where
  /-- 8 bits; 15 R414 the register's offset in the unit; reset none. -/
  off : Nat
  /-- 32 bits; 15 R417 the value; reset none. -/
  value : Word
deriving DecidableEq, Repr

/-- One check-value unit (R414). -/
structure Cvu where
  /-- 6 bits; 15 R414 width; reset 32. -/
  width : Nat := 32
  /-- 1 bit; 15 R414 refin; reset 1. -/
  refin : Bool := true
  /-- 1 bit; 15 R414 refout; reset 1. -/
  refout : Bool := true
  /-- 3 bits; 15 R414 prefix_words; reset 0. -/
  prefixWords : Nat := 0
  /-- 1 bit; 15 R414 irq_en; reset 0. -/
  irqEn : Bool := false
  /-- 32 bits; 15 R414 poly; reset 0x1EDC_6F41. -/
  poly : Word := 0x1EDC6F41
  /-- 32 bits; 15 R414 init; reset 0xFFFF_FFFF. -/
  init : Word := 0xFFFFFFFF
  /-- 32 bits; 15 R414 xorout; reset 0xFFFF_FFFF. -/
  xorout : Word := 0xFFFFFFFF
  /-- 32 bits; 15 R414 state; reset 0. -/
  state : Word := 0
  /-- 32 bits; 15 R414 expect; reset 0. -/
  expect : Word := 0
  /-- 1 bit; 15 R414 match; reset 0. -/
  matched : Bool := false
  /-- 1 bit; 15 R414 mismatch; reset 0. -/
  mismatch : Bool := false
  /-- 1 bit; 15 R414 overrun; reset 0. -/
  overrun : Bool := false
  /-- 1 bit; 15 R414 cfg_err; reset 0. -/
  cfgErr : Bool := false
  /-- 1 bit; 15 R414 checked; reset 0. -/
  checked : Bool := false
  /-- 32 bits; 15 R414 CVUn_COUNT; reset 0. -/
  count : Word := 0
  /-- four words by number; 15 R414 CVUn_PREFIX; reset 0. -/
  pfx : Tbl Word := []
  /-- 32 bits; 15 R414 CVUn_RESULT; reset 0. -/
  result : Word := 0
  /-- the writes that wait, 16 at most, oldest first; 15 R417; reset empty. -/
  queue : List CvuWrite := []
  /-- tenths of a mesh cycle already spent on the oldest; 15 R416; reset 0. -/
  spent : Nat := 0
deriving DecidableEq, Repr

/-- The state of an arbiter (R278 to R280). -/
structure Arb where
  /-- virtual time by class; 08 R278 vt; reset 0. -/
  vt : Tbl Nat := []
  /-- passed counts by requester; 08 R278, R279; reset 0. -/
  passed : Tbl Nat := []
  /-- the tick when a requester's head request became eligible, while it is; 08 R278 age; reset none. -/
  heads : Tbl (Option Nat) := []
  /-- classes eligible in the last cycle looked at; 08 R278; reset none. -/
  elig : List Nat := []
  /-- rotating pointer over classes, none while it stands at its start; 08 R280; reset at its start. -/
  clsPtr : Option Nat := none
  /-- rotating pointer over requesters, none while it stands at its start; 08 R280; reset at its start. -/
  reqPtr : Option Nat := none
deriving DecidableEq, Repr

end Sys2Proof.Machine
end

