-- ==== Sys2Proof/Machine/PartsMgmt.lean ====
section
/-! DEFINITION. The pieces of State of the security, recorder and management domains: the recorder and
its flash, power and resets, firmware and identity, monitors and calibration, resilience. -/

namespace Sys2Proof.Machine

/-- A record (R393, R394): header fields and body words. Its length in bytes is 16 + 4 × body words. -/
structure Record where
  /-- 16 bits; 14 R393 code; reset 0. -/
  code : BitVec 16 := 0
  /-- 3 bits, 0 to 4; 14 R393 severity; reset 0. -/
  sev : Nat := 0
  /-- 1 bit; 14 R393 pf; reset 0. -/
  pf : Bool := false
  /-- 1 bit; 14 R393 tail; reset 0. -/
  tail : Bool := false
  /-- 1 bit; 14 R393 boot; reset 0. -/
  boot : Bool := false
  /-- 24 bits; 14 R393 pcycle; reset 0. -/
  pcycle : BitVec 24 := 0
  /-- 32 bits; 14 R393 opsec; reset 0. -/
  opsec : Word := 0
  /-- 32 bits; 14 R393 seq; reset 0. -/
  seq : Word := 0
  /-- body words, 0 to 252; 14 R394; reset none. -/
  body : List Word := []
deriving DecidableEq, Repr

/-- A written chunk of the log area (R398). -/
structure Chunk where
  /-- the records of the chunk; 14 R398; reset none. -/
  recs : List Record := []
  /-- 1 bit: the chunk failed to program or its CRC fails; 14 R400, R407; reset 0. -/
  bad : Bool := false
  /-- 16 bits; 14 R398 format version; reset 2. -/
  version : Nat := 2
deriving DecidableEq, Repr

/-- The state of one rate limit (the Rate columns of the event tables). -/
structure Limited where
  /-- oscillator tick of the last event raised under this limit, if any; 17 R460; reset none. -/
  last : Option Nat := none
  /-- count of changes not yet carried in an event; 17 R460; reset 0. -/
  owed : Nat := 0
deriving DecidableEq, Repr

/-- The recorder, its buffer, the log area and its flash operation (R393 to R412). -/
structure Rec where
  /-- records waiting, oldest first, at most 262,144 bytes; 14 R401; reset empty. -/
  buf : List Record := []
  /-- 19 bits; 14 R412 LOG_FILL_PEAK; reset 0. -/
  peak : Nat := 0
  /-- 19 bits; 14 R412 LOG_THRESH.level; reset 0x20000. -/
  thresh : Nat := 0x20000
  /-- 1 bit; 14 R412 LOG_STATUS.thresh; reset 0. -/
  threshBit : Bool := false
  /-- 1 bit; 14 R412 LOG_STATUS.freeze_done; reset 0. -/
  freezeDone : Bool := false
  /-- 1 bit; 14 R408, R412 LOG_STATUS.media_fail; reset 0. -/
  mediaFail : Bool := false
  /-- 1 bit; 14 R407, R412 LOG_STATUS.tail_active; reset 0. -/
  tailActive : Bool := false
  /-- 1 bit: the present freeze has reached its freeze_seq; 14 R406; reset 0. -/
  freezeTold : Bool := false
  /-- freeze_seq while frozen; 14 R406, R412 LOG_STATUS.frozen; reset not frozen. -/
  frozen : Option Word := none
  /-- oscillator tick when the freeze's timeout (re)started; 14 R406; reset 0. -/
  freezeStart : Nat := 0
  /-- seconds of the freeze's timeout; 14 LOG_FREEZE timeout_s; reset 30. -/
  freezeSecs : Nat := 30
  /-- 1 bit: input power has failed and the flush has begun; 14 R409; reset 0. -/
  pf : Bool := false
  /-- 1 bit; 14 R412 LOG_STATUS.flushing; reset 0. -/
  flushing : Bool := false
  /-- bytes of fill at the power-fail signal; 14 R409; reset 0. -/
  flushFill : Nat := 0
  /-- 32 bits; 14 R412 LOG_SEQ_NEW; reset DESIGN CHOICE 0 ("Stored": an empty log, log 3). -/
  seqNew : Word := 0
  /-- 32 bits; 14 R412 LOG_SEQ_FLASH; reset DESIGN CHOICE 0 ("Stored", log 3). -/
  seqFlash : Word := 0
  /-- 16-bit counts by code, at most 246 codes, in the order first counted; 14 R403; reset none. -/
  counts : List (BitVec 16 × Nat) := []
  /-- 32 bits; 14 R403 total; reset 0. -/
  total : Nat := 0
  /-- 32 bits; 14 R403 first_opsec; reset 0. -/
  firstOpsec : Word := 0
  /-- 32 bits; 14 R403 last_opsec; reset 0. -/
  lastOpsec : Word := 0
  /-- 1 bit; 14 R403 more; reset 0. -/
  more : Bool := false
  /-- 32 bits; 14 R412 LOG_LOST; reset 0. -/
  lost : Nat := 0
  /-- at most 64 records, oldest first; 14 R404 last-gasp ring; reset empty. -/
  lastgasp : List Record := []
  /-- 32 bits; 14 LOG_FILTER filter word; reset 0. -/
  filter : Word := 0
  /-- written chunks by number 16 × sector + chunk; 14 R397, R398 log area; reset DESIGN CHOICE all erased (log 3). -/
  flash : Tbl (Option Chunk) := []
  /-- next chunk of the Heel main area, 0 to 896; 14 R399; reset DESIGN CHOICE 0 (log 3). -/
  heelNext : Nat := 0
  /-- next chunk of the reserved tail, 896 to 1,024; 14 R407; reset 896. -/
  tailNext : Nat := 896
  /-- next chunk of the Toe, 1,024 to 8,191; 14 R399; reset DESIGN CHOICE 1,024 (log 3). -/
  toeNext : Nat := 1024
  /-- sectors half-erased; 14 R400, R409; reset none. -/
  halfErased : List Nat := []
  /-- the sector being erased; 14 R399; reset none. -/
  erasing : Option Nat := none
  /-- a sector whose erase waits for the flash; 14 R399; reset none. -/
  eraseDue : Option Nat := none
  /-- the log chunk being programmed: its number and its records; 14 R401; reset none. -/
  inFlight : Option (Nat × List Record) := none
  /-- 16 bits: the format version of the log chunk being programmed; 14 R398, R411; reset 2. -/
  flightVersion : Nat := 2
  /-- chunk writes failed in a row; 14 R407; reset 0. -/
  failsInRow : Nat := 0
  /-- sectors retired, which the recorder skips from then on; 14 R407; reset none. -/
  retired : List Nat := []
  /-- how many sectors have been retired since power-up; 14 R407; reset 0. -/
  retiredNow : Nat := 0
  /-- 1 bit: the power-up scan has ended; 14 R400; reset 0. -/
  scanDone : Bool := false
  /-- rate limits by key; the Rate columns, 17 R460; reset none. -/
  rates : Tbl Limited := []
deriving DecidableEq, Repr

/-- The reset that is due or that the block is in (R454). -/
inductive ResetKind where
  | powerOn | module | activation | hostLink
deriving DecidableEq, Repr

/-- The power domain, its alarms and pins (R446 to R460). -/
structure Power where
  /-- 1 bit: the management and recorder domains are up; 17 R448, R457; reset 1. -/
  on : Bool := true
  /-- 1 bit: the hold-up store is charged; 17 R447; reset 0. -/
  charged : Bool := false
  /-- 1 bit: a power fail is in progress; 17 R447, R457; reset 0. -/
  failing : Bool := false
  /-- 1 bit: MOD_RESET_N holds the module in reset; 17 R454, 18 R465; reset 0. -/
  held : Bool := false
  /-- the power loop's last sample; 17 R451, SYS_POWER_STATUS; reset 0 (no sample yet). -/
  sample : PowerReading := ⟨0, 0, 0, 0, 0⟩
  /-- Q16.16 °C: the hottest of sensors 0–63 in that sample; 17 R451; reset 0. -/
  tdie : Q := 0
  /-- 16 bits, MHz; 17 R451 ECLK; reset 2,200. -/
  eclk : Nat := 2200
  /-- 32 bits; 17 SYS_POWER_STATUS steps_down; reset 0. -/
  stepsDown : Word := 0
  /-- oscillator tick since which all three readings stayed below 95 %; 17 R451; reset none. -/
  calmSince : Option Nat := none
  /-- oscillator tick since which die power is over 1,100 W at the floor; 17 R453; reset none. -/
  pdieOver : Option Nat := none
  /-- oscillator tick since which input current is over 40 A at the floor; 17 R453; reset none. -/
  iinOver : Option Nat := none
  /-- oscillator ticks since which die sensors are at 110 °C or above, by sensor; 17 R453; reset none. -/
  dieOver : Tbl (Option Nat) := []
  /-- 1 bit: die power has tripped since it came over its limit; 17 R453; reset 0. -/
  pdieTold : Bool := false
  /-- 1 bit: input current has tripped since it came over its limit; 17 R453; reset 0. -/
  iinTold : Bool := false
  /-- 1 bit: the die temperature has tripped since a sensor came to 110 °C; 17 R453; reset 0. -/
  dieTold : Bool := false
  /-- 1 bit; 17 SYS_POWER_STATUS under; reset 0. -/
  under : Bool := false
  /-- 1 bit; 17 SYS_POWER_STATUS over; reset 0. -/
  overV : Bool := false
  /-- 1 bit; 17 SYS_POWER_STATUS i_limit; reset 0. -/
  iLimit : Bool := false
  /-- 1 bit; 17 R450 holdup_fault; reset 0. -/
  holdupFault : Bool := false
  /-- 1 bit; 17 SYS_POWER_STATUS conv_hot; reset 0. -/
  convHot : Bool := false
  /-- 1 bit; 17 SYS_POWER_STATUS t_limit; reset 0. -/
  tLimit : Bool := false
  /-- the resets that SYS_RESET asked for, each with the oscillator tick of its done bit, oldest first; 17 R454; reset none. -/
  resetDue : List (ResetKind × Nat) := []
  /-- the kind of the last reset that began a start-up; 17 R460 0x1009; reset power-on. -/
  resetKind : ResetKind := .powerOn
  /-- oscillator tick at the start of that reset; 17 R460 0x1009; reset 0. -/
  resetAt : Nat := 0
  /-- oscillator tick of the last check of the hold-up store; 17 R450; reset none. -/
  checkedAt : Option Nat := none
deriving DecidableEq, Repr

/-- An image as it lies in flash: header, tag table and ciphertext blocks (R423). -/
structure Image where
  /-- 4,096 bytes; 16 R424 header; reset empty. -/
  header : List Byte := []
  /-- 16-byte tags by block number; 16 R423; reset none. -/
  tags : Tbl (List Byte) := []
  /-- 65,536-byte ciphertext by block number; 16 R423; reset none. -/
  blocks : Tbl (List Byte) := []
deriving DecidableEq, Repr

/-- Boot control (R432). -/
inductive BootControl where
  | normal | copy | trial | dead
deriving DecidableEq, Repr

/-- The staging state (R428). -/
inductive Staging where
  | empty | receiving | verifying | verified | armed | failed
deriving DecidableEq, Repr

/-- States of a TAP controller (IEEE 1149.1, which R465 names and does not describe: PRESUMED, log 76). -/
inductive Tap where
  | testLogicReset | runTestIdle | selectDr | captureDr | shiftDr | exit1Dr | pauseDr | exit2Dr | updateDr
  | selectIr | captureIr | shiftIr | exit1Ir | pauseIr | exit2Ir | updateIr
deriving DecidableEq, Repr

/-- A service-port session (R438 to R441). -/
structure Session where
  /-- 8 bits; 16 R440 rights; reset no session. -/
  rights : Byte
  /-- 64 bits; 16 R440 token_id; reset no session. -/
  tokenId : DWord
  /-- oscillator tick of the last message; 16 R438; reset no session. -/
  lastMsg : Nat
deriving DecidableEq, Repr

/-- Firmware update, identity, the service port and the test unlock (R422 to R445). -/
structure Fw where
  /-- 3 bits; 16 R428 staging state; reset Empty. -/
  staging : Staging := .empty
  /-- 1 bit; 16 FW_STATUS agent, 1 the service port; reset 0. -/
  bySvc : Bool := false
  /-- the staging area; 16 R422, R423; reset DESIGN CHOICE empty (log 3). -/
  staged : Image := {}
  /-- blocks stored in the present delivery; 16 FW_STATUS received; reset none. -/
  stored : List Nat := []
  /-- 8 bits; 16 FW_STATUS reason; reset 0. -/
  reason : Nat := 0
  /-- 9 bits; 16 FW_STATUS fail_block; reset 0. -/
  failBlock : Nat := 0
  /-- schedule index of the armed activation; 16 FW_STATUS seq and t_ns; reset none. -/
  armedEntry : Option Nat := none
  /-- oscillator tick when an activation fired whose restart is still to come; 16 R432; reset none. -/
  restartAt : Option Nat := none
  /-- the firmware area; 16 R422; reset DESIGN CHOICE empty (log 3). -/
  area : Image := {}
  /-- boot control; 16 R432; reset DESIGN CHOICE Normal (log 3). -/
  boot : BootControl := .normal
  /-- the GLB_OPSEC value in boot control; 17 R457; reset DESIGN CHOICE 0 (log 3). -/
  opsecSaved : Word := 0
  /-- oscillator tick when the Trial timer started; 16 R434; reset not running. -/
  trialStart : Option Nat := none
  /-- 1 bit: this start passed through Migrate; 16 R445 0x9006; reset 0. -/
  migrated : Bool := false
  /-- 1 bit: the image found stored records of older versions when it started; 16 R437; reset 0. -/
  migrateDue : Bool := false
  /-- 1 bit: the migration of this start is complete; 02 R51, 11 R349; reset 0. -/
  converted : Bool := false
  /-- 16 bits: version of the stored calibration records; 16 R429; reset DESIGN CHOICE 3, the version of R347 (log 3). -/
  calVersion : Nat := 3
  /-- 16 bits: version of the stored log chunks; 16 R429; reset DESIGN CHOICE 2, the version of R398 (log 3). -/
  logVersion : Nat := 2
  /-- two token key slots of 1,952 bytes; 16 SVC_TOKEN_KEY; reset empty. -/
  keys : Tbl (Option (List Byte)) := []
  /-- the service-port session; 16 R438; reset none. -/
  session : Option Session := none
  /-- 1 bit: the service port has a link; 18 R470; reset DESIGN CHOICE 0, until a message comes (log 75). -/
  svcLink : Bool := false
  /-- oscillator tick of the last message on the service port; 18 R470; reset none. -/
  svcAt : Option Nat := none
  /-- state of the boundary-scan TAP controller; 18 R465; reset Test-Logic-Reset. -/
  tap : Tap := .testLogicReset
  /-- 1 bit; 16 R444 test-unlocked flag; reset 0. -/
  unlocked : Bool := false
  /-- the challenge nonce, 64 bytes, and the oscillator tick of its issue; 16 R444; reset none. -/
  nonce : Option (List Byte × Nat) := none
deriving DecidableEq, Repr

end Sys2Proof.Machine
end

