-- ==== Sys2Proof/Machine/PartsTile.lean ====
section
/-! DEFINITION. The pieces of State of the compute domain: jobs, tiles, the Stitch unit, memory and
placement. -/

namespace Sys2Proof.Machine

/-- Job status (R144). -/
inductive JobStatus where
  | free | defined | armed | running | done | stopped | faulted
deriving DecidableEq, Repr

/-- A loaded Pattern (JOB_LOAD_PATTERN). -/
structure Pattern where
  /-- 18 bits; 04 JOB_LOAD_PATTERN first_role; reset none. -/
  first : Nat := 0
  /-- 18 bits; 04 JOB_LOAD_PATTERN last_role; reset none. -/
  last : Nat := 0
  /-- 1 to 262,144; 04 R132 G; reset none. -/
  group : Nat := 1
  /-- 1 to 4,096 steps of 256 bits; 04 R122; reset none. -/
  steps : List (BitVec 256) := []
  /-- 04 JOB_LOAD_PATTERN preload; reset none. -/
  preload : List Byte := []
  /-- 23 bits; 04 JOB_LOAD_PATTERN preload_off; reset none. -/
  preOff : Nat := 0
deriving DecidableEq, Repr

/-- The fault that a job records (R143). -/
structure JobFault where
  /-- 8 bits; 04 R141 code; reset none. -/
  code : Nat := 0
  /-- 6 bits; 04 R143 tile; reset none. -/
  tile : Nat := 0
  /-- 12 bits; 04 R143 step index; reset none. -/
  step : Nat := 0
  /-- 18 bits; 04 R143 role; reset none. -/
  role : Nat := 0
deriving DecidableEq, Repr

/-- Where the host pinned a region (REGION_PIN). -/
inductive Pin where
  | none
  | inRole (role off : Nat)
  | mrdimm (addr : Nat)
  | storage (tile off : Nat)
deriving DecidableEq, Repr

/-- A declared region of a job (REGION_DECLARE). -/
structure Region where
  /-- 40 bits, bytes; 07 REGION_DECLARE size; reset none. -/
  size : Nat := 0
  /-- 2 bits; 07 REGION_DECLARE kind; reset none. -/
  kind : Nat := 0
  /-- 3 bits; 07 REGION_DECLARE view; reset none. -/
  view : Nat := 0
  /-- 1 bit; 07 REGION_DECLARE movable; reset none. -/
  movable : Bool := false
  /-- 16 bits; 07 REGION_DECLARE home; reset none. -/
  home : Nat := 0
  /-- 07 REGION_PIN; reset none. -/
  pin : Pin := .none
  /-- the imported physical global address; 07 REGION_PIN mode 2; reset none. -/
  imported : Option Nat := none
  /-- the physical global address of byte 0 of the local place that holds the region, once placed; 07 R241, REGION_QUERY placed; reset none. -/
  base : Option Nat := none
deriving DecidableEq, Repr

/-- A role of a job (ROLE_DECLARE, ROLE_PIN and the role table of 07). -/
structure RoleEnt where
  /-- 6 bits: pinned or imported tile; 07 ROLE_PIN; reset none. -/
  pin : Option Nat := none
  /-- 6 bits: the tile that PLACE_JOB bound; 07 R237; reset none. -/
  bound : Option Nat := none
deriving DecidableEq, Repr

/-- One job (R144). -/
structure Job where
  /-- 3 bits; 04 R144; reset Free. -/
  status : JobStatus := .free
  /-- 1 to 262,144; 04 JOB_DEFINE n_roles; reset 0. -/
  nRoles : Nat := 0
  /-- 32 bits; 04 JOB_DEFINE seed; reset 0. -/
  seed : Word := 0
  /-- 32 bits; 04 JOB_DEFINE job_tag; reset 0. -/
  tag : Word := 0
  /-- Patterns by number, 0 to 63; 04 JOB_LOAD_PATTERN; reset none. -/
  patterns : Tbl (Option Pattern) := []
  /-- 1 bit: the last PLACE_JOB returned OK and no declaration has followed; 07 R244; reset 0. -/
  placed : Bool := false
  /-- module IDs of the job's list; 07 PLACE_JOB list_buf; reset none. -/
  modules : List Nat := []
  /-- 32 bits; 04 JOB_STATUS start_ns; reset 0. -/
  startNs : Word := 0
  /-- the recorded fault of this run; 04 R143; reset none. -/
  fault : Option JobFault := none
  /-- 16 bits; 04 JOB_STATUS exit_code; reset 0. -/
  exitCode : Nat := 0
  /-- schedule index of the start entry while Armed; 04 JOB_START; reset none. -/
  entry : Option Nat := none
  /-- 1 bit: the start entry is Firing, so the job is being prepared; 04 JOB_STOP BUSY, R150; reset 0. -/
  firing : Bool := false
  /-- roles still running when a JOB_STOP began that has not ended yet; 04 R151; reset none. -/
  stopping : Option Nat := none
  /-- thousandths of an ECLK cycle that the roles have run since start; 04 JOB_STATUS wait_frac; reset 0. -/
  cycles : Nat := 0
  /-- of those, in WAIT; 04 JOB_STATUS wait_frac; reset 0. -/
  waitCycles : Nat := 0
  /-- of those, with an incomplete operation to MRDIMM; 04 JOB_STATUS mem_frac; reset 0. -/
  memCycles : Nat := 0
  /-- declared regions by number; 07 REGION_DECLARE; reset none. -/
  regions : Tbl (Option Region) := []
  /-- declared ranges of roles: first, last, home; the newest first; 07 ROLE_DECLARE; reset none. -/
  homes : List (Nat × Nat × Nat) := []
  /-- pins, imports and bindings by role; 07 ROLE_PIN, R237; reset none. -/
  roles : Tbl RoleEnt := []
  /-- first entry of the directory and its length; 07 R245; reset none. -/
  dirBase : Nat := 0
  /-- entries of the directory; 07 R245; reset 0. -/
  dirLen : Nat := 0
deriving DecidableEq, Repr

/-- Whether a tile's Pattern runs (R144 to R147). -/
inductive Run where
  | idle | running | ended
deriving DecidableEq, Repr

/-- What holds a running sequencer (R114 to R116, R134 to R140). -/
inductive Hold where
  | none
  | matrix
  | vector
  | entry
  | wait (tally : Nat) (target : Word) (consume : Bool) (timeoutUs : Nat) (sinceNs : BitVec 48)
  | time (target : Word)
  | fence (bits : Nat) (flagLine : Nat)
  | ending (exitCode : Nat)
deriving DecidableEq, Repr

/-- A MATRIX or VECTOR step that occupies its unit (R115). -/
structure UnitOp where
  /-- 12 bits: its step index; 04 R114; reset idle. -/
  step : Nat := 0
  /-- tile SRAM ranges that it writes, offset and length; 04 R117, R151; reset idle. -/
  outs : List (Nat × Nat) := []
  /-- tile SRAM ranges that it reads, offset and length; 04 R117; reset idle. -/
  ins : List (Nat × Nat) := []
  /-- accumulator entries, or words of the vector registers, that it writes: first and count; 04 R117; reset idle. -/
  words : Nat × Nat := (0, 0)
  /-- 1 bit: it reads TERN data; 03 R104; reset idle. -/
  tern : Bool := false
  /-- 1 bit; 04 R122 detach; reset idle. -/
  detach : Bool := false
  /-- the done tally when done_en is set; 04 R122; reset idle. -/
  done : Option Nat := Option.none
deriving DecidableEq, Repr

/-- A Stitch descriptor (R172). -/
structure Desc where
  /-- 6 bits; 05 R172 op; reset 0. -/
  op : Nat := 0
  /-- 1 bit; 05 R172 form: a physical global address; reset 0. -/
  phys : Bool := false
  /-- cmpl_tally when cmpl_en is set; 05 R172; reset none. -/
  cmpl : Option Nat := Option.none
  /-- 6 bits; 05 R172 signal_tally; reset 0. -/
  sigTally : Nat := 0
  /-- 2 bits; 05 R172 class; reset 0. -/
  cls : Nat := 0
  /-- 2 bits; 05 R172 source; reset 0. -/
  source : Nat := 0
  /-- 6 bits; 05 R172 tile; reset 0. -/
  tile : Nat := 0
  /-- 4 bits; 05 R172 job; reset 0. -/
  job : Nat := 0
  /-- 18 bits; 05 R172 role; reset 0. -/
  role : Nat := 0
  /-- 1 to 65,536; 05 R172 len_minus1 + 1; reset 1. -/
  len : Nat := 1
  /-- 23 bits; 05 R172 local_off; reset 0. -/
  localOff : Nat := 0
  /-- 16 bits: region of the target; 05 R167, R172; reset 0. -/
  region : Nat := 0
  /-- offset in the region, exact, or the physical global address; 05 R133, R167, R172; reset 0. -/
  target : Int := 0
  /-- 64 bits; 05 R172 local_pa; reset 0. -/
  localPa : Nat := 0
  /-- 64 bits; 05 R172 operand_a; reset 0. -/
  opA : DWord := 0
  /-- 64 bits; 05 R172 operand_b; reset 0. -/
  opB : DWord := 0
  /-- the payload of a put of the mirror engine or Yarler, as it stands in the staging buffer; 13 R380, R386; reset none. -/
  data : List Byte := []
deriving DecidableEq, Repr

/-- One tile (R66, R114 to R121). -/
structure Tile where
  /-- the job that holds the tile, none when free: the tile's entry of the ownership map; 07 R249; reset none. -/
  job : Option Nat := Option.none
  /-- the role bound to the tile, none for a storage tile; 07 R237, R238; reset none. -/
  role : Option Nat := Option.none
  /-- 04 R144, R147; reset idle. -/
  run : Run := .idle
  /-- 12 bits; 04 R114 step index; reset 0. -/
  pc : Nat := 0
  /-- 04 R114; reset none. -/
  hold : Hold := .none
  /-- 64 tallies of 32 bits; 04 R118; reset 0. -/
  tallies : Tbl Word := []
  /-- four loop counters of 16 bits; 04 R121; reset 0. -/
  loops : Tbl Nat := []
  /-- 32 bits; 04 R135 previous TIMEWAIT target; reset 0. -/
  prevTarget : Word := 0
  /-- 32 bits; 03 R102 LFSR; reset DESIGN CHOICE 0 (log 5; loaded when a Pattern starts). -/
  lfsr : Word := 0
  /-- 1 bit; 03 R103 nan; reset 0. -/
  nan : Bool := false
  /-- 1 bit; 03 R103 ovf; reset 0. -/
  ovf : Bool := false
  /-- 1 bit; 03 R103 tern_inv; reset 0. -/
  ternInv : Bool := false
  /-- the step in the matrix unit; 04 R115; reset none. -/
  matrixOp : Option UnitOp := Option.none
  /-- the step in the vector unit; 04 R115; reset none. -/
  vectorOp : Option UnitOp := Option.none
  /-- 32-bit accumulator entries by 128 × m + n; 03 R66, R79; reset DESIGN CHOICE 0 (log 5). -/
  acc : Tbl Word := []
  /-- 32-bit vector register lanes by 256 × register + lane; 03 R66; reset DESIGN CHOICE 0 (log 5). -/
  vregs : Tbl Word := []
  /-- 16 bits; 04 R140 exit_code; reset 0. -/
  exitCode : Nat := 0
  /-- up to 4,096 steps; 04 R146 sequencer table; reset empty. -/
  prog : List (BitVec 256) := []
  /-- 04 R132 group size of the loaded Pattern; reset 1. -/
  group : Nat := 1
  /-- events raised once per run: bits 0 to 4 stand for 0x3001, 0x3002, 0x3003, 0x3014, 0x4083; 03 R104, 04 R137, 05 R198; reset 0. -/
  told : BitVec 5 := 0
deriving DecidableEq, Repr

/-- The condition of a stitch-table entry (R181, R187, R191). -/
inductive EntryCond where
  | free | held | waiting | quarantine
deriving DecidableEq, Repr

/-- One stitch-table entry (R172, R184 to R190). -/
structure SEntry where
  /-- 05 R184, R187; reset free. -/
  cond : EntryCond := .free
  /-- 4 bits; 05 R188 generation; reset 0. -/
  gen : Nat := 0
  /-- 05 R172; reset empty. -/
  desc : Desc := {}
  /-- 0 to 65; 05 R155 initiator index; reset 0. -/
  owner : Nat := 0
  /-- 32 bits; 05 R172 issued_ns; reset 0. -/
  issuedNs : Word := 0
  /-- count of operations issued before this one; 05 R181 issue order; reset 0. -/
  order : Nat := 0
  /-- 12 bits: the step that issued it; 04 R143; reset 0. -/
  step : Nat := 0
  /-- 1 bit; 05 R172 eyelet; reset 0. -/
  eyelet : Bool := false
  /-- parts sent, 0 to 15 the data segments and 16 the signal: the tick of sending and whether the path has an eyelet; 05 R189; reset none. -/
  sent : Tbl (Option (Nat × Bool)) := []
  /-- the two timeouts in ticks when the operation was issued: over the torus, through an eyelet; 05 R189, 08 R289; reset 0. -/
  limits : Nat × Nat := (0, 0)
  /-- parts completed; 05 R172 seg_done; reset none. -/
  done : List Nat := []
  /-- 8 bits; 05 R172 error; reset 0. -/
  error : Nat := 0
  /-- 1 bit: the target memory of a segment sent is MRDIMM; 04 JOB_STATUS mem_frac; reset 0. -/
  toDram : Bool := false
  /-- 1 bit: the initiating role has stopped; 04 R151; reset 0. -/
  orphan : Bool := false
  /-- 32 bits: job_tag of the run that issued it; 05 R198 0x4083; reset 0. -/
  jobTag : Word := 0
  /-- 16 bits: module that the operation names as it is issued; 05 R198 0x4083; reset 0. -/
  module : Nat := 0
  /-- the run that issued it has ended, and whether its tile had raised 0x4083 in it; 05 R198; reset none. -/
  past : Option Bool := Option.none
  /-- quarantine: the tick when it began and its length in ticks; 05 R187; reset none. -/
  quarantine : Option (Nat × Nat) := Option.none
  /-- 8 bits: the reader that waits for the completion: 0 none, 1 the header of the store, 2 a mirror page, 3 a mirror seal, 4 a heartbeat, 5 the copy of a move, 6 an update or acknowledgement of a move, 7 a restore; 07 R250, 13 R384, R386, R390; reset 0. -/
  purpose : Nat := 0
deriving DecidableEq, Repr

/-- A request for a stitch-table entry that waits (R185). -/
structure Waiter where
  /-- 0 to 65; 05 R155, R185 initiator; reset none. -/
  who : Nat
  /-- tick when it began to wait; 05 R185; reset none. -/
  at0 : Nat
  /-- 05 R172; reset none. -/
  desc : Desc
  /-- 12 bits: the step that waits; 04 R143; reset none. -/
  step : Nat := 0
  /-- as SEntry.purpose; reset none. -/
  purpose : Nat := 0
deriving DecidableEq, Repr

/-- The Stitch unit (R184 to R199). -/
structure Stitch where
  /-- Yarler's memory in the management space: bytes that Management-class puts have written, by offset; 05 R168; reset none. -/
  yarler : Tbl (Option Byte) := []
  /-- 16,384 entries by number; 05 R184; reset free. -/
  table : Tbl SEntry := []
  /-- requests that wait for an entry, oldest first; 05 R185; reset empty. -/
  waitList : List Waiter := []
  /-- the arbiter of the shared pool; 05 R185; reset as Arb. -/
  pool : Arb := {}
  /-- count of operations issued; 05 R181; reset 0. -/
  issued : Nat := 0
  /-- 32-bit counts by kind: 0 late, 1 request checks, 2 response checks, 3 timeouts without and 4 with an eyelet, 16 + code refusals; 05 R199; reset 0. -/
  counts : Tbl Word := []
  /-- peak of shared entries held; 05 R199; reset 0. -/
  peak : Nat := 0
deriving DecidableEq, Repr

/-- A memory channel (R205 to R226). -/
structure Chan where
  /-- 1 bit: a DIMM trained; 06 R206; reset 0. -/
  trained : Bool := false
  /-- GiB by SPD; 06 R205; reset 0. -/
  spdGiB : Nat := 0
  /-- 1 bit: SPD read and training have ended; 06 R207; reset 0. -/
  tried : Bool := false
  /-- 1 bit; 06 R207 in service; reset 0. -/
  inService : Bool := false
  /-- 1 bit: the channel was in service and left it, or its DIMM failed to train; 06 R207, 02 R53; reset 0. -/
  out : Bool := false
  /-- 1 bit: refresh rate doubled; 06 R223; reset 0. -/
  hot85 : Bool := false
  /-- 1 bit: bandwidth halved; 06 R223; reset 0. -/
  hot95 : Bool := false
  /-- next scrub line of each subchannel; 06 R224, R226; reset 0. -/
  scrub : Nat := 0
  /-- the same of subchannel 1; 06 R224, R226; reset 0. -/
  scrub1 : Nat := 0
  /-- corrected and uncorrectable lines of the present pass; 06 R234 0x2007; reset 0. -/
  passCe : Nat := 0
  /-- 06 R234 0x2007; reset 0. -/
  passUe : Nat := 0
  /-- 1 bit: the scrub period is 6 hours; 06 R225; reset 0. -/
  fast : Bool := false
  /-- ticks of the corrected lines within the last hour, newest first; 06 R225; reset none. -/
  ceTimes : List Nat := []
  /-- tick when an hour last went over 1,024 corrected lines; 06 R225; reset 0. -/
  noisyAt : Nat := 0
  /-- marked symbol position of each rank; 06 R218; reset none. -/
  marks : Tbl (Option Nat) := []
  /-- corrected lines within 24 hours: rank, position, line, tick; 06 R218; reset none. -/
  ceLines : List (Nat × Nat × Nat × Nat) := []
  /-- parity repeats since the last event 0x2009; 06 R221; reset 0. -/
  parity : Nat := 0
  /-- 1 bit: the controller retrains the channel; 06 R221; reset 0. -/
  retraining : Bool := false
  /-- 1 bit: the channel has been retrained once; 06 R221; reset 0. -/
  retrained : Bool := false
  /-- ticks of parity errors after the retraining, within one second; 06 R221; reset none. -/
  parityTimes : List Nat := []
deriving DecidableEq, Repr

/-- Tile SRAM and MRDIMM (R202 to R229). -/
structure Mem where
  /-- bytes by tile × 2^23 + offset; 03 R69; reset DESIGN CHOICE 0 (log 5). -/
  sram : Tbl Byte := []
  /-- wrong bits, 1 or 2, of aligned 8-byte words by tile × 2^20 + offset / 8; 06 R202; reset 0. -/
  sramBad : Tbl Nat := []
  /-- bytes by channel × 2^38 + channel-local address; 06 R211; reset 0 (R208). -/
  dram : Tbl Byte := []
  /-- error pattern of lines by channel × 2^32 + line, sixteen beats; 06 R214 to R216; reset none. -/
  lineErr : Tbl (List (BitVec 40)) := []
  /-- lines for which the next read returns another line of the channel, by channel × 2^32 + line; 06 R215; reset none. -/
  astray : Tbl (Option Nat) := []
  /-- lines whose correction rewrite is queued, channel × 2^32 + line, with the corrected bytes; 06 R217; reset none. -/
  rewrites : List (Nat × List Byte) := []
  /-- tile SRAM words whose correction rewrite is queued, keyed as sramBad; 06 R203; reset none. -/
  sramRewrites : List Nat := []
  /-- twelve channels; 06 R207; reset as Chan. -/
  chans : Tbl Chan := []
  /-- dirty bits by channel × 2^22 + page, in the on-die cache or in the bitmap of the reserved area; 06 R227; reset 0. -/
  dirty : Tbl Bool := []
  /-- the pages whose bits the on-die cache holds, the latest first; 06 R227; reset none. -/
  recent : List Nat := []
deriving DecidableEq, Repr

/-- One Region Map entry (R246). -/
structure RmEntry where
  /-- 1 bit; 07 R246 valid; reset 0. -/
  valid : Bool := false
  /-- 2 bits; 07 R246 place; reset 0. -/
  place : Nat := 0
  /-- 2 bits; 07 R246 move_state; reset 0. -/
  move : Nat := 0
  /-- 1 bit; 07 R246 lost; reset 0. -/
  lost : Bool := false
  /-- 1 bit; 07 R246 remote; reset 0. -/
  remote : Bool := false
  /-- 1 bit; 07 R246 movable; reset 0. -/
  movable : Bool := false
  /-- 4 bits; 07 R246 job; reset 0. -/
  job : Nat := 0
  /-- 16 bits; 07 R246 region; reset 0. -/
  region : Nat := 0
  /-- 40 bits; 07 R246 size; reset 0. -/
  size : Nat := 0
  /-- 64 bits; 07 R246 base; reset 0. -/
  base : Nat := 0
  /-- 64 bits; 07 R246 new_base; reset 0. -/
  newBase : Nat := 0
  /-- 16 bits; 07 R246 map_gen; reset 0. -/
  gen : Nat := 0
deriving DecidableEq, Repr

/-- A move of a region (R250). -/
structure Move where
  /-- 4 bits; 07 R250; reset no move. -/
  job : Nat := 0
  /-- 16 bits; 07 R250; reset no move. -/
  region : Nat := 0
  /-- 1 bit: requested by REGION_MOVE; 07 R256 0x3022; reset no move. -/
  requested : Bool := true
  /-- 64 bits; 07 R250 old place; reset no move. -/
  oldBase : Nat := 0
  /-- 64 bits; 07 R250 new_base; reset no move. -/
  newBase : Nat := 0
  /-- 1 copy, 2 drain, 3 drained and copied again; 07 R250; reset no move. -/
  phase : Nat := 1
  /-- tick when the copy began; 07 R256 0x3023; reset no move. -/
  copyAt : Nat := 0
  /-- tick when the drain began; 07 R252; reset no move. -/
  drainAt : Nat := 0
  /-- modules that have not acknowledged the drain, this module's own among them; 07 R250; reset no move. -/
  waiting : List Nat := []
  /-- granules that the move tracker marked; 07 R250; reset no move. -/
  marked : List Nat := []
  /-- ranges of the region, offset and length, that no operation of the copy has been asked for; 07 R250; reset no move. -/
  todo : List (Nat × Nat) := []
deriving DecidableEq, Repr

/-- A flipped move whose old place is still owned (R250, R252). -/
structure Settle where
  /-- 4 bits; 07 R250; reset none. -/
  job : Nat := 0
  /-- 16 bits; 07 R250; reset none. -/
  region : Nat := 0
  /-- 64 bits: old place; 07 R250; reset none. -/
  oldBase : Nat := 0
  /-- bytes of the region; 07 R250; reset none. -/
  size : Nat := 0
  /-- tick of the flip; 07 R252; reset none. -/
  flipAt : Nat := 0
  /-- modules that have not acknowledged the flip; 07 R250; reset none. -/
  waiting : List Nat := []
  /-- tick of the last acknowledgement; 07 R250; reset none. -/
  lastAck : Nat := 0
  /-- modules for which 0x3026 has been raised; 07 R252; reset none. -/
  told : List Nat := []
deriving DecidableEq, Repr

/-- Pages of one channel held by a job: an item of the ownership map (R249). -/
structure Own where
  /-- 0 to 11; 07 R249 channel; reset none. -/
  chan : Nat
  /-- first page; 07 R249; reset none. -/
  lo : Nat
  /-- one past the last page; 07 R249; reset none. -/
  hi : Nat
  /-- 4 bits: the job that holds the pages; 07 R249; reset none. -/
  job : Nat
deriving DecidableEq, Repr

/-- Placement: Region Map, ownership map, ledger and moves (R235 to R255). -/
structure Place where
  /-- 65,536 entries by number; 07 R246; reset invalid. -/
  rmap : Tbl RmEntry := []
  /-- ownership of MRDIMM pages; 07 R249; reset none. -/
  owned : List Own := []
  /-- port and job_tag of the jobs in transit; 07 R242 transit ledger; reset empty. -/
  ledger : List (Nat × Word) := []
  /-- the move that runs; 07 R250; reset none. -/
  move : Option Move := Option.none
  /-- flipped moves whose old place is still owned; 07 R250; reset none. -/
  settling : List Settle := []
  /-- drain acknowledgements owed to other modules: home module, job_tag and region; 07 R250; reset none. -/
  owedAcks : List (Nat × Word × Nat) := []
deriving DecidableEq, Repr

end Sys2Proof.Machine
end

