-- ==== Sys2Proof/Machine/PartsFabric.lean ====
section
/-! DEFINITION. The pieces of State of the fabric: the plan, the route table, units, lanes and packets. -/

namespace Sys2Proof.Machine

/-- A packet with its route word (R263) and the unit it arrived on. -/
structure Pkt where
  /-- 2 bits; 08 R263 tx; reset 0. -/
  tx : Nat := 0
  /-- 2 bits; 08 R263 ty; reset 0. -/
  ty : Nat := 0
  /-- 1 bit; 08 R263 tz; reset 0. -/
  tz : Nat := 0
  /-- 3 bits, one per axis, 1 minus; 08 R263 dir; reset 0. -/
  dir : Nat := 0
  /-- 1 bit; 08 R263 vc; reset 0. -/
  vc : Nat := 0
  /-- 2 bits; 08 R263 class; reset 0. -/
  cls : Nat := 0
  /-- 1 bit; 08 R263 exit_en; reset 0. -/
  exitEn : Bool := false
  /-- 4 bits; 08 R263 exit; reset 0. -/
  exit : Nat := 0
  /-- 16 bits; 08 R263 dest_module; reset 0. -/
  dest : Nat := 0
  /-- 16 bits; 08 R263 src_module; reset 0. -/
  src : Nat := 0
  /-- 32 bits; 08 R263 job_tag; reset 0. -/
  tag : Word := 0
  /-- the Stitch packet, check word included; 05 R174, R176; reset none. -/
  bytes : List Byte := []
  /-- unit 0 to 21 on which it arrived, 255 when it was formed at this module; 08 R293 0x4009; reset 255. -/
  src0 : Nat := 255
  /-- 3 bits: receive buffer of that unit that holds it until it leaves; 08 R269; reset 0. -/
  buf0 : Nat := 0
deriving DecidableEq, Repr

/-- Service of a lane (R267). -/
inductive LaneSvc where
  | idle | inService | out
deriving DecidableEq, Repr

/-- One lane: eight of each torus port and the 32 optical lanes (R257, R259, R267). -/
structure Lane where
  /-- 1 bit: the receiver has lock; 08 R267, R288; reset 0. -/
  lock : Bool := false
  /-- tick when lock was gained; 08 R267; reset 0. -/
  lockAt : Nat := 0
  /-- in service, out of service, or neither; 08 R267; reset neither. -/
  svc : LaneSvc := .idle
  /-- tick when the lane went out or was last tried; 08 R267; reset 0. -/
  outAt : Nat := 0
  /-- 1 bit: the lane has been tried since it went out; 08 R267; reset 0. -/
  tried : Bool := false
  /-- tick of the last uncorrectable codeword; 08 R267; reset none. -/
  badAt : Option Nat := none
  /-- 1 bit: the far unit's heard mask has the lane; 08 R262; reset 0. -/
  heard : Bool := false
  /-- 1 bit: the sending side is out of service, as the far end is deaf; 08 R267; reset 0. -/
  deaf : Bool := false
  /-- 1 bit: the lane has had lock before; 08 FABRIC_COUNTERS word 7; reset 0. -/
  locked : Bool := false
  /-- 1 bit: a hello has been received since the lane gained lock; 08 R285; reset 0. -/
  hello : Bool := false
  /-- 16 bits: module ID of the last hello, 0xFFFF when none; 08 R262; reset 0xFFFF. -/
  seenModule : Nat := 0xFFFF
  /-- 8 bits: unit of the last hello; 08 R262; reset 0. -/
  seenUnit : Nat := 0
  /-- 8 bits: far lane of the last hello; 08 R262; reset 0. -/
  seenLane : Nat := 0
  /-- 16 bits: seq of the last frame that the lane delivered; 08 R266; reset none. -/
  lastSeq : Option (BitVec 16) := none
  /-- the instant of the commit for which the lane deals no data frames; 08 R288; reset none. -/
  quiet : Option (BitVec 48) := none
  /-- 1 bit: the lane counts as up while the relace that broke its light lasts; 08 R288; reset 0. -/
  kept : Bool := false
deriving DecidableEq, Repr

/-- A frame as it is sent (R261). -/
structure Frame where
  /-- 16 bits; 08 R261 seq; reset none. -/
  seq : BitVec 16
  /-- 56 bits; 08 R261; reset none. -/
  header : BitVec 56
  /-- 505 bytes; 08 R261; reset none. -/
  body : List Byte
deriving DecidableEq, Repr

/-- One unit: torus ports 0 to 5 and eyelets 6 to 21 (R257, R259). -/
structure FUnit where
  /-- 1 bit: a link is trained (torus ports); 08 R285; reset 0. -/
  trained : Bool := false
  /-- tick when a retraining began, while it lasts; 08 R265; reset none. -/
  retrainAt : Option Nat := none
  /-- 3 bits; 08 R285, R286; reset 0. -/
  state : Nat := 0
  /-- tick since which the state is 2 or 3; 08 R287; reset none. -/
  badSince : Option Nat := none
  /-- 1 bit; 08 R287 missing; reset 0. -/
  missing : Bool := false
  /-- tick before which nothing is declared missing; 08 R287; reset 0. -/
  graceEnd : Nat := 0
  /-- 16 bits: module last heard, 0xFFFF when none; 08 FABRIC_STATUS; reset 0xFFFF. -/
  seenModule : Nat := 0xFFFF
  /-- 8 bits: unit last heard; 08 FABRIC_STATUS; reset 0. -/
  seenUnit : Nat := 0
  /-- 16 bits: seq of the next frame; 08 R261; reset 0. -/
  txSeq : BitVec 16 := 0
  /-- 16 bits: the seq that comes next in order; 08 R261; reset 0. -/
  rxNext : BitVec 16 := 0
  /-- the last 512 frames sent, oldest first (torus ports); 08 R265; reset empty. -/
  sent : List Frame := []
  /-- the seq of the last replay request received and how often it came in a row; 08 R265; reset none. -/
  replay : Option (BitVec 16 × Nat) := none
  /-- the bytes so far of a packet that spans frames; 08 R263; reset none. -/
  asm : Option (List Byte) := none
  /-- frames that arrived before an earlier one; 08 R261, R266; reset empty. -/
  early : List Frame := []
  /-- tick when the present seq gap was met; 08 R266; reset none. -/
  gapAt : Option Nat := none
  /-- the newest seq that had come when a replay was last asked for; 08 R265; reset none. -/
  askedTo : Option (BitVec 16) := none
  /-- frames replayed to this port, or packets lost, since the last event 0x4008; 08 R293; reset 0. -/
  harm : Nat := 0
  /-- units of 64 bytes sent by buffer, 32 bits; 08 R262, R269; reset 0. -/
  sentTot : Tbl Word := []
  /-- of those, units that the far end has freed, 32 bits; 08 R262, R269; reset 0. -/
  freedSeen : Tbl Word := []
  /-- units freed here by buffer, 32 bits; 08 R262 freed; reset 0. -/
  freedTot : Tbl Word := []
  /-- of those, units that no frame has returned yet, by buffer; 08 R261 credit_units; reset 0. -/
  owed : Tbl Nat := []
  /-- bytes of the packet stream that wait for the rest of their frame; 08 R263; reset none. -/
  part : List Byte := []
  /-- first_ptr of that frame, 511 when no packet starts in it yet; 08 R261; reset 511. -/
  partPtr : Nat := 511
  /-- receive buffers: class × 2 + vc on ports, class on eyelets; packets, oldest first; 08 R269; reset empty. -/
  rxq : Tbl (List Pkt) := []
  /-- packets queued for the unit, oldest first; 08 R269, R278; reset empty. -/
  txq : List Pkt := []
  /-- the lane after the one dealt to last; 08 R260; reset 0. -/
  nextLane : Nat := 0
  /-- four weights; 08 R281; reset 40, 40, 10, 10. -/
  weights : List Nat := [40, 40, 10, 10]
  /-- the link arbiter; 08 R278; reset as Arb. -/
  arb : Arb := {}
  /-- floor counts in eighths of a unit by 2 × job_tag + class, for the job_tags of the ledger; 08 R283; reset 0. -/
  floors : Tbl Nat := []
  /-- Mirror-class bytes granted within 10 µs: tick and bytes; 08 R282; reset none. -/
  mirror : List (Nat × Nat) := []
  /-- 32 bits: lanes that have resumed since a relace quiesced them; 08 R293 0x400B; reset 0. -/
  resumed : Word := 0
  /-- counts by number 0 to 6 as FABRIC_COUNTERS words 2 to 8; 08 R292; reset 0. -/
  counts : Tbl Word := []
  /-- packet bytes sent; 08 FABRIC_COUNTERS word 9; reset 0. -/
  bytesSent : Nat := 0
deriving DecidableEq, Repr

/-- A defined eyelet (EYELET_DEFINE). -/
structure Eyelet where
  /-- 32 bits; 08 EYELET_DEFINE lanes; reset undefined. -/
  lanes : Word
  /-- 16 bits; 08 EYELET_DEFINE far_module; reset undefined. -/
  farModule : Nat
  /-- 4 bits; 08 EYELET_DEFINE far_eyelet; reset undefined. -/
  farEyelet : Nat
deriving DecidableEq, Repr

/-- A packet in the mesh and the unit attached to it that it goes to (R200, R201). -/
structure MPkt where
  /-- 08 R263, R174; reset none. -/
  pkt : Pkt
  /-- 0 to 63 a tile, 65 + u a torus port or eyelet, 87 the mirror engine, 88 Yarler, 89 + c a memory controller; 06 R200; reset none. -/
  goal : Nat
deriving DecidableEq, Repr

/-- The on-die mesh (R200, R201). -/
structure Mesh where
  /-- packets in a link's buffer for a class, oldest first, by 4 × (5 × node + way) + class: ways 0 east, 1 west, 2 south and 3 north into the node, 4 from the units attached to it; 06 R201; reset empty. -/
  bufs : Tbl (List MPkt) := []
  /-- the arbiter of each link by 5 × node + way out of the node, 4 to the units attached to it; 06 R201; reset as Arb. -/
  arbs : Tbl Arb := []
  /-- Mirror-class bytes granted within 10 µs by link: tick and bytes; 08 R282; reset none. -/
  mirror : Tbl (List (Nat × Nat)) := []
deriving DecidableEq, Repr

/-- A request that waits at a memory controller (R230, R231). -/
structure Waiting where
  /-- 05 R174; reset none. -/
  pkt : Pkt
  /-- its line requests that the controller has not granted; 06 R231; reset none. -/
  lines : Nat
deriving DecidableEq, Repr

/-- The front end of a memory controller (R230 to R232). -/
structure Front where
  /-- requests that wait at the controller, oldest first; 06 R231; reset empty. -/
  q : List Waiting := []
  /-- 06 R231; reset as Arb. -/
  arb : Arb := {}
  /-- Mirror-class lines granted within 10 µs: tick and lines; 06 R232; reset none. -/
  mirror : List (Nat × Nat) := []
deriving DecidableEq, Repr

/-- The fabric (R257 to R293). -/
structure Fabric where
  /-- 1 bit; 08 R289; reset 0. -/
  planLoaded : Bool := false
  /-- torus sizes 1 to 4, 1 to 4, 1 to 2; 08 R272; reset 1. -/
  size : Nat × Nat × Nat := (1, 1, 1)
  /-- own coordinates; 08 R272; reset 0. -/
  coords : Nat × Nat × Nat := (0, 0, 0)
  /-- 6 bits; 08 FABRIC_PLAN_LOAD planned; reset 0. -/
  planned : BitVec 6 := 0
  /-- expected neighbours by port; 08 FABRIC_PLAN_LOAD; reset 0. -/
  nb : Tbl Nat := []
  /-- µs; 08 R289, 05 R189; reset 2,000. -/
  torusUs : Nat := 2000
  /-- µs; 08 R289, 05 R189; reset 20,000. -/
  eyeletUs : Nat := 20000
  /-- 4,096 entries of 64 bits, word 0 low; 08 R273; reset 0. -/
  routes : Tbl DWord := []
  /-- sixteen eyelets; 08 R259, R291; reset undefined. -/
  eyelets : Tbl (Option Eyelet) := []
  /-- 22 units by number; 08 R257, R259; reset as FUnit. -/
  units : Tbl FUnit := []
  /-- lanes: 8 × port + lane, and 48 + n for OLn; 08 R257, R259; reset as Lane. -/
  lanes : Tbl Lane := []
  /-- request packets whose memory takes them next, in the order granted; 08 R271, 05 R194; reset empty. -/
  inReq : List Pkt := []
  /-- response packets that have reached the Stitch unit as an initiator, oldest first; 08 R271, 05 R191; reset empty. -/
  inResp : List Pkt := []
  /-- the group of the on-die mesh, whose lines follow; 06 R200, R201; reset as Mesh. -/
  mesh : Mesh := {}
  /-- 58 bits by lane: the last bits that its scrambler sent, the newest in bit 0; 08 R260; reset DESIGN CHOICE 0 (log 71). -/
  scramblers : Tbl (Option (BitVec 58)) := []
  /-- twelve memory controllers by number; 06 R230; reset as Front. -/
  fronts : Tbl Front := []
  /-- 8 bits: TMU_NS[7:0] when the arbiters left reset, where their pointers start; 08 R280; reset 0 (TMU_NS is 0). -/
  ptr0 : Nat := 0
deriving DecidableEq, Repr

end Sys2Proof.Machine
end

