-- ==== Sys2Proof/Machine/PartsOptics.lean ====
section
/-! DEFINITION. The pieces of State of the Welt, the Shank, the monitors with calibration, and
resilience. -/

namespace Sys2Proof.Machine

/-- A lace of a bank, at its entry index (R300, R301). -/
structure Lace where
  /-- 8 bits; 09 R301 outlet; reset empty. -/
  outlet : Nat := 0
  /-- 16 bits; 09 R301 lace_tag; reset empty. -/
  tag : Nat := 0
  /-- fifteen cells, stage by stage: row in bits [6:0], cross in bit 7, input in bit 8; 09 R301 cell state; reset
  empty. -/
  route : List Nat := []
deriving DecidableEq, Repr

/-- The state of a lace (R309). -/
inductive LaceSt where
  | idle | settling | locked | dark | unlocked | forced
deriving DecidableEq, Repr

/-- How a lace of the active bank stands (R309, R314). -/
structure LaceRun where
  /-- 3 bits; 09 R309; reset Idle. -/
  st : LaceSt := .idle
  /-- tick when it entered Settling; 09 R309; reset 0. -/
  settleAt : Nat := 0
  /-- tick since which a Locked lace is out of lock; 09 R309; reset none. -/
  outSince : Option Nat := none
  /-- tick since which its pass loss is above 3.5 dB; 09 R314; reset none. -/
  lossSince : Option Nat := none
  /-- 1 bit: event 0x5009 has been raised for this excess; 09 R314; reset 0. -/
  lossTold : Bool := false
  /-- tick since which the power at its inlet tap is below -30 dBm; 09 R309; reset none. -/
  darkSince : Option Nat := none
deriving DecidableEq, Repr

/-- The relace that is not complete (R310, R311). -/
structure Relace where
  /-- 32 bits: T; 09 R318; reset none. -/
  t : Word
  /-- tick of T; 09 R310; reset none. -/
  tick : Nat
  /-- touched entry indices; 09 R304; reset none. -/
  touched : List Nat
  /-- those counted as failed; 09 R310; reset none. -/
  failed : List Nat
  /-- cells that the commit freed; 09 R310; reset none. -/
  freed : List Nat := []
  /-- its schedule entry; 12 R372; reset none. -/
  entry : Nat
deriving DecidableEq, Repr

/-- A force on a cell (R317). -/
structure Force where
  /-- 1 bar, 2 cross, 3 raw; 09 WELT_FORCE mode; reset none. -/
  mode : Nat
  /-- 16 bits, Q0.16; 09 WELT_FORCE drive; reset none. -/
  drive : Nat
deriving DecidableEq, Repr

/-- What a LACE_PLAN_COMPILE load and a commit of one tick replaced (R307). -/
structure ShadowWas where
  /-- tick of the load or commit; 09 R307; reset none. -/
  tick : Nat
  /-- 320 entries: the shadow bank before a load, the active bank before a commit; 09 R307; reset none. -/
  bank : Tbl (Option Lace)
  /-- 16 bits: base_gen before a load, active_gen before a commit; 09 R307; reset none. -/
  gen : BitVec 16
  /-- 1 bit: the shadow bank was loaded; 09 R307; reset none. -/
  loaded : Bool := true
deriving DecidableEq, Repr

/-- The Welt (R294 to R318). -/
structure Welt where
  /-- 1 bit; 09 R316; reset 0. -/
  powered : Bool := false
  /-- 320 entries; 09 R300 active bank; reset empty (R302). -/
  active : Tbl (Option Lace) := []
  /-- 320 entries; 09 R300 shadow bank; reset empty (R302). -/
  shadow : Tbl (Option Lace) := []
  /-- the lanes whose laces were in the touched list when the shadow bank was loaded; 08 R288; reset empty. -/
  shadowLanes : List Nat := []
  /-- 16 bits; 09 R302; reset 0. -/
  activeGen : BitVec 16 := 0
  /-- 16 bits; 09 R302; reset 0. -/
  baseGen : BitVec 16 := 0
  /-- 1 bit; 09 LACE_BANK_QUERY loaded; reset 0. -/
  loaded : Bool := false
  /-- 1 bit; 09 LACE_BANK_QUERY keep; reset 0. -/
  keep : Bool := false
  /-- 32 bits; 09 LACE_BANK_QUERY last_t; reset 0. -/
  lastT : Word := 0
  /-- 16 bits; 09 LACE_BANK_QUERY last_lock_us; reset 0xFFFF (unknown). -/
  lastLock : Nat := 0xFFFF
  /-- 9 bits; 09 LACE_BANK_QUERY last_touched; reset 0. -/
  lastTouched : Nat := 0
  /-- states of the laces by entry index; 09 R309; reset Idle. -/
  laces : Tbl LaceRun := []
  /-- 09 R310; reset none. -/
  relace : Option Relace := none
  /-- forces by cell; 09 R317; reset none. -/
  forces : Tbl (Option Force) := []
  /-- what the last load replaced; 09 R307; reset none. -/
  loadWas : Option ShadowWas := none
  /-- what the last commit replaced; 09 R307; reset none. -/
  commitWas : Option ShadowWas := none
deriving DecidableEq, Repr

/-- A coefficient set; every field Q16.16 but lock_n and set_tag (R330). -/
structure Coef where
  kpA : Q
  kiA : Q
  ktA : Q
  iaLo : Q
  iaHi : Q
  uLo : Q
  uHi : Q
  lockTol : Q
  lockN : Nat
  kpB : Q
  kiB : Q
  ktB : Q
  kpD : Q
  kiD : Q
  ktD : Q
  setTag : Nat
deriving DecidableEq, Repr

/-- Limits of a plane (R334). -/
structure Limits where
  pCell : Q
  pPlane : Q
  tLim : Q
deriving DecidableEq, Repr

/-- One cell as the Shank keeps it (R321 to R328). Every Q is signed Q16.16. -/
structure Cell where
  /-- 1 bit: an active lace uses it; 10 R323; reset 0. -/
  inUse : Bool := false
  /-- 1 bit: 0 bar, 1 cross; 10 R323 r; reset 0. -/
  target : Bool := false
  /-- 1 bit: its target changes in the next sample; 10 R323; reset 0. -/
  changed : Bool := false
  /-- 32 bits; 10 R324 ia; reset 0. -/
  ia : Q := 0
  /-- 32 bits; 10 R324 ib; reset 0. -/
  ib : Q := 0
  /-- 32 bits: the drive of the last sample; 10 R322 u_prev; reset 0. -/
  u : Q := 0
  /-- 32 bits; 10 SHANK_STATUS y; reset 0. -/
  y : Q := 0
  /-- 32 bits; 10 SHANK_STATUS va; reset 0. -/
  va : Q := 0
  /-- 32 bits; 10 SHANK_STATUS vb; reset 0. -/
  vb : Q := 0
  /-- 32 bits: the drive at the heater, that of the sample before; 10 R320; reset 0. -/
  drive : Q := 0
  /-- 32 bits; 10 SHANK_STATUS uff; reset 0. -/
  uff : Q := 0
  /-- 32 bits; 10 SHANK_STATUS ph; reset 0. -/
  ph : Q := 0
  /-- 1 bit; 10 SHANK_STATUS lit; reset 0. -/
  lit : Bool := false
  /-- 1 bit; 10 SHANK_STATUS observable; reset 0. -/
  obs : Bool := false
  /-- tick since which no input is lit; 10 R324; reset none. -/
  darkSince : Option Nat := none
  /-- 1 bit; 10 R328 saturation flag; reset 0. -/
  sat : Bool := false
  /-- 0 to 8; 10 R328 count; reset 0. -/
  count : Nat := 0
  /-- 1 bit; 10 R329 stale flag; reset 0. -/
  stale : Bool := false
  /-- 2 bits: 0 a, 1 b, 2 d, 3 forced; 10 SHANK_STATUS winner; reset 0. -/
  winner : Nat := 0
  /-- observable samples within lock_tol in a row, since the target changed; 10 R327; reset 0. -/
  run : Nat := 0
  /-- samples in use since the target changed; 10 R327; reset 0. -/
  used : Nat := 0
  /-- 1 bit: an observable sample since the target changed; 10 R327; reset 0. -/
  seen : Bool := false
  /-- 1 bit: passes the lock test; 10 R327; reset 0. -/
  pass : Bool := false
  /-- tick since which it has been Locked in this target; 11 R340 FF; reset none. -/
  lockedAt : Option Nat := none
  /-- the applied drives of its last 256 samples, newest first; 11 R340 FF; reset none. -/
  hist : List Q := []
deriving DecidableEq, Repr

/-- One plane of the Shank (R319 to R334). -/
structure Plane where
  /-- ns, 25,000 to 200,000; 10 R319 Ts; reset 50,000. -/
  ts : Nat := 50000
  /-- tick of the grid origin; 10 R319; reset 0. -/
  origin : Nat := 0
  /-- boundaries since the origin that have been computed; 10 R319; reset 0. -/
  k : Nat := 0
  /-- 10 R330 active set; reset none. -/
  active : Option Coef := none
  /-- 10 R330 pending set; reset none. -/
  pending : Option Coef := none
  /-- 1 bit: a swap waits for the boundary; 10 R332; reset 0. -/
  swapDue : Bool := false
  /-- a period that waits for the boundary; 10 R333; reset none. -/
  rateDue : Option Nat := none
  /-- 10 R334 limits in force; reset none. -/
  limits : Option Limits := none
  /-- 10 R334 limits that wait for the boundary; reset none. -/
  limitsDue : Option Limits := none
  /-- 32 bits; 10 R324 id; reset 0. -/
  id : Q := 0
  /-- 32 bits; 10 SHANK_STATUS vd; reset 0. -/
  vd : Q := 0
  /-- 32 bits: the largest drive of the last sample; 10 R324 umax; reset 0. -/
  umax : Q := 0
  /-- 1 bit: a cell was in use in the last sample; 10 R332; reset 0. -/
  hadUse : Bool := false
  /-- 1 bit: a sensor of the plane was stale in the last sample; 10 R329; reset 0. -/
  stale : Bool := false
  /-- 32 bits; 10 SHANK_STATUS tp; reset 0. -/
  tp : Q := 0
  /-- 32 bits; 10 SHANK_STATUS h; reset 0. -/
  h : Q := 0
  /-- 11 bits; 10 R326 n_over; reset 0. -/
  nOver : Nat := 0
  /-- 17 bits, mW; 10 SHANK_STATUS heater_mw; reset 0. -/
  heater : Nat := 0
  /-- 11 bits; 10 SHANK_STATUS won_b; reset 0. -/
  wonB : Nat := 0
  /-- 11 bits; 10 SHANK_STATUS won_d; reset 0. -/
  wonD : Nat := 0
  /-- tick since which tp stands at t_lim + 10 °C or above; 10 R334; reset none. -/
  hotSince : Option Nat := none
  /-- 1 bit: the plane has tripped since hotSince; 10 R334; reset 0. -/
  hotTold : Bool := false
  /-- the readings latched at the last boundary, as values of Mon; 10 R320; reset none. -/
  latch : Tbl (Option Q) := []
  /-- their stale flags; 10 R320, R329; reset none. -/
  latchStale : Tbl Bool := []
deriving DecidableEq, Repr

/-- The Shank. -/
structure Shank where
  /-- two planes; 10 R319; reset as Plane. -/
  planes : Tbl Plane := []
  /-- 3,840 cells; 10 R324, 09 R294; reset as Cell. -/
  cells : Tbl Cell := []
deriving DecidableEq, Repr

/-- A correction that is slewed in (R346). -/
structure Slew where
  /-- 11 R346 old; reset none. -/
  old : Q
  /-- 11 R346 new; reset none. -/
  new : Q
  /-- 0 to 256; 11 R346 n; reset none. -/
  n : Nat
deriving DecidableEq, Repr

/-- A stored calibration record (R347, R348). -/
structure CalRec where
  /-- 32 bits; 11 R347 count; reset none. -/
  count : Word := 0
  /-- 32 bits; 11 R347 opsec; reset none. -/
  opsec : Word := 0
  /-- 24 bits; 11 R347 pcycle; reset none. -/
  pcycle : BitVec 24 := 0
  /-- 6 bits; 11 R347 failed; reset none. -/
  failed : Nat := 0
  /-- 16 bits; 11 R347 version; reset none. -/
  version : Nat := 3
  /-- 1 bit: 0 factory, 1 field; 11 R347 kind; reset none. -/
  field : Bool := false
  /-- the check that the slot's bytes fail: 0 magic, 1 length, 2 CRC; 11 R348; reset none. -/
  fault : Option Nat := none
  /-- final corrections by item, in the formats of their sections; an item not listed has its factory value; 11 R346,
  R347; reset none. -/
  items : Tbl Q := []
  /-- readings at the end of the last TEMP run by sensor; 11 R347 Temperature section; reset none. -/
  temps : Tbl Q := []
deriving DecidableEq, Repr

/-- What started a calibration run (R343, R350). -/
inductive CalTrigger where
  | powerUp | command | drift
deriving DecidableEq, Repr

/-- Monitors and calibration (R337 to R350). -/
structure Mon where
  /-- last value of each reading, Q16.16, by 8,192 × kind + index; 11 R337; reset none (taps read −128.0). -/
  values : Tbl (Option Q) := []
  /-- readings now held; 11 R345; reset none. -/
  stale : Tbl Bool := []
  /-- corrections in use by item: 2^17 × procedure + 2^16 for a gain + 8,192 × kind + index; 11 R340, R346; reset
  factory. -/
  corr : Tbl (Option Slew) := []
  /-- 6 bits; 11 CAL_STATUS running; reset 0. -/
  running : Nat := 0
  /-- the procedure of the run that is being executed, 6 when none is; 11 R342; reset 6. -/
  proc : Nat := 6
  /-- tick when it began; 11 R340, R342; reset 0. -/
  procAt : Nat := 0
  /-- readings that it has held already; 11 R340; reset none. -/
  heldOnce : List Nat := []
  /-- samples for which it has held a cell's heater power; 11 R340, R342; reset 0. -/
  heldHeat : Tbl Nat := []
  /-- slow conversions that a scan group has made; 11 R338; reset 0. -/
  slow : Tbl Nat := []
  /-- 1 bit: the power-up run is complete; 11 R343, 17 R455; reset 0. -/
  atStart : Bool := false
  /-- the trigger of the run in progress; 11 R350; reset power-up. -/
  trigger : CalTrigger := .powerUp
  /-- tick when a run was deferred; 11 R344; reset none. -/
  deferred : Option Nat := none
  /-- 6 bits; 11 CAL_STATUS last_mask; reset 0. -/
  lastMask : Nat := 0
  /-- 6 bits; 11 CAL_STATUS failed; reset 0. -/
  failed : Nat := 0
  /-- 32 bits; 11 R348 calibration count; reset DESIGN CHOICE 0 (stored, log 3). -/
  count : Word := 0
  /-- 32 bits: the calibration count at the end of the last run, as its record holds it; 11 R347; reset DESIGN CHOICE 0
  (log 3). -/
  runCount : Word := 0
  /-- 32 bits; 11 CAL_STATUS opsec; reset DESIGN CHOICE 0 (stored, log 3). -/
  opsec : Word := 0
  /-- 24 bits; 11 CAL_STATUS pcycle; reset DESIGN CHOICE 0 (stored, log 3). -/
  pcycle : BitVec 24 := 0
  /-- readings at the end of the last TEMP run by sensor; 11 R343; reset none. -/
  lastTemp : Tbl (Option Q) := []
  /-- µV; 11 R339 BG0; reset DESIGN CHOICE 1,200,000 (log 3). -/
  bg0 : Int := 1200000
  /-- µV; 11 R339 BG1; reset DESIGN CHOICE 1,200,000 (log 3). -/
  bg1 : Int := 1200000
  /-- tick since which the band-gaps differ by more than 2.4 mV; 11 R339; reset none. -/
  bgSince : Option Nat := none
  /-- 1 bit: event 0x6002 has been raised for this difference; 11 R339; reset 0. -/
  bgTold : Bool := false
  /-- flash slots: 0 factory, 1 field A, 2 field B; 11 R347, R348; reset DESIGN CHOICE a factory record alone (log 3). -/
  slots : Tbl (Option CalRec) := [(0, some {})]
  /-- the field slot whose record is current; 11 R348; reset DESIGN CHOICE none (log 3). -/
  current : Option Nat := none
  /-- 1 bit: a record waits to be written; 11 R348; reset 0. -/
  writeDue : Bool := false
deriving DecidableEq, Repr

/-- A watched peer (R386, R387). -/
structure Peer where
  /-- 16 bits; 13 HEARTBEAT_CONFIG; reset none. -/
  id : Nat
  /-- 1 bit; 13 R387 lost; reset none. -/
  lost : Bool := false
  /-- tick of the last heartbeat or of the list; 13 R387; reset none. -/
  lastAt : Nat
  /-- the last heartbeat's eight words; 13 R386; reset none. -/
  hb : List Word := []
deriving DecidableEq, Repr

/-- A mirror store that this module holds (R381). -/
structure Store where
  /-- 16 bits; 13 R382 source; reset none. -/
  source : Nat
  /-- offset in the module's MRDIMM address space, in its view; 13 R381; reset none. -/
  base : Nat
  /-- 3 bits; 13 R382 view; reset none. -/
  view : Nat
  /-- 64 bits; 13 R382 image_bytes; reset none. -/
  image : Nat
  /-- 24 bits; 13 R382 J; reset none. -/
  journal : Nat
  /-- tick when a seal was seen that is not applied; 13 R384; reset none. -/
  sealAt : Option Nat := none
deriving DecidableEq, Repr

/-- A region in the image at the buddy (R382, R383). -/
structure ImageRegion where
  /-- 32 bits; 13 R382 job_tag; reset none. -/
  tag : Word
  /-- 4 bits: local job; 13 R383; reset none. -/
  job : Nat
  /-- 16 bits; 13 R382 region; reset none. -/
  region : Nat
  /-- 64 bits; 13 R382 size; reset none. -/
  size : Nat
  /-- 64 bits; 13 R382 image offset; reset none. -/
  off : Nat
  /-- bytes of the image that its pages take, whole units of the region's view; 07 R242, 13 R383, R384; reset none. -/
  room : Nat
  /-- number of its region table entry, 0 to 2,045; 13 R382; reset none. -/
  slot : Nat
  /-- index of the first seal that included it, none before; 13 R382 since; reset none. -/
  since : Option Word := none
deriving DecidableEq, Repr

/-- The copy of an image that is in progress (R384). -/
structure Copy where
  /-- 32 bits; 13 R384 n; reset none. -/
  index : Word
  /-- tick of the boundary; 13 R392 0x8001; reset none. -/
  startAt : Nat
  /-- 1 bit; 13 RESILIENCE_STATUS full; reset none. -/
  full : Bool := false
  /-- 1 bit: the header has been read and the other half is free; 13 R384; reset none. -/
  started : Bool := false
  /-- the first 64 bytes of the store, as the mirror engine has read them; 13 R384; reset none. -/
  header : Option (List Byte) := none
  /-- journal half that takes this copy; 13 R384; reset none. -/
  half : Nat := 0
  /-- granules written to the half; 13 R384; reset none. -/
  granules : Nat := 0
  /-- pages not yet read, channel × 2^22 + page; 13 R380; reset none. -/
  todo : List Nat := []
  /-- pages read into the staging buffer and not sent yet, with their bytes; 13 R380; reset none. -/
  staged : List (Nat × List Byte) := []
  /-- pages of the image; 13 R385; reset none. -/
  pages : List Nat := []
  /-- regions that take a full image in this copy: job and number; 13 R384; reset none. -/
  fullRegions : List (Nat × Nat) := []
  /-- where each region of the image lay at the boundary: first channel, ways, first page and the page after the last in each; 13 R380; reset none. -/
  places : List (ImageRegion × Nat × Nat × Nat × Nat) := []
  /-- 1 bit: the seal has been sent; 13 R384; reset none. -/
  sealing : Bool := false
deriving DecidableEq, Repr

/-- A restore in progress (R390). -/
structure Restore where
  /-- 4 bits; 13 R390 job; reset no restore. -/
  job : Nat
  /-- 32 bits; 13 R390 index; reset no restore. -/
  index : Word
  /-- 0 the buddy's older half is applied, 1 the index is left alone in the store, 2 the buddy's image is at it, 3 the journal index is read, 4 the pages are copied back; 13 R390; reset no restore. -/
  stage : Nat := 0
  /-- 1 bit: the index is sealed_old; 13 R390; reset no restore. -/
  older : Bool
  /-- 32 bits: the newest sealed index as the restore began; 13 R390; reset no restore. -/
  newest : Word
  /-- 1 bit: the journal half that holds the newest seal; 13 R390; reset no restore. -/
  half : Nat
  /-- reads to ask for: place in the store, local physical global address, bytes; 13 R390; reset no restore. -/
  todo : List (Nat × Nat × Nat) := []
  /-- bytes that reads of the stage have brought, segment by segment; 13 R390; reset no restore. -/
  got : List (List Byte) := []
  /-- lost regions placed anew: region, old base and new base; 13 R390; reset no restore. -/
  lost : List (Nat × Nat × Nat) := []
  /-- granules copied back; 13 R390, R392 0x8013; reset no restore. -/
  granules : Nat := 0
  /-- 8 bits: the error of an operation; 05 R193; reset no restore. -/
  error : Nat := 0
deriving DecidableEq, Repr

/-- A write held on a pending page (R380): the page, the tick and the request packet. -/
structure HeldWrite where
  /-- channel × 2^22 + page; 13 R380; reset none. -/
  page : Nat
  /-- tick when it was held; 13 R380; reset none. -/
  at0 : Nat
  /-- the request packet; 13 R380; reset none. -/
  pkt : Pkt
  /-- which of its pieces, by number, have not been performed; 06 R212; reset none. -/
  left : List Nat := [0]
  /-- its place in the order in which writes were first held; 06 R212; reset none. -/
  no : Nat := 0
deriving DecidableEq, Repr

/-- Epochs, mirroring and recovery (R378 to R392). -/
structure Resil where
  /-- 1 bit; 13 EPOCH_CONFIG enable; reset 0. -/
  enabled : Bool := false
  /-- ms; 13 EPOCH_CONFIG period_ms; reset DESIGN CHOICE 200 (the default of EPOCH_CONFIG, log 3). -/
  periodMs : Nat := 200
  /-- 48 bits: the instant of boundary `first`; 13 R378; reset 0. -/
  origin : BitVec 48 := 0
  /-- 32 bits; 13 EPOCH_CONFIG first; reset 0. -/
  first : Word := 0
  /-- 16 bits; 13 EPOCH_CONFIG job_mask; reset 0. -/
  jobMask : Word := 0
  /-- index of the armed boundary and its schedule entry; 13 R378; reset none. -/
  armed : Option (Word × Nat) := none
  /-- the schedule entry whose dirty drain sweeps; 06 R229, 12 R372; reset none. -/
  draining : Option Nat := none
  /-- 32 bits; 13 RESILIENCE_STATUS taken; reset DESIGN CHOICE 0xFFFF_FFFF, none (log 3). -/
  taken : Word := 0xFFFFFFFF
  /-- 32 bits; 13 RESILIENCE_STATUS sealed_new; reset 0xFFFF_FFFF, none (R382). -/
  sealedNew : Word := 0xFFFFFFFF
  /-- 32 bits; 13 RESILIENCE_STATUS sealed_old; reset 0xFFFF_FFFF, none (R382). -/
  sealedOld : Word := 0xFFFFFFFF
  /-- 48 bits: Sitetime of the newest seal; 13 R386 seal_ns, seal_era; reset 0. -/
  sealT : BitVec 48 := 0
  /-- the buddy; 13 BUDDY_SET; reset none. -/
  buddy : Option Nat := none
  /-- the store at the buddy: offset, view, J and image_bytes; 13 BUDDY_SET; reset 0. -/
  storeBase : Nat := 0
  /-- 24 bits; 13 R382 J of the buddy's store; reset 0. -/
  storeJ : Nat := 0
  /-- 64 bits; 13 R382 image_bytes of the buddy's store; reset 0. -/
  storeImage : Nat := 0
  /-- 3 bits; 13 R382 view of the buddy's store; reset 0. -/
  storeView : Nat := 0
  /-- 1 bit: the journal half that holds sealed_new; 13 R382 half_new; reset 0. -/
  halfNew : Nat := 0
  /-- regions in the image; 13 R383; reset none. -/
  image : List ImageRegion := []
  /-- pages that a failed image left pending, channel × 2^22 + page; 13 R385; reset none. -/
  carried : List Nat := []
  /-- 1 bit: the next taken boundary gives every region a full image; 13 BUDDY_SET; reset 0. -/
  fullDue : Bool := false
  /-- the copy in progress; 13 R384; reset none. -/
  copy : Option Copy := none
  /-- the restore in progress; 13 R390; reset none. -/
  restore : Option Restore := none
  /-- writes held on pending pages, oldest first; 13 R380; reset none. -/
  held : List HeldWrite := []
  /-- ns, 32 bits; 13 RESILIENCE_STATUS held_max_ns; reset 0. -/
  heldMax : Nat := 0
  /-- 32 bits; 13 RESILIENCE_STATUS untaken; reset 0. -/
  untaken : Word := 0
  /-- µs; 13 HEARTBEAT_CONFIG period_us; reset DESIGN CHOICE 1,000 (log 3). -/
  hbUs : Nat := 1000
  /-- 2 to 15; 13 HEARTBEAT_CONFIG miss; reset DESIGN CHOICE 4 (log 3). -/
  miss : Nat := 4
  /-- at most 64, in list order; 13 HEARTBEAT_CONFIG; reset none. -/
  peers : List Peer := []
  /-- 32 bits; 13 R386 seq; reset 0. -/
  hbSeq : Word := 0
  /-- four stores by number; 13 R381; reset none. -/
  stores : Tbl (Option Store) := []
deriving DecidableEq, Repr

end Sys2Proof.Machine
end

