-- ==== Sys2Proof/Machine/State.lean ====
section
/-! DEFINITION. The state of the block as plain data, its state after reset, and the reasons a step can
stop. -/

namespace Sys2Proof.Machine

/-- What the block sends out of itself. -/
inductive Output where
  /-- an MSI-X message of a vector (R48). -/
  | msix (vector : Nat) (addr : DWord) (data : Word)
  /-- the value of a BAR0 register read with a row of its own (R8). -/
  | regValue (off : Nat) (value : Word)
  /-- the bytes of a BAR2 read (R60). -/
  | bar2Data (bytes : List Byte)
  /-- a write of bulk-buffer data to host memory (R34). -/
  | dma (addr : Nat) (bytes : List Byte)
  /-- a timing-port descriptor or frame written to host memory (R365). -/
  | ringDma (addr : Nat) (bytes : List Byte)
  /-- the bytes of a message on the service port, its byte count first (R439). -/
  | svc (bytes : List Byte)
  /-- a frame that leaves the timing port, its frame check sequence last (R363, R366). -/
  | ethFrame (bytes : List Byte)
  /-- a codeword that leaves a lane of a unit (R260, R261): the frame's header and body, and its 544 bytes scrambled as
  they are sent. -/
  | frame (unit lane : Nat) (header : BitVec 56) (body : List Byte) (line : List Byte)
  /-- a change of a moving region's entry sent to another module: module, job_tag, region, phase, base
  and new base (R250). -/
  | moveUpdate (module : Nat) (tag : Word) (region phase base newBase : Nat)
  /-- an acknowledgement of a drain or a flip to the home module (R250). -/
  | moveAck (module : Nat) (tag : Word) (region phase : Nat)
deriving DecidableEq, Repr

/-- The state of the block. -/
structure State where
  glb : Glb := {}
  mbx : Mbx := {}
  irq : Irq := {}
  bar2 : Bar2 := {}
  tmu : Tmu := {}
  sched : Sched := {}
  tpm : Tpm := {}
  /-- eight check-value units by number; 15 R414; reset as Cvu. -/
  cvus : Tbl Cvu := []
  log : Rec := {}
  power : Power := {}
  fw : Fw := {}
  /-- sixteen jobs by number; 04 R144; reset Free. -/
  jobs : Tbl Job := []
  /-- 64 tiles by number; 03 R66; reset as Tile. -/
  tiles : Tbl Tile := []
  stitch : Stitch := {}
  mem : Mem := {}
  place : Place := {}
  fabric : Fabric := {}
  welt : Welt := {}
  shank : Shank := {}
  mon : Mon := {}
  resil : Resil := {}
  /-- ticks of the time oscillator (2 ns nominal) since power-up; the MODEL's own, by which durations of the rules are judged; 12 R351; reset 0. -/
  clk : Nat := 0
  /-- the MODEL's own: how many free values have been used (log 6); reset DESIGN CHOICE 0. -/
  fresh : Nat := 0
  /-- the MODEL's own: what the block has sent out, oldest first; reset empty. -/
  out : List Output := []
  /-- the MODEL's own: the commands that wait, first in first out; reset empty. -/
  pending : List Instr := []
deriving DecidableEq, Repr

/-- The block right after a power-on reset: every field at its reset value (R10, R454). -/
def State.reset : State := {}

/-- Why a command stops the model. -/
inductive Fault where
  /-- An operand that cannot exist on the block's interface: a frame body that is not 505 bytes (R261), a
  BAR2 access that crosses a 4 KiB boundary. Raised by the meanings of FRAME_RECEIVE, HELLO_RECEIVE, BAR2_READ and
  BAR2_WRITE. Safe: no such command reaches the hardware. -/
  | illFormed
deriving DecidableEq, Repr

/-- Why the model gives a command no meaning. -/
inductive Refusal where
  /-- The command with this mnemonic is not modelled. Raised by arms of the dispatch alone. Safe. -/
  | notModelled (mnemonic : String)
deriving DecidableEq, Repr

end Sys2Proof.Machine
end

