-- ==== Sys2Proof/Machine/Table.lean ====
section
/-! DEFINITION. Tables, memory as a table of bytes, byte order and bit fields. -/

namespace Sys2Proof.Machine

variable {α : Type}

/-- The entry of a table, or the default when it has none. -/
def tget (d : α) : Tbl α → Nat → α
  | [], _ => d
  | (j, v) :: t, k => if j = k then v else tget d t k

/-- A table less the entry of a key. -/
def terase : Tbl α → Nat → Tbl α
  | [], _ => []
  | (j, v) :: t, k => if j = k then terase t k else (j, v) :: terase t k

/-- An entry put before the first key that is not below its own. -/
def tput : Tbl α → Nat → α → Tbl α
  | [], k, v => [(k, v)]
  | (j, w) :: t, k, v => if j < k then (j, w) :: tput t k v else (k, v) :: (j, w) :: t

/-- A table with an entry set; an entry equal to the default is not listed. -/
def tset [DecidableEq α] (d : α) (t : Tbl α) (k : Nat) (v : α) : Tbl α :=
  if v = d then terase t k else tput (terase t k) k v

/-- The canonical form of a table: keys strictly rising, no entry equal to the default. -/
abbrev TableWf [DecidableEq α] (d : α) (t : Tbl α) : Prop :=
  t.Pairwise (fun a b => a.1 < b.1) ∧ ∀ p ∈ t, p.2 ≠ d

/-- The canonical form of a byte memory whose unlisted addresses read as zero. -/
abbrev MemoryWf (m : Tbl Byte) : Prop := TableWf (0 : Byte) m

/-- The byte at an address. -/
def readByte (m : Tbl Byte) (a : Nat) : Byte := tget 0 m a

/-- A byte written at an address. -/
def writeByte (m : Tbl Byte) (a : Nat) (b : Byte) : Tbl Byte := tset 0 m a b

/-- `n` bytes from an address, lowest first (R4). -/
def readBytes (m : Tbl Byte) (a : Nat) : Nat → List Byte
  | 0 => []
  | n + 1 => readByte m a :: readBytes m (a + 1) n

/-- Bytes written from an address, lowest first (R4). -/
def writeBytes (m : Tbl Byte) (a : Nat) : List Byte → Tbl Byte
  | [] => m
  | b :: bs => writeBytes (writeByte m a b) (a + 1) bs

/-- `n` bytes of zero written from an address. -/
def zeroBytes (m : Tbl Byte) (a n : Nat) : Tbl Byte := m.filter (fun p => p.1 < a || a + n ≤ p.1)

/-- A field of `len` bits from bit `lo`, as an unsigned number (R3). -/
def field {w : Nat} (x : BitVec w) (lo len : Nat) : Nat := (x.toNat >>> lo) % 2 ^ len

/-- One bit. -/
def bit {w : Nat} (x : BitVec w) (i : Nat) : Bool := x.getLsbD i

/-- A bit as a number. -/
def b2n (b : Bool) : Nat := if b then 1 else 0

/-- A number of `bits` bits taken as two's complement. -/
def signed (bits x : Nat) : Int := if x < 2 ^ (bits - 1) then x else (x : Int) - 2 ^ bits

/-- An integer as a two's complement number of `bits` bits. -/
def unsignedOf (bits : Nat) (x : Int) : Nat := (x % 2 ^ bits).toNat

/-- Bytes to a number, least significant first (R4). -/
def leNat : List Byte → Nat
  | [] => 0
  | b :: bs => b.toNat + 256 * leNat bs

/-- The `n` bytes of a number, least significant first (R4). -/
def leBytes (x : Nat) : Nat → List Byte
  | 0 => []
  | n + 1 => BitVec.ofNat 8 x :: leBytes (x / 256) n

/-- The four bytes of a word (R4). -/
def wordBytes (w : Word) : List Byte := leBytes w.toNat 4

/-- Words as bytes (R4). -/
def wordsBytes (ws : List Word) : List Byte := ws.flatMap wordBytes

/-- Bytes as words; a last group of fewer than four bytes is padded with zeros (R4). -/
def bytesWords : List Byte → List Word
  | [] => []
  | a :: b :: c :: d :: bs => BitVec.ofNat 32 (leNat [a, b, c, d]) :: bytesWords bs
  | bs => [BitVec.ofNat 32 (leNat bs)]

/-- A number as a word. -/
def word (n : Nat) : Word := BitVec.ofNat 32 n

/-- A signed number as a word, sign-extended (R394). -/
def sword (n : Int) : Word := BitVec.ofInt 32 n

/-- A 64-bit item as two words, low word first (R394). -/
def dwords (n : Nat) : List Word := [word n, word (n / 2 ^ 32)]

/-- The bits of a list of truth values, bit 0 first. -/
def bitsNat : List Bool → Nat
  | [] => 0
  | b :: bs => b2n b + 2 * bitsNat bs

/-- A list of a fixed length: cut, or filled with `d`. -/
def padTo (d : α) (n : Nat) (l : List α) : List α := (l ++ List.replicate n d).take n

/-- The element of a list at an index, or a default. -/
def nth (d : α) (l : List α) (i : Nat) : α := (l[i]?).getD d

end Sys2Proof.Machine
end

