-- ==== Sys2Proof/Machine/Arbiter.lean ====
section
/-! DEFINITION. The arbitration rule that every arbiter of the module uses (R71, R185, R278 to R280). -/

namespace Sys2Proof.Machine

/-- An eligible requester at an arbiter: its number, the class and the units of its head request, and whether R283
puts it first within its class. -/
structure Claim where
  req : Nat
  cls : Nat
  units : Nat
  first : Bool := false
deriving DecidableEq, Repr

/-- The tie rule: the first index at or above a pointer, else the first (R280). -/
def tiePick (pointer : Nat) (l : List Nat) : Nat :=
  let up := l.filter (fun i => pointer ≤ i)
  let from0 := if up.isEmpty then l else up
  from0.foldl min (from0.headD 0)

/-- The least of some numbers; 0 of none. -/
def leastOf (l : List Nat) : Nat := l.foldl min (l.headD 0)

/-- The classes of some requesters. -/
def claimClasses (l : List Claim) : List Nat := (List.range 4).filter (fun c => l.any (fun x => x.cls = c))

/-- A cycle of an arbiter in which these requesters are eligible: ages of heads newly eligible start, and a class that
becomes eligible catches up with the least virtual time of the cycle before (R278). -/
def Arb.look (now : Nat) (l : List Claim) (a : Arb) : Arb :=
  let least := leastOf (a.elig.map (tget 0 a.vt))
  let cs := claimClasses l
  { a with
    vt := if a.elig.isEmpty then a.vt
      else (cs.filter (fun c => !a.elig.contains c)).foldl (fun t c => tset 0 t c (max (tget 0 t c) least)) a.vt
    heads := l.foldl (fun t x => tset none t x.req (some ((tget none a.heads x.req).getD now))) []
    elig := cs }

/-- The oldest of some eligible requesters (R278). -/
def Arb.oldest (l : List Claim) (a : Arb) : List Claim :=
  let at0 := fun (x : Claim) => (tget none a.heads x.req).getD 0
  let t := leastOf (l.map at0)
  l.filter (fun x => at0 x = t)

/-- One of some requesters equal in every other respect, of `n` in all, and the arbiter after it (R280). -/
def Arb.tie (start n : Nat) (l : List Claim) (a : Arb) : Option (Claim × Arb) :=
  let r := tiePick (a.reqPtr.getD (start % n)) (l.map (·.req))
  (l.find? (fun x => x.req = r)).map (fun x => (x, { a with reqPtr := some ((r + 1) % n) }))

/-- The oldest of some requesters; the tie rule among those of equal age (R278). -/
def Arb.oldestOf (start n : Nat) (l : List Claim) (a : Arb) : Option (Claim × Arb) :=
  match a.oldest l with
  | [x] => some (x, a)
  | ties => a.tie start n ties

/-- The class with the least virtual time; the tie rule among equals (R278, R280). -/
def Arb.classOf (start : Nat) (l : List Claim) (a : Arb) : Nat × Arb :=
  let cs := claimClasses l
  let least := leastOf (cs.map (tget 0 a.vt))
  match cs.filter (fun c => tget 0 a.vt c = least) with
  | [c] => (c, a)
  | ties =>
    let c := tiePick (a.clsPtr.getD (start % 4)) ties
    (c, { a with clsPtr := some ((c + 1) % 4) })

/-- The requester that an arbiter of `n` requesters grants, and its pointers after that (R278). -/
def Arb.choose (start n : Nat) (l : List Claim) (a : Arb) : Option (Claim × Arb) :=
  match l.filter (fun x => 63 ≤ tget 0 a.passed x.req) with
  | late@(_ :: _) => a.tie start n late
  | [] =>
    let (c, a) := a.classOf start l
    let mine := l.filter (fun x => x.cls = c)
    match mine.filter (·.first) with
    | favoured@(_ :: _) => a.oldestOf start n favoured
    | [] => a.oldestOf start n mine

/-- What a grant does: the winner's class pays for its units, every other eligible requester has been passed over
(R278). -/
def Arb.paid (weight : Nat → Nat) (x : Claim) (l : List Claim) (a : Arb) : Arb :=
  { a with
    heads := tset none a.heads x.req none
    vt := tset 0 a.vt x.cls (tget 0 a.vt x.cls + x.units * 65536 / weight x.cls)
    passed := (l.filter (fun y => y.req ≠ x.req)).foldl (fun t y => tset 0 t y.req (tget 0 t y.req + 1))
      (tset 0 a.passed x.req 0) }

/-- One grant among the eligible requesters. -/
def Arb.grant (now start n : Nat) (weight : Nat → Nat) (l : List Claim) (a : Arb) : Option (Claim × Arb) :=
  ((a.look now l).choose start n l).map (fun r => (r.1, r.2.paid weight r.1 l))

end Sys2Proof.Machine
end

