-- ==== Sys2Proof/Config.lean ====
section
/-! DEFINITION. What an implementation fixes and the manual leaves open: opaque constants, of which
nothing can be proved but what the rules bound. Each is named in the assumption log. -/

namespace Sys2Proof

/-- The body of a record of an older chunk version, converted to the current one (R411; log 7). -/
opaque Config.convertBody : Nat → List Word → List Word

/-- Byte `i` of the SHAKE256 output for a message (FIPS 202, named by R425, not described; log 8). -/
opaque Config.shakeByte : List Byte → Nat → Byte

/-- An ML-DSA-65 signature verifies: public key, message, signature (FIPS 204; log 8). -/
opaque Config.mldsaVerify : List Byte → List Byte → List Byte → Bool

/-- ML-DSA-65 KeyGen: public and private key of a seed (FIPS 204, R442; log 8). -/
opaque Config.mldsaKeyGen : List Byte → List Byte × List Byte

/-- Byte `i` of the ML-DSA-65 signature of a message by a private key (FIPS 204, R443; log 8). -/
opaque Config.mldsaSign : List Byte → List Byte → Nat → Byte

/-- The fused 256-bit secret of the module, byte by byte (R442; log 8). -/
opaque Config.fusedSecret : Nat → Byte

/-- The fused SHAKE256 digest of the image public key (R425; log 8). -/
opaque Config.fusedDigest : List Byte

/-- Lumhild's image public key, held in the boot ROM (R425; log 8). -/
opaque Config.imageKey : List Byte

/-- The image key unwrapped from wrapped_key with the fused key-wrapping key, or none (SP 800-38F, R426;
log 8). -/
opaque Config.unwrapKey : List Byte → Option (List Byte)

/-- AES-256-GCM decryption: key, nonce, additional data, ciphertext, tag; none when the tag fails (R426;
log 8). -/
opaque Config.gcmOpen : List Byte → List Byte → List Byte → List Byte → List Byte → Option (List Byte)

/-- The boot ROM's content, of which m_rom is the digest (R443; log 8). -/
opaque Config.bootRom : List Byte

/-- The module certificate in DER, from the identity public key and the serial number that it names (R442; log 8). -/
opaque Config.moduleCertificate : List Byte → DWord → List Byte

/-- The device-CA certificate in DER (R442; log 8). -/
opaque Config.caCertificate : List Byte

/-- The fused MAC address of the service port, byte 0 in the low bits (R438; log 74). -/
opaque Config.macAddress : BitVec 48

/-- How long the service port's LED shows a message, in oscillator ticks (R470; log 75). -/
opaque Config.activityTicks : Nat

/-- How long after its firing an activation restarts the module, in oscillator ticks, at most 50 ms (R432; log 51). -/
opaque Config.restartTicks : Nat

/-- Byte `i` of the n-th challenge nonce (R444; log 9). -/
opaque Config.nonceByte : Nat → Nat → Byte

/-- An undefined byte: the n-th free value, byte i (R73, R117, R151, R196; log 10). -/
opaque Config.freeByte : Nat → Nat → Byte

/-- A free number: the n-th free value, where a rule leaves a whole value open (log 6). -/
opaque Config.freeNat : Nat → Nat

/-- Which of the 128 paths through a plane the compiler gives the lace of an entry index: plan (entry index and outlet
of each lace), held routes, entry index. It counts where it gives a routing of R303 (log 21). -/
opaque Config.weltPath : List (Nat × Nat) → List (Nat × List Nat) → Nat → Nat

/-- predicted_us of a bank (LACE_PLAN_COMPILE; log 22). -/
opaque Config.predictedUs : List Nat → Nat

/-- (2 / π) × asin(√(n / d)) in Q16.16, as the Shank rounds it; it counts within one step of the nearest value (R322;
log 23). -/
opaque Config.foldedAngle : Nat → Nat → Nat

/-- The drive model's position where ff_cross equals ff_bar (R322; log 23). -/
opaque Config.modelPosition : Q → Q

/-- A value of the factory record, by the key of the correction that it is for, in its field's format (R340, R347;
log 24). -/
opaque Config.factoryItem : Nat → Int

/-- The factory slope of a temperature sensor, Q16.16 (R347; log 24). -/
opaque Config.factorySlope : Nat → Int

/-- The factory temperature coefficient of a cell's feed-forward, mW/°C in Q16.16 (R347; log 24). -/
opaque Config.factoryTempco : Nat → Int

/-- The driver code of a drive in mW, in such units that the heater power of R337 comes out in mW (log 24). -/
opaque Config.driverCode : Int → Int

/-- The voltage monitor of a cell's heater rail, modulo 48 (R337; log 24). -/
opaque Config.heaterRail : Nat → Nat

/-- What orders the channels of a kind into scan groups: a free number for each, 1 standing for temperatures and voltages
together (R338; log 24). -/
opaque Config.scanGroup : Nat → Nat → Nat

/-- A calibration run holds a reading in a scan: the n-th free value, key of the reading (R340, R345;
log 32). -/
opaque Config.calHolds : Nat → Nat → Bool

/-- What the vector unit makes of a function of R107 that is not correctly rounded: operation, operands
(log 35). It counts where it keeps the bound of R107. -/
opaque Config.vectorApprox : Nat → Word → Word → Word

/-- The error of the LOG8 converter on an FP32 word, by which R99 leaves it free (log 35). -/
opaque Config.log8Error : Word → Nat

/-- The rank, modulo 2, of a line of a channel (R215, R224; log 37). -/
opaque Config.lineRank : Nat → Nat

/-- The dirty bits that a controller's on-die cache holds (R227; log 37). -/
opaque Config.dirtyCache : Nat

/-- The local physical global address from which the mirror engine or Yarler sends bytes: operations issued so far, place
at the target (R172; log 42). -/
opaque Config.stagingPa : Nat → Nat → Nat

/-- The bytes of the put that carries an update or an acknowledgement of a move: its job_tag, region, phase (4 more for an
acknowledgement), base and new_base, and the place of the byte (R250; log 42). -/
opaque Config.moveByte : Word × Nat × Nat × Nat × Nat → Nat → Byte

/-- The units of 64 bytes that a mesh link's buffer for a class holds (R201; log 70). -/
opaque Config.meshRoom : Nat

/-- The 32 parity bytes of a codeword, from its 512 data bytes (R260; log 71). -/
opaque Config.rsParity : List Byte → Nat → Byte

/-- The hash h of a channel-local line, its rank and a beat (R215; log 37). -/
opaque Config.lineHash : Nat → Nat → Nat → BitVec 32

end Sys2Proof
end

