-- ==== Sys2Proof/Machine/Ops.lean ====
section
/-! DEFINITION. The operations that every unit shares: access to the numbered parts of State, time, free
values, interrupts, records and state transitions. -/

namespace Sys2Proof.Machine

/-- Answer a next state. -/
abbrev done (s : State) : Host.Outcome State Fault Refusal := .next s

/-- The outcome of a command that acts only while the module is powered and not held in reset (R454). -/
def live (f : State → State) (s : State) : Host.Outcome State Fault Refusal :=
  .next (if s.power.on && !s.power.held then f s else s)

/-- The outcome of a command of the compute, memory, optical or Welt domain, which hold-up does not feed (R448,
R457). -/
def fed (f : State → State) (s : State) : Host.Outcome State Fault Refusal :=
  .next (if s.power.on && !s.power.held && !s.power.failing then f s else s)

/-- The outcome of a command by which Stitch operations are sent or completed: none is from the firing of an activation
to the restart (R432). -/
def sends (f : State → State) (s : State) : Host.Outcome State Fault Refusal :=
  fed (fun s => if s.fw.restartAt.isSome then s else f s) s

/-- The outcome of a command of the recorder, of the input or of the Trial timer, which no reset but the loss of
power stops (R448, R454). -/
def powered (f : State → State) (s : State) : Host.Outcome State Fault Refusal :=
  .next (if s.power.on then f s else s)

/-! Numbered parts of State. -/

def tileOf (s : State) (t : Nat) : Tile := tget {} s.tiles t
def setTile (t : Nat) (x : Tile) (s : State) : State := { s with tiles := tset {} s.tiles t x }
def modTile (t : Nat) (f : Tile → Tile) (s : State) : State := setTile t (f (tileOf s t)) s

def jobOf (s : State) (j : Nat) : Job := tget {} s.jobs j
def setJob (j : Nat) (x : Job) (s : State) : State := { s with jobs := tset {} s.jobs j x }
def modJob (j : Nat) (f : Job → Job) (s : State) : State := setJob j (f (jobOf s j)) s

def slotOf (s : State) (n : Nat) : Slot := tget {} s.mbx.slots n
def setSlot (n : Nat) (x : Slot) (s : State) : State :=
  { s with mbx.slots := tset {} s.mbx.slots n x }
def modSlot (n : Nat) (f : Slot → Slot) (s : State) : State := setSlot n (f (slotOf s n)) s

def chanOf (s : State) (c : Nat) : Chan := tget {} s.mem.chans c
def setChan (c : Nat) (x : Chan) (s : State) : State :=
  { s with mem.chans := tset {} s.mem.chans c x }
def modChan (c : Nat) (f : Chan → Chan) (s : State) : State := setChan c (f (chanOf s c)) s

def entryOf (s : State) (e : Nat) : SEntry := tget {} s.stitch.table e
def setEntry (e : Nat) (x : SEntry) (s : State) : State :=
  { s with stitch.table := tset {} s.stitch.table e x }
def modEntry (e : Nat) (f : SEntry → SEntry) (s : State) : State := setEntry e (f (entryOf s e)) s

def schedOf (s : State) (i : Nat) : Entry := tget {} s.sched.entries i
def setSched (i : Nat) (x : Entry) (s : State) : State :=
  { s with sched.entries := tset {} s.sched.entries i x }

def cvuOf (s : State) (n : Nat) : Cvu := tget {} s.cvus n
def setCvu (n : Nat) (x : Cvu) (s : State) : State := { s with cvus := tset {} s.cvus n x }

def rmOf (s : State) (i : Nat) : RmEntry := tget {} s.place.rmap i
def pageOf (s : State) (p : Nat) : Window := tget {} s.bar2.pages p
def setPage (p : Nat) (x : Window) (s : State) : State :=
  { s with bar2.pages := tset {} s.bar2.pages p x }

/-- All jobs' numbers, tiles' numbers, channels' numbers. -/
def jobNos : List Nat := List.range 16
def tileNos : List Nat := List.range 64
def chanNos : List Nat := List.range 12

/-- Apply an operation for every element in turn. -/
def forAll {β : Type} (l : List β) (f : β → State → State) (s : State) : State :=
  l.foldl (fun s x => f x s) s

/-! Time. The oscillator ticks every 2 ns nominal (R351). -/

def ticksUs (n : Nat) : Nat := 500 * n
def ticksMs (n : Nat) : Nat := 500000 * n
def ticksS (n : Nat) : Nat := 500000000 * n

/-- Ticks from an earlier instant to now. -/
def since (t : Nat) (s : State) : Nat := s.clk - t

/-- Sitetime on the extended counter, era and ns (R351). -/
def siteNow (s : State) : BitVec 48 := s.tmu.era ++ s.tmu.ns

/-- Sitetime as nanoseconds of the extended counter. -/
def siteNs (s : State) : Nat := (siteNow s).toNat

/-! Outputs and free values. -/

def emit (o : Output) (s : State) : State := { s with out := s.out ++ [o] }

/-- Use `n` free values. -/
def useFresh (n : Nat) (s : State) : State := { s with fresh := s.fresh + n }

/-! Interrupts (R46 to R49). -/

/-- Send a message of a vector: held in D3hot (R20), pending while the table or the function mask masks it (R48). -/
def sendMsix (v : Nat) (s : State) : State :=
  if s.irq.d3hot then { s with irq.held := s.irq.held ++ [v] }
  else
    let e := tget {} s.irq.msix v
    if bit e.ctrl 0 || s.irq.fnMask then { s with irq.pba := s.irq.pba ||| BitVec.ofNat 64 (2 ^ v) }
    else emit (.msix v (e.addrHi ++ e.addrLo) e.data) s

/-- Set cause bit `v` of IRQ_CAUSE and send its message by R48. -/
def setCause (v : Nat) (s : State) : State :=
  if bit s.irq.cause v then s
  else
    let s := { s with irq.cause := s.irq.cause ||| BitVec.ofNat 8 (2 ^ v) }
    if bit s.irq.mask v then { s with irq.owed := s.irq.owed ||| BitVec.ofNat 24 (2 ^ v) }
    else sendMsix v s

/-- Set bit `j` of IRQ_JOB_CAUSE and send vector 8 + j by R48 (R145). -/
def setJobCause (j : Nat) (s : State) : State :=
  if bit s.irq.jobCause j then s
  else
    let s := { s with irq.jobCause := s.irq.jobCause ||| BitVec.ofNat 16 (2 ^ j) }
    if bit s.irq.jobMask j then { s with irq.owed := s.irq.owed ||| BitVec.ofNat 24 (2 ^ (8 + j)) }
    else sendMsix (8 + j) s

/-! Module states. -/

/-- The value of GLB_STATE.state (R17). -/
def stateCode : ModState → Nat
  | .boot => 1 | .migrate => 2 | .configurable => 3 | .ready => 4 | .running => 5
  | .degraded => 6 | .halted => 7 | .dead => 15

/-- Ready, Running and Degraded (R51). -/
def operating (s : State) : Bool :=
  s.glb.state = .ready || s.glb.state = .running || s.glb.state = .degraded

/-- Tiles may be given work: the compute domain is fed, and no activation has fired (R432, R448, R457; log 51). -/
def mayRun (s : State) : Bool := !s.power.failing && s.fw.restartAt.isNone

/-- Yarler takes slots and only then the blocks beyond GLB_ answer (R26, R56, R57). -/
def serving (s : State) : Bool :=
  s.power.on && !s.power.held && s.glb.yarlerUp && s.glb.state ≠ .boot && s.glb.state ≠ .dead

/-- BAR0 beyond the GLB_ block answers: the module serves and the function is in D0 (R20, R26). -/
def reachable (s : State) : Bool := serving s && !s.irq.d3hot

/-- The function completes accesses at all: powered, out of reset and in D0 (R20, R454). -/
def answersBar (s : State) : Bool := s.power.on && !s.power.held && !s.irq.d3hot

/-- The outcome of a host write to a register beyond the GLB_ block; ignored where R20 and R26 say. -/
def onWrite (f : State → State) (s : State) : Host.Outcome State Fault Refusal :=
  .next (if reachable s then f s else s)

/-- The outcome of a host read of a register beyond the GLB_ block: zero in Boot and Dead (R26). -/
def onRead (off : Nat) (f : State → State) (s : State) : Host.Outcome State Fault Refusal :=
  .next (if reachable s then f s else if answersBar s then emit (.regValue off 0) s else s)

/-! Records (R393 to R408). -/

/-- A record's length in bytes (R393). -/
def recLen (r : Record) : Nat := 16 + 4 * r.body.length

/-- Bytes of a list of records. -/
def recsLen (l : List Record) : Nat := (l.map recLen).sum

/-- Fill: bytes waiting in the buffer (R401). -/
def fill (s : State) : Nat := recsLen s.log.buf

/-- The seq that is never given to a stored record (R396). -/
def noSeq : Word := 0xFFFFFFFF

/-- The seq after another (R396). -/
def nextSeq (q : Word) : Word := if q + 1 = noSeq then 0 else q + 1

/-- The Sitetime words that every body begins with (R394). -/
def timeWords (s : State) : List Word :=
  [s.tmu.ns, word (s.tmu.era.toNat + 65536 * b2n s.tmu.holdover)]

/-- The record of an event raised now, without a seq. -/
def mkRecord (code : BitVec 16) (sev : Nat) (items : List Word) (s : State) : Record :=
  { code := code, sev := sev, boot := s.glb.state = .boot, pcycle := s.glb.pcycle,
    opsec := s.glb.opsec, seq := noSeq, body := timeWords s ++ items }

/-- LOG_FILTER excludes an event: groups 1 to 9 and 11, below min_g, and below IRQ_EVT_LEVEL (R402,
LOG_FILTER). -/
def filtered (code : BitVec 16) (sev : Nat) (s : State) : Bool :=
  let g := code.toNat / 4096
  ((1 ≤ g && g ≤ 9) || g = 11) && sev < field s.log.filter (2 * g) 2 && sev < s.irq.evtLevel.toNat

/-- Count an event that is not stored (R402, R403, R412). -/
def countEvent (code : BitVec 16) (opsec : Word) (l : Rec) : Rec :=
  let known := l.counts.any (fun p => p.1 = code)
  { l with
    firstOpsec := if l.total = 0 then opsec else l.firstOpsec
    lastOpsec := opsec
    total := min (l.total + 1) 0xFFFFFFFF
    lost := min (l.lost + 1) 0xFFFFFFFF
    counts := if known then l.counts.map (fun p => if p.1 = code then (p.1, min (p.2 + 1) 0xFFFF) else p)
      else if l.counts.length < 246 then l.counts ++ [(code, 1)] else l.counts
    more := l.more || (!known && 246 ≤ l.counts.length) }

/-- The buffer takes in records, with peak and threshold (R401, R412). -/
def growBuffer (l : List Record) (s : State) : State :=
  let g := recsLen l
  let hit := s.log.thresh ≠ 0 && fill s < s.log.thresh && s.log.thresh ≤ g
  let s := { s with log.buf := l, log.peak := max s.log.peak g }
  if hit && !s.log.threshBit then setCause 7 { s with log.threshBit := true } else s

/-- Put a record at the end of the buffer (R401, R412). -/
def bufferRecord (r : Record) (s : State) : State := growBuffer (s.log.buf ++ [r]) { s with log.seqNew := r.seq }

/-- Drop oldest records, counting them, until `n` bytes fit under `limit`: the circular buffer of a
media-failed log (R408). -/
def dropOldest (n limit : Nat) : List Record → Rec → Rec
  | [], l => { l with buf := [] }
  | r :: rs, l =>
    if recsLen (r :: rs) + n ≤ limit then { l with buf := r :: rs }
    else dropOldest n limit rs (countEvent r.code r.opsec l)

/-- Fill that an event of a severity may reach (R402). -/
def fillLimit (sev : Nat) : Nat := if sev ≤ 1 then 229376 else 262144

/-- Keep the copy of an Error or Fatal event in the last-gasp ring of 64 (R404). -/
def gasp (r : Record) (s : State) : State :=
  if 3 ≤ r.sev then { s with log.lastgasp := (s.log.lastgasp ++ [r]).drop (s.log.lastgasp.length + 1 - 64) }
  else s

/-- Fire the vector of an event (R46, R47): Error and above vector 0, from the level up vector 1. -/
def fireVector (sev : Nat) (seq : Option Word) (s : State) : State :=
  if 3 ≤ sev || s.irq.evtLevel.toNat ≤ sev then
    setCause (if 3 ≤ sev then 0 else 1) (match seq with
      | some q => { s with irq.evtSeq := q }
      | none => s)
  else s

/-- Raise an event: discard it, store it or count it, keep a copy in the ring, fire its vector (R394 to
R396, R402 to R404, R408, R409). -/
def raise (code : BitVec 16) (sev : Nat) (items : List Word) (s : State) : State :=
  if filtered code sev s then s
  else
    let r := mkRecord code sev items s
    let stores := !(s.log.pf && sev < 3)
    let s := if s.log.mediaFail && stores then
        { s with log := dropOldest (recLen r) (fillLimit sev) s.log.buf s.log } else s
    if stores && fill s + recLen r ≤ fillLimit sev then
      let r := { r with seq := nextSeq s.log.seqNew }
      fireVector sev (some r.seq) (gasp r (bufferRecord r s))
    else
      fireVector sev none (gasp r { s with log := countEvent code r.opsec s.log })

/-- An event before it is raised. -/
structure Raised where
  code : BitVec 16
  sev : Nat
  items : List Word

/-- The order of events that reach the recorder in one cycle: by code, then by each item in turn (R396). -/
def itemsBefore : List Word → List Word → Bool
  | [], _ => true
  | _ :: _, [] => false
  | a :: as, b :: bs => a.toNat < b.toNat || (a = b && itemsBefore as bs)

/-- An event comes no later than another of the same cycle (R396). -/
def raisedBefore (a b : Raised) : Bool := a.code.toNat < b.code.toNat || (a.code = b.code && itemsBefore a.items b.items)

/-- Put an event among ordered ones. -/
def insertRaised (a : Raised) : List Raised → List Raised
  | [] => [a]
  | b :: l => if raisedBefore a b then a :: b :: l else b :: insertRaised a l

/-- Events that one cause raises in one cycle of the recorder take numbers in the order of R396 (log 11). -/
def raiseTogether (l : List Raised) (s : State) : State :=
  forAll (l.foldl (fun acc a => insertRaised a acc) []) (fun a s => raise a.code a.sev a.items s) s

/-- Raise an event under a rate limit: at most one per `gap` ticks for one code and key. `n` is how many
occurrences this one adds to the count that the event carries (R198, R234, R460). -/
def raiseLimited (code : BitVec 16) (sev key gap n : Nat) (items : Nat → List Word) (s : State) : State :=
  let k := code.toNat * 2 ^ 32 + key
  let e := tget {} s.log.rates k
  let may := match e.last with
    | none => true
    | some t => gap ≤ since t s
  if may then
    raise code sev (items (e.owed + n))
      { s with log.rates := tset {} s.log.rates k { last := some s.clk, owed := 0 } }
  else { s with log.rates := tset {} s.log.rates k { e with owed := e.owed + n } }

/-- A state transition: GLB_STATE, GLB_STATE_CAUSE, IRQ_CAUSE bit 0 and event 0xB006 (R27, R51, R54). The change of
state sets bit 0, not its event, so the event's seq does not go to IRQ_EVT_SEQ unless its severity sets bit 1
(R46, R47; log 73). -/
def enter (new : ModState) (cause : BitVec 16) (s : State) : State :=
  if s.glb.state = new then s
  else
    let old := s.glb.state
    let s := { s with
      glb.prev := BitVec.ofNat 4 (stateCode old), glb.state := new, glb.seq := s.glb.seq + 1,
      glb.cause := cause }
    raise 0xB006 1 [word (stateCode old), word (stateCode new), cause.setWidth 32] (setCause 0 s)

end Sys2Proof.Machine
end

