-- ==== Sys2Proof/Machine/Degrade.lean ====
section
/-! DEFINITION. Units and lanes by number, the degrading conditions of R53 and the evaluation of R52. -/

namespace Sys2Proof.Machine

def unitOf (s : State) (u : Nat) : FUnit := tget {} s.fabric.units u
def setUnit (u : Nat) (x : FUnit) (s : State) : State :=
  { s with fabric.units := tset {} s.fabric.units u x }
def modUnit (u : Nat) (f : FUnit → FUnit) (s : State) : State := setUnit u (f (unitOf s u)) s

def laneOf (s : State) (k : Nat) : Lane := tget {} s.fabric.lanes k
def setLane (k : Nat) (x : Lane) (s : State) : State :=
  { s with fabric.lanes := tset {} s.fabric.lanes k x }
def modLane (k : Nat) (f : Lane → Lane) (s : State) : State := setLane k (f (laneOf s k)) s

def eyeletOf (s : State) (e : Nat) : Option Eyelet := tget none s.fabric.eyelets e

/-- The key of a lane of a unit: 8 × port + lane, or 48 + n for OLn (R257, R259). -/
def laneKey (u lane : Nat) : Nat := if u < 6 then 8 * u + lane % 8 else 48 + lane % 32

/-- The lanes of a unit by number (R257, R259). -/
def unitLanes (u : Nat) (s : State) : List Nat :=
  if u < 6 then List.range 8
  else match eyeletOf s (u - 6) with
    | some e => (List.range 32).filter (fun n => bit e.lanes n)
    | none => []

/-- Port `u` is planned, or eyelet `u − 6` is defined (R285, R286). -/
def unitPlanned (u : Nat) (s : State) : Bool :=
  if u < 6 then bit s.fabric.planned u else (eyeletOf s (u - 6)).isSome

/-- A unit carries packets: Up, or an Unlaced eyelet with lanes in service (R285, R286). -/
def unitCarries (u : Nat) (s : State) : Bool :=
  let x := unitOf s u
  x.state = 4 || (6 ≤ u && x.state = 1 && (unitLanes u s).any (fun n =>
    (laneOf s (laneKey u n)).svc = .inService && !(laneOf s (laneKey u n)).deaf
      && ((laneOf s (laneKey u n)).heard || (laneOf s (laneKey u n)).kept)))

/-- A lane of an up, planned unit is out of service (R53, R267). -/
def laneOut (s : State) : Bool :=
  (List.range 22).any (fun u => unitPlanned u s && unitCarries u s
    && (unitLanes u s).any (fun n => (laneOf s (laneKey u n)).svc = .out || (laneOf s (laneKey u n)).deaf))

/-- The degrading conditions of R53 by bit. -/
def degradingList (s : State) : List Bool :=
  [s.fabric.units.any (fun p => p.2.missing), laneOut s, s.mem.chans.any (fun p => p.2.out),
   s.welt.laces.any (fun p => p.2.st = .unlocked), s.mon.failed ≠ 0]

/-- SYS_INFO word 8. -/
def degrading (s : State) : Nat := bitsNat (degradingList s)

/-- The bits of the jobs that meet a test (SYS_INFO). -/
def jobMask (p : JobStatus → Bool) (s : State) : Nat :=
  bitsNat (jobNos.map (fun j => p (jobOf s j).status))

/-- Some job is running (R52). -/
def anyRunning (s : State) : Bool := s.jobs.any (fun p => p.2.status = .running)

/-- The operating state that R52 gives. -/
def operatingState (s : State) : ModState :=
  if degrading s ≠ 0 then .degraded else if anyRunning s then .running else .ready

/-- Evaluate the operating state after a change that an event names (R52, R53). -/
def reevaluate (cause : BitVec 16) (s : State) : State :=
  if operating s then enter (operatingState s) cause s else s

end Sys2Proof.Machine
end

