-- ==== Sys2Proof/Machine/MemCode.lean ====
section
/-! DEFINITION. Tile SRAM and MRDIMM: their codes, reads and writes, address views and dirty bits (R69,
R202 to R204, R209 to R220, R227, R228, R234). -/

namespace Sys2Proof.Machine

/-! Who reads a word that meets an error, as events 0x2003 and 0x2011 name it (log 37). -/

/-- A MATRIX or VECTOR step, the DMA port sending, an answer to a request, a scrub, BAR2, the mirror engine,
Yarler. -/
def readerStep : Nat := 0
def readerSend : Nat := 1
def readerAnswer : Nat := 2
def readerScrub : Nat := 3
def readerBar2 : Nat := 4
def readerMirror : Nat := 5
def readerYarler : Nat := 6

/-! Tile SRAM (R69, R202 to R204). -/

/-- Bytes of one tile's SRAM: 6 MiB (R66). -/
def sramSize : Nat := 0x600000

/-- The address of a tile SRAM byte among all tiles. -/
def sramAddr (t off : Nat) : Nat := t * 2 ^ 23 + off

/-- The number of an aligned 8-byte word among all tiles. -/
def sramWord (t w : Nat) : Nat := t * 2 ^ 20 + w

/-- The bank of a tile SRAM offset (R69). -/
def bankOf (off : Nat) : Nat := off / 64 % 48

/-- The pattern of a line whose check symbols are stored inverted (R220). -/
def poisoned : List (BitVec 40) := [0xFF00000000]

/-- Event 0x2010: a corrected word (R234). -/
def sramCorrected (t w : Nat) (s : State) : State :=
  raiseLimited 0x2010 1 t (ticksS 10) 1 (fun n => [word t, word (bankOf (8 * w)), word n]) s

/-- Event 0x2011: an uncorrectable word (R234). -/
def sramBadWord (t w reader : Nat) (s : State) : State :=
  raiseLimited 0x2011 3 t (ticksS 1) 0 (fun _ => [word t, word (8 * w), word reader]) s

/-- The words of a range of bytes. -/
def wordsOf (off n : Nat) : List Nat :=
  if n = 0 then [] else (List.range ((off + n - 1) / 8 - off / 8 + 1)).map (· + off / 8)

/-- One word of a range is read: corrected with its rewrite queued, or uncorrectable (R202 to R204). -/
def sramReadWord (t reader w : Nat) (s : State) : State :=
  let k := sramWord t w
  match tget 0 s.mem.sramBad k with
  | 0 => s
  | 1 => sramCorrected t w { s with
      mem.sramRewrites := if s.mem.sramRewrites.contains k then s.mem.sramRewrites
        else s.mem.sramRewrites ++ [k] }
  | _ => sramBadWord t w reader s

/-- A range holds an uncorrectable word. -/
def sramUe (t off n : Nat) (s : State) : Bool :=
  (wordsOf off n).any (fun w => 2 ≤ tget 0 s.mem.sramBad (sramWord t w))

/-- The bytes of a range, zero in place of an uncorrectable word (R204). -/
def sramBytes (t off n : Nat) (s : State) : List Byte :=
  (List.range n).map (fun i =>
    if 2 ≤ tget 0 s.mem.sramBad (sramWord t ((off + i) / 8)) then 0
    else readByte s.mem.sram (sramAddr t (off + i)))

/-- What reading a range does to the state: corrections, their rewrites, events. -/
def sramTouch (t reader off n : Nat) (s : State) : State :=
  forAll (wordsOf off n) (sramReadWord t reader) s

/-- Write bytes: a word written whole has a fresh code, a queued rewrite of a word written is dropped
(R203, R204). -/
def sramWrite (t off : Nat) (bs : List Byte) (s : State) : State :=
  let n := bs.length
  let whole := fun w => off ≤ 8 * w && 8 * w + 8 ≤ off + n
  let ws := wordsOf off n
  { s with
    mem.sram := writeBytes s.mem.sram (sramAddr t off) bs
    mem.sramBad := ws.foldl (fun m w => if whole w then tset 0 m (sramWord t w) 0 else m) s.mem.sramBad
    mem.sramRewrites := s.mem.sramRewrites.filter (fun k => !(ws.map (sramWord t)).contains k) }

/-- Write zero to a range of a tile's SRAM (R67, R238). -/
def sramZero (t off n : Nat) (s : State) : State :=
  let lo := sramWord t (off / 8)
  let hi := sramWord t ((off + n) / 8)
  { s with
    mem.sram := zeroBytes s.mem.sram (sramAddr t off) n
    mem.sramBad := s.mem.sramBad.filter (fun p => p.1 < lo || hi ≤ p.1)
    mem.sramRewrites := s.mem.sramRewrites.filter (fun k => k < lo || hi ≤ k) }

/-! The Reed-Solomon code of MRDIMM (R214 to R218). -/

/-- α^i in GF(16) with the polynomial x^4 + x + 1. -/
def gfExp : Nat → Nat
  | 0 => 1
  | n + 1 => let y := 2 * gfExp n; if 16 ≤ y then (y - 16) ^^^ 3 else y

/-- The logarithm of a non-zero symbol. -/
def gfLog (x : Nat) : Nat := ((List.range 15).find? (fun i => gfExp i = x)).getD 0

/-- The product of two symbols. -/
def gfMul (x y : Nat) : Nat := if x = 0 || y = 0 then 0 else gfExp ((gfLog x + gfLog y) % 15)

/-- Symbol `i` of a beat. -/
def symbol (b : BitVec 40) (i : Nat) : Nat := field b (4 * i) 4

/-- Syndrome `j`, 1 or 2, of an error pattern; symbol `i` stands at α^i (log 37). -/
def syndrome (b : BitVec 40) (j : Nat) : Nat :=
  (List.range 10).foldl (fun x i => x ^^^ gfMul (symbol b i) (gfExp (i * j % 15))) 0

/-- Where the syndromes of a beat point: nowhere as there is no error, to a symbol and its correction, or
to no symbol (R216). -/
inductive Points where
  | clean
  | at (pos value : Nat)
  | none
deriving DecidableEq

/-- Where a beat's syndromes point. -/
def points (b : BitVec 40) : Points :=
  let x := syndrome b 1
  let y := syndrome b 2
  if x = 0 && y = 0 then .clean
  else if x = 0 || y = 0 then .none
  else
    let p := (gfLog y + 15 - gfLog x) % 15
    if p < 10 then .at p (gfMul x (gfExp ((15 - p) % 15))) else .none

/-- The class of a line (R216): clean, corrected at a position with what is left of each beat's error, or
uncorrectable. -/
inductive LineClass where
  | clean (left : List (BitVec 40))
  | ce (pos : Nat) (left : List (BitVec 40))
  | ue
deriving DecidableEq

/-- What is left of a beat's error after its correction. -/
def leftOf (b : BitVec 40) : BitVec 40 :=
  match points b with
  | .at p v => b ^^^ BitVec.ofNat 40 (v * 16 ^ p)
  | _ => b

/-- The class of a line's error pattern; a marked position is an erasure (R216, R218). -/
def classify (mark : Option Nat) (bs : List (BitVec 40)) : LineClass :=
  let l := bs.map points
  let ps := l.filterMap (fun p => match p with
    | .at i _ => some i
    | _ => Option.none)
  if bs = [] then .clean []
  else if bs.length ≠ 16 || l.contains .none then .ue
  else match ps with
    | [] => .clean bs
    | p :: _ => if ps.all (· = p) && (mark = Option.none || mark = some p) then .ce p (bs.map leftOf) else .ue

/-- The byte `i` of a line of what is left of its error: byte `i` travels in beat i / 4 (log 37). -/
def leftByte (left : List (BitVec 40)) (i : Nat) : Byte := BitVec.ofNat 8 (field (nth 0 left (i / 4)) (8 * (i % 4)) 8)

/-! MRDIMM lines (R215 to R220). -/

/-- The key of a line: channel and line number. -/
def lineKey (c line : Nat) : Nat := c * 2 ^ 32 + line

/-- The key of a byte: channel and channel-local address. -/
def dramAddr (c a : Nat) : Nat := c * 2 ^ 38 + a

/-- The rank of a line; line 0 of each subchannel lies in rank 0 (R224; log 37). -/
def rankOf (line : Nat) : Nat := if line < 2 then 0 else Config.lineRank line % 2

/-- The line that a read of a line gets (R215). -/
def lineFrom (c line : Nat) (s : State) : Nat := (tget none s.mem.astray (lineKey c line)).getD line

/-- The 40 bits of a beat by which a line from another address differs from what its check symbols say: the two
hashes, in the places of the data (R215). -/
def hashGap (line other : Nat) (beat : Nat) : BitVec 40 :=
  ((Config.lineHash line (rankOf line) beat) ^^^ (Config.lineHash other (rankOf other) beat)).setWidth 40

/-- What the hashes add to the error pattern of a line read, beat by beat: nothing for the line intended (R215). -/
def lineGap (c line : Nat) (s : State) : List (BitVec 40) :=
  if lineFrom c line s = line then [] else (List.range 16).map (hashGap line (lineFrom c line s))

/-- The error pattern that the decoder sees in a read of a line: what is wrong in the line that comes, and the hashes
when it is not the line intended (R215, R216). -/
def linePattern (c line : Nat) (s : State) : List (BitVec 40) :=
  let e := tget [] s.mem.lineErr (lineKey c (lineFrom c line s))
  if lineFrom c line s = line || e = poisoned then e
  else (List.range 16).map (fun i => nth 0 e i ^^^ nth 0 (lineGap c line s) i)

/-- The class of an error pattern on a line of a channel (R216, R218). -/
def patternClass (c line : Nat) (e : List (BitVec 40)) (s : State) : LineClass :=
  classify (tget none (chanOf s c).marks (rankOf line)) e

/-- The class of a line as it is read. -/
def lineClass (c line : Nat) (s : State) : LineClass := patternClass c line (linePattern c line s) s

/-! The capacity of a channel and its reserved area (R206, R209, R227). -/

/-- Channels that trained (R206). -/
def trainedChans (s : State) : List Nat := chanNos.filter (fun c => (chanOf s c).trained)

/-- C, in GiB: the capacity of the smallest DIMM that trained (R206). -/
def capGiB (s : State) : Nat :=
  match trainedChans s with
  | [] => 0
  | c :: l => l.foldl (fun m c => min m (chanOf s c).spdGiB) (chanOf s c).spdGiB

/-- C in bytes. -/
def cap (s : State) : Nat := capGiB s * 2 ^ 30

/-- A page's dirty bit stands in the bitmap: set, and not in the on-die cache alone (R227). -/
def bitmapBit (c p : Nat) (s : State) : Bool :=
  p < 2 ^ 22 && tget false s.mem.dirty (c * 2 ^ 22 + p) && !s.mem.recent.contains (c * 2 ^ 22 + p)

/-- A byte of a channel: in its reserved area eight bits of the dirty bitmap (R209, R227). -/
def cellByte (c a : Nat) (s : State) : Byte :=
  if cap s - 2 ^ 20 ≤ a && a < cap s then
    BitVec.ofNat 8 (bitsNat ((List.range 8).map (fun i => bitmapBit c (8 * (a - (cap s - 2 ^ 20)) + i) s)))
  else readByte s.mem.dram (dramAddr c a)

/-- One byte as the controller returns it: the data of the line that comes, what the decoder corrects put right (R215,
R216). -/
def dramByte (c a : Nat) (s : State) : Byte :=
  let b := cellByte c (64 * lineFrom c (a / 64) s + a % 64) s
  match lineClass c (a / 64) s with
  | .clean l => b ^^^ leftByte l (a % 64) ^^^ leftByte (lineGap c (a / 64) s) (a % 64)
  | .ce _ l => b ^^^ leftByte l (a % 64) ^^^ leftByte (lineGap c (a / 64) s) (a % 64)
  | .ue => b

/-- The bytes of a range. -/
def dramBytes (c a n : Nat) (s : State) : List Byte := (List.range n).map (fun i => dramByte c (a + i) s)

/-! Reads of lines (R215 to R220, R225). -/

/-- A line's correction rewrite is queued with the corrected bytes, unless one is (R217). -/
def queueRewrite (c line : Nat) (s : State) : State :=
  let k := lineKey c line
  if s.mem.rewrites.any (·.1 = k) then s
  else { s with mem.rewrites := s.mem.rewrites ++ [(k, dramBytes c (64 * line) 64 s)] }

/-- A line's queued rewrite is dropped (R217). -/
def dropRewrite (c line : Nat) (s : State) : State :=
  { s with mem.rewrites := s.mem.rewrites.filter (·.1 ≠ lineKey c line) }

/-- A corrected read: counts, the mark of a device, events 0x2001 and 0x2002, and the rewrite (R217, R218,
R225, R234). -/
def lineCorrected (c line pos : Nat) (s : State) : State :=
  let rank := rankOf line
  let ch := chanOf s c
  let day := fun (x : Nat × Nat × Nat × Nat) => since x.2.2.2 s < ticksS 86400
  let lines := (rank, pos, line, s.clk) ::
    ch.ceLines.filter (fun x => day x && !(x.1 = rank && x.2.1 = pos && x.2.2.1 = line))
  let times := s.clk :: ch.ceTimes.filter (fun t => since t s < ticksS 3600)
  let mark := tget none ch.marks rank = none
    && 16 ≤ (lines.filter (fun x => x.1 = rank && x.2.1 = pos)).length
  let s := modChan c (fun ch => { ch with
    ceLines := lines, ceTimes := times
    noisyAt := if 1024 < times.length then s.clk else ch.noisyAt
    marks := if mark then tset none ch.marks rank (some pos) else ch.marks }) (queueRewrite c line s)
  let s := raiseLimited 0x2001 1 c (ticksS 10) 1
    (fun n => [word c, word rank, word pos] ++ dwords (64 * line) ++ [word n]) s
  if mark then raise 0x2002 2 [word c, word rank, word pos] s else s

/-- Event 0x2003: an uncorrectable line (R220, R234). -/
def lineBad (c line reader : Nat) (s : State) : State :=
  raiseLimited 0x2003 3 c (ticksS 1) 0
    (fun _ => [word c, word (rankOf line)] ++ dwords (64 * line) ++ [word reader]) s

/-- The misdirected read of a line is over (R215). -/
def lineFound (c line : Nat) (s : State) : State :=
  { s with mem.astray := tset none s.mem.astray (lineKey c line) none }

/-- A line is read. -/
def lineRead (c reader line : Nat) (s : State) : State :=
  match lineClass c line s with
  | .clean _ => lineFound c line s
  | .ce p _ => lineFound c line (lineCorrected c line p s)
  | .ue => lineFound c line (lineBad c line reader s)

/-- The error patterns that the surroundings give a command, put into the memory (R202, R216), and the lines that its
next read gets from another address (R215). An uncorrectable line stays so until it is written whole (R220). -/
def inject (l : List Flaw) (s : State) : State :=
  forAll l (fun f s => match f with
    | .sram t w b => { s with mem.sramBad := tset 0 s.mem.sramBad (sramWord t w) (min b 2) }
    | .dram c n bs =>
      let k := lineKey c (n % 2 ^ 32)
      if patternClass c (n % 2 ^ 32) (tget [] s.mem.lineErr k) s = .ue then s
      else { s with mem.lineErr := tset [] s.mem.lineErr k (padTo 0 16 bs) }
    | .misread c n m =>
      { s with mem.astray := tset none s.mem.astray (lineKey c (n % 2 ^ 32)) (some (m % 2 ^ 32)) }) s

/-- The lines of a range of bytes. -/
def linesOf (a n : Nat) : List Nat :=
  if n = 0 then [] else (List.range ((a + n - 1) / 64 - a / 64 + 1)).map (· + a / 64)

/-- A range holds an uncorrectable line. -/
def dramUe (c a n : Nat) (s : State) : Bool := (linesOf a n).any (fun l => lineClass c l s = .ue)

/-- What reading a range does to the state. -/
def dramTouch (c reader a n : Nat) (s : State) : State := forAll (linesOf a n) (lineRead c reader) s

/-- A line is written whole with a fresh code (R217, R220). -/
def lineStore (c line : Nat) (bs : List Byte) (s : State) : State :=
  { s with
    mem.dram := writeBytes s.mem.dram (dramAddr c (64 * line)) bs
    mem.lineErr := tset [] s.mem.lineErr (lineKey c line) []
    mem.rewrites := s.mem.rewrites.filter (·.1 ≠ lineKey c line) }

/-- The corrected bytes of a line whose rewrite is queued are written back (R217). -/
def lineRewrite (c line : Nat) (s : State) : State :=
  match s.mem.rewrites.find? (·.1 = lineKey c line) with
  | some r => lineStore c line r.2 s
  | none => s

/-- A line before new bytes are written to it: whole, partly, and partly to an uncorrectable line (R220).
A partial write reads the line first, so that the bytes it leaves are those that the decoder gives (R216; log 37). -/
def linePrepare (c writer a n line : Nat) (s : State) : State :=
  let whole := a ≤ 64 * line && 64 * line + 64 ≤ a + n
  let got := fun (s' : State) => lineFound c line (lineStore c line (dramBytes c (64 * line) 64 s) s')
  let s' := dropRewrite c line s
  if whole then { s' with mem.lineErr := tset [] s.mem.lineErr (lineKey c line) [] }
  else match lineClass c line s with
    | .clean [] => s'
    | .clean _ => got s
    | .ce p _ => got (lineCorrected c line p s)
    | .ue =>
      raiseLimited 0x2004 2 c (ticksS 1) 0 (fun _ => [word c] ++ dwords (64 * line) ++ [word writer])
        (lineFound c line { s' with mem.lineErr := tset [] s.mem.lineErr (lineKey c line) poisoned })

/-- A page's dirty bit is set; the on-die cache holds the latest set (R227; log 37). -/
def setDirtyBit (k : Nat) (s : State) : State :=
  { s with mem.dirty := tset false s.mem.dirty k true
           mem.recent := (k :: s.mem.recent.filter (· ≠ k)).take Config.dirtyCache }

/-- The dirty bits of the pages of a range (R227, R228). -/
def setDirty (c a n : Nat) (s : State) : State :=
  if n = 0 then s
  else forAll ((List.range ((a + n - 1) / 65536 - a / 65536 + 1)).map (· + a / 65536))
    (fun p => setDirtyBit (c * 2 ^ 22 + p)) s

/-- Write bytes to a channel; `mark` when the write sets dirty bits (R228). -/
def dramWrite (mark : Bool) (writer c a : Nat) (bs : List Byte) (s : State) : State :=
  let n := bs.length
  let s := forAll (linesOf a n) (linePrepare c writer a n) s
  let s := { s with mem.dram := writeBytes s.mem.dram (dramAddr c a) bs }
  if mark then setDirty c a n s else s

/-- Write zero to a range of lines of a channel, with valid codes (R208). -/
def dramZero (c a n : Nat) (s : State) : State :=
  let lo := lineKey c (a / 64)
  let hi := lineKey c ((a + n) / 64)
  { s with
    mem.dram := zeroBytes s.mem.dram (dramAddr c a) n
    mem.lineErr := s.mem.lineErr.filter (fun p => p.1 < lo || hi ≤ p.1)
    mem.rewrites := s.mem.rewrites.filter (fun r => r.1 < lo || hi ≤ r.1) }

/-! Views (R206, R209 to R213). -/

/-- The channels in service (R207). -/
def inServiceChans (s : State) : List Nat := chanNos.filter (fun c => (chanOf s c).inService)

/-- Ways of a view; 0 for a reserved one (R210). -/
def viewWays : Nat → Nat
  | 0 => 1 | 1 => 2 | 2 => 3 | 3 => 4 | 4 => 6 | 5 => 12 | _ => 0

/-- A set of a view is fully in service (R211). -/
def setInService (view k : Nat) (s : State) : Bool :=
  let w := viewWays view
  w ≠ 0 && k < 12 / w && (List.range w).all (fun i => (chanOf s (k * w + i)).inService)

/-- The channel and channel-local address of a view address (R211). -/
def viewDecode (view addr : Nat) (s : State) : Nat × Nat :=
  let w := viewWays view
  let k := addr / (w * cap s)
  let a := addr % (w * cap s)
  let g := a / 4096
  (k * w + g % w, g / w * 4096 + a % 4096)

/-- A view address lies within installed memory (R209, R211). -/
def viewInstalled (view addr : Nat) (s : State) : Bool :=
  let w := viewWays view
  cap s ≠ 0 && setInService view (addr / (w * cap s)) s && (viewDecode view addr s).2 < cap s - 2 ^ 20

/-- The pieces of a range of a view by granule: channel, channel-local address, bytes (R212). -/
def viewPieces (view : Nat) (s : State) : Nat → Nat → Nat → List (Nat × Nat × Nat)
  | 0, _, _ => []
  | fuel + 1, addr, n =>
    if n = 0 then []
    else
      let k := min n (4096 - addr % 4096)
      let d := viewDecode view addr s
      (d.1, d.2, k) :: viewPieces view s fuel (addr + k) (n - k)

/-- The pieces of a range of a space-0 offset, none when any lies beyond installed memory (R211, R212). -/
def spans (off n : Nat) (s : State) : Option (List (Nat × Nat × Nat)) :=
  let view := off / 2 ^ 42 % 8
  let addr := off % 2 ^ 42
  let ok := (List.range (n / 4096 + 2)).all (fun i =>
    let a := if i = 0 then addr else addr / 4096 * 4096 + 4096 * i
    addr + n ≤ a || viewInstalled view a s)
  if ok && n ≠ 0 then some (viewPieces view s (n / 4096 + 2) addr n) else none

/-! Reads and writes over pieces. -/

def piecesUe (l : List (Nat × Nat × Nat)) (s : State) : Bool := l.any (fun p => dramUe p.1 p.2.1 p.2.2 s)

def piecesBytes (l : List (Nat × Nat × Nat)) (s : State) : List Byte :=
  l.flatMap (fun p => dramBytes p.1 p.2.1 p.2.2 s)

def piecesTouch (reader : Nat) (l : List (Nat × Nat × Nat)) (s : State) : State :=
  forAll l (fun p => dramTouch p.1 reader p.2.1 p.2.2) s

def piecesWrite (mark : Bool) (writer : Nat) : List (Nat × Nat × Nat) → List Byte → State → State
  | [], _, s => s
  | p :: l, bs, s =>
    piecesWrite mark writer l (bs.drop p.2.2) (dramWrite mark writer p.1 p.2.1 (bs.take p.2.2) s)

/-- The pages of a list of pieces: channel and page (R213). -/
def piecePages (l : List (Nat × Nat × Nat)) : List (Nat × Nat) :=
  l.map (fun p => (p.1, p.2.1 / 65536))

/-- The job that holds a page (R249). -/
def pageOwner (c p : Nat) (s : State) : Option Nat :=
  (s.place.owned.find? (fun o => o.chan = c && o.lo ≤ p && p < o.hi)).map (·.job)

end Sys2Proof.Machine
end

