-- ==== Sys2Proof/Machine/Mesh.lean ====
section
/-! DEFINITION. The on-die mesh between the units of the module, and the front ends of the memory controllers (R183,
R200, R201, R230 to R232). A packet crosses the mesh in the passes of `meshPass`: a tick makes one, and the commands that
take packets off the mesh make as many as it takes (log 70). -/

namespace Sys2Proof.Machine

/-! What is attached to the mesh (R200). -/

/-- The units attached besides the tiles: the host interface, torus ports and eyelets, the mirror engine, Yarler, the
memory controllers. -/
def atHost : Nat := 64
def atUnit (u : Nat) : Nat := 65 + u
def atMirror : Nat := 87
def atYarler : Nat := 88
def atChan (c : Nat) : Nat := 89 + c

/-- The first lane of an eyelet, where the mesh meets it. -/
def firstLane (e : Nat) (s : State) : Nat :=
  match eyeletOf s e with
  | some x => ((List.range 32).find? (fun n => bit x.lanes n)).getD 0
  | none => 0

/-- The node that a unit is attached to (R200). -/
def nodeOf (a : Nat) (s : State) : Nat :=
  if a < 64 then a
  else if a = atHost then 0
  else if a < atUnit 6 then 8 * (a - 64)
  else if a < atMirror then 8 * (firstLane (a - atUnit 6) s / 4) + 7
  else if a < atChan 0 then 56
  else if a < atChan 6 then a - atChan 0 + 1
  else a - atChan 6 + 57

/-! Packets. -/

/-- Units of 64 bytes that a packet takes (R269). -/
def pktUnits (p : Pkt) : Nat := (12 + p.bytes.length + 63) / 64

/-- The header fields of a request that tell where it goes and who sends it (R175). -/
def reqDest (p : Pkt) : Nat := leNat ((p.bytes.drop 16).take 8)
def reqLen (p : Pkt) : Nat := leNat ((p.bytes.drop 12).take 2) % 4096 + 1
def reqTile (p : Pkt) : Nat := leNat ((p.bytes.drop 10).take 1) % 64
def reqSource (p : Pkt) : Nat := leNat ((p.bytes.drop 10).take 1) / 64

/-- The pieces of a request for MRDIMM by channel; none for other memory, and where none is installed (R212). -/
def reqPieces (p : Pkt) (s : State) : List (Nat × Nat × Nat) :=
  let d := reqDest p
  if d / 2 ^ 45 % 8 = 0 then (spans (d % 2 ^ 45) (reqLen p) s).getD [] else []

/-- The controllers that a request reaches, each once. -/
def reqChans (p : Pkt) (s : State) : List Nat := ((reqPieces p s).map (·.1)).eraseDups

/-- The controller that a request for MRDIMM reaches first; none for memory that is not installed. -/
def reqChan (p : Pkt) (s : State) : Option Nat := (reqChans p s).head?

/-- The controller that a request reaches after another. -/
def chanAfter (c : Nat) (p : Pkt) (s : State) : Option Nat := (((reqChans p s).dropWhile (· ≠ c)).drop 1).head?

/-- The unit that a request delivered here goes to: a controller, a tile, Yarler (R168). -/
def reqGoal (p : Pkt) (s : State) : Nat :=
  let d := reqDest p
  match reqChan p s with
  | some c => atChan c
  | none => if d / 2 ^ 45 % 8 = 1 then d / 2 ^ 23 % 64 else if d / 2 ^ 45 % 8 = 2 then d / 2 ^ 6 % 64 else atYarler

/-- The initiator that a response delivered here goes to (R155, R191). -/
def respGoal (p : Pkt) (s : State) : Nat :=
  let w := (tget {} s.stitch.table (leNat ((p.bytes.drop 4).take 2) % 2 ^ 14)).owner
  if w < 64 then w else if w = 64 then atMirror else atYarler

/-- The unit of this module that a packet delivered here goes to. -/
def localGoal (p : Pkt) (s : State) : Nat := if p.cls = 1 then respGoal p s else reqGoal p s

/-- The unit that a packet comes from: the one it arrived on, or its initiator. -/
def pktFrom (p : Pkt) : Nat :=
  if p.src0 < 22 then atUnit p.src0
  else match reqSource p with
    | 0 => reqTile p
    | 1 => atMirror
    | _ => atYarler

/-! Memory front ends (R230 to R232). -/

def frontOf (c : Nat) (s : State) : Front := tget {} s.fabric.fronts c
def setFront (c : Nat) (x : Front) (s : State) : State := { s with fabric.fronts := tset {} s.fabric.fronts c x }

/-- The requesters at a controller: tiles, the host interface, the units, the mirror engine, Yarler (R230). -/
def frontRequesters : Nat := 89

/-- The class of a request at a controller (R230). -/
def frontClass (p : Pkt) : Nat :=
  if p.cls = 2 then 2 else if p.src0 ≥ 22 && pktFrom p = atYarler then 3 else 0

/-- The class weights of a controller: Request 82, Mirror 8, Management 10 (R231). -/
def frontWeight (c : Nat) : Nat := if c = 0 then 82 else if c = 2 then 8 else 10

/-- The lines of a request at a controller, the first and the one after the last of each piece (R212). -/
def reqSpans (c : Nat) (p : Pkt) (s : State) : List (Nat × Nat) :=
  ((reqPieces p s).filter (·.1 = c)).map (fun x => (x.2.1 / 64, (x.2.1 + x.2.2 + 63) / 64))

/-- Line requests of a request at a controller. -/
def reqLines (c : Nat) (p : Pkt) (s : State) : Nat := ((reqSpans c p s).map (fun x => x.2 - x.1)).sum

/-- Two requests reach one line of a controller. -/
def sameLine (c : Nat) (p q : Pkt) (s : State) : Bool :=
  (reqSpans c p s).any (fun x => (reqSpans c q s).any (fun y => x.1 < y.2 && y.1 < x.2))

/-- A requester has room for a request at a controller, where it holds at most 64 line requests: of a segment of 65 lines
that waits alone the last waits in the mesh (R231). -/
def frontRoom (c : Nat) (p : Pkt) (s : State) : Bool :=
  let mine := (frontOf c s).q.filter (fun w => pktFrom w.pkt = pktFrom p)
  mine.isEmpty || (mine.map (·.lines)).sum + reqLines c p s ≤ 64

/-- Mirror-class lines that a channel may still carry in 10 µs: 1,280 in all (R232). -/
def mirrorLines (x : Front) (s : State) : Nat :=
  1280 - ((x.mirror.filter (fun m => since m.1 s < ticksUs 10)).map (·.2)).sum

/-- The first waiting request of each requester at a controller. -/
def frontHeads (x : Front) : List Waiting :=
  x.q.foldl (fun l w => if l.any (fun h => pktFrom h.pkt = pktFrom w.pkt) then l else l ++ [w]) []

/-- The next line of a waiting request as the arbiter sees it (R278). -/
def frontClaim (w : Waiting) : Claim := { req := pktFrom w.pkt, cls := frontClass w.pkt, units := 1 }

/-- A request that came before another to one line of a controller has not been performed: it waits there, or at a
controller that it reaches later (R212). -/
def lineBusy (c : Nat) (w : Waiting) (s : State) : Bool :=
  ((frontOf c s).q.takeWhile (· ≠ w)).any (fun v => sameLine c v.pkt w.pkt s)
    || s.fabric.fronts.any (fun f => f.1 ≠ c && f.2.q.any (fun v =>
      ((reqChans v.pkt s).takeWhile (· ≠ f.1)).contains c && sameLine c v.pkt w.pkt s))

/-- The requests of which a controller can take a line now: none while it retrains (R221), Mirror class within its cap
(R232), in the order of each line (R212), the last line with room at the controller that the request reaches next. -/
def frontEligible (c : Nat) (s : State) : List Waiting :=
  let x := frontOf c s
  let onward := fun (w : Waiting) => match chanAfter c w.pkt s with
    | some d => frontRoom d w.pkt s
    | none => true
  if (chanOf s c).retraining then []
  else (frontHeads x).filter (fun w => (frontClass w.pkt ≠ 2 || 1 ≤ mirrorLines x s) && !lineBusy c w s
    && (1 < w.lines || onward w))

/-- The lines that a grant of the Mirror class leaves in its window. -/
def mirrorAfter (cls lines : Nat) (x : Front) (s : State) : List (Nat × Nat) :=
  let recent := x.mirror.filter (fun m => since m.1 s < ticksUs 10)
  if cls = 2 then recent ++ [(s.clk, lines)] else recent

/-- A line of the first request of a requester is granted; a request with no line left is gone. -/
def lineTaken (who : Nat) : List Waiting → List Waiting
  | [] => []
  | w :: l =>
    if pktFrom w.pkt ≠ who then w :: lineTaken who l
    else if w.lines ≤ 1 then l else { w with lines := w.lines - 1 } :: l

/-- A request reaches a controller. -/
def frontPut (c : Nat) (p : Pkt) (s : State) : State :=
  setFront c { frontOf c s with q := (frontOf c s).q ++ [{ pkt := p, lines := reqLines c p s }] } s

/-- A controller takes a line of a request; with its last the request goes to its next controller, or is performed next
(R212, R231). -/
def frontTake (c : Nat) (w : Claim) (a : Arb) (s : State) : State :=
  let x := frontOf c s
  let s' := setFront c { q := lineTaken w.req x.q, arb := a, mirror := mirrorAfter w.cls 1 x s } s
  match x.q.find? (fun v => pktFrom v.pkt = w.req) with
  | none => s'
  | some v =>
    if 1 < v.lines then s'
    else match chanAfter c v.pkt s with
      | some d => frontPut d v.pkt s'
      | none => { s' with fabric.inReq := s'.fabric.inReq ++ [v.pkt] }

/-- A grant of a controller's front end: one line (R231). -/
def frontGrant (c : Nat) (s : State) : State :=
  match (frontOf c s).arb.grant s.clk s.fabric.ptr0 frontRequesters frontWeight ((frontEligible c s).map frontClaim) with
  | none => s
  | some (w, a) => frontTake c w a s

/-- Line requests that wait at the controllers. -/
def frontLines (s : State) : Nat := (s.fabric.fronts.map (fun f => (f.2.q.map (·.lines)).sum)).sum

/-- Grants until the controller grants a line to the host interface, the mirror engine or Yarler: others that the arbiter
puts first are granted before (R230, R231). -/
def frontTurn (who cls c : Nat) : Nat → State → State
  | 0, s => s
  | n + 1, s =>
    let x := frontOf c s
    let me : Claim := { req := who, cls := cls, units := 1 }
    let l := me :: ((frontEligible c s).map frontClaim).filter (fun y => y.req ≠ who)
    match x.arb.grant s.clk s.fabric.ptr0 frontRequesters frontWeight l with
    | none => s
    | some (w, a) =>
      if w.req = who then setFront c { x with arb := a, mirror := mirrorAfter cls 1 x s } s
      else frontTurn who cls c n (frontTake c w a s)

/-- Lines granted one after another at a controller where nothing else waits. -/
def frontAlone (who cls lines c : Nat) (s : State) : State :=
  let x := frontOf c s
  let a := x.arb.look s.clk [{ req := who, cls := cls, units := 1 }]
  setFront c { x with
    arb := { a with heads := tset none a.heads who none, passed := tset 0 a.passed who 0
                    vt := tset 0 a.vt cls (tget 0 a.vt cls + lines * (65536 / frontWeight cls)) }
    mirror := mirrorAfter cls lines x s } s

/-- The host interface, the mirror engine or Yarler reads or writes lines of a controller by a command of its own: each
line has its turn there (R230, R231; log 70). -/
def frontCharge (who cls lines c : Nat) (s : State) : State :=
  if (frontEligible c s).isEmpty then frontAlone who cls lines c s
  else forAll (List.range lines) (fun _ s => frontTurn who cls c (frontLines s + 1) s) s

/-- The same for every piece of a range (R212). -/
def chargePieces (who cls : Nat) (l : List (Nat × Nat × Nat)) (s : State) : State :=
  forAll l (fun p => frontCharge who cls ((p.2.1 % 64 + p.2.2 + 63) / 64) p.1) s

/-! The credit for an answer (R183). -/

/-- Bytes of the response that answers a request packet (R176). -/
def answerBytes (p : Pkt) : Nat :=
  let op := leNat (p.bytes.take 1) % 64
  if op = 3 then 20 + reqLen p
  else if op = 0x31 || op = 0x33 || op = 0x35 then 28
  else if 0x30 ≤ op && op ≤ 0x35 then 24 else 20

/-- The response to a request as far as its credit goes. -/
def answerPkt (p : Pkt) (s : State) : Pkt :=
  { cls := 1, dest := p.src, src := s.glb.moduleId.toNat, tag := p.tag, bytes := List.replicate (answerBytes p) 0 }

/-- A packet on the mesh goes to a torus port or an eyelet. -/
def MPkt.outward (m : MPkt) : Bool := atUnit 0 ≤ m.goal && m.goal < atMirror

/-- Requests that a unit of the module has taken off the mesh and not answered yet. -/
def takenRequests (s : State) : List Pkt :=
  s.fabric.fronts.flatMap (fun f => f.2.q.map (·.pkt)) ++ s.fabric.inReq ++ s.resil.held.map (·.pkt)

/-- Requests that have been taken and await their answer. -/
def unanswered (s : State) : List Pkt :=
  (s.fabric.mesh.bufs.flatMap (fun b => b.2)).filterMap (fun m =>
      if m.pkt.cls ≠ 1 && !m.outward then some m.pkt else none) ++ takenRequests s

/-! The mesh (R200, R201). -/

/-- The way of a link out of a node towards another: along the row, then along the column; 4 to the units there
(R201). -/
def wayTo (node goal : Nat) : Nat :=
  if node % 8 < goal % 8 then 0 else if goal % 8 < node % 8 then 1
  else if node / 8 < goal / 8 then 2 else if goal / 8 < node / 8 then 3 else 4

/-- The node at the other end of a link. -/
def nodeBeyond (node way : Nat) : Nat :=
  if way = 0 then node + 1 else if way = 1 then node - 1 else if way = 2 then node + 8 else node - 8

/-- The key of a buffer. -/
def bufKey (node way cls : Nat) : Nat := 4 * (5 * node + way) + cls

def bufOf (k : Nat) (s : State) : List MPkt := tget [] s.fabric.mesh.bufs k
def setBuf (k : Nat) (l : List MPkt) (s : State) : State :=
  { s with fabric.mesh.bufs := tset [] s.fabric.mesh.bufs k l }

/-- A packet goes onto the mesh at a unit, for another. -/
def meshPut (src goal : Nat) (p : Pkt) (s : State) : State :=
  let k := bufKey (nodeOf src s) 4 p.cls
  setBuf k (bufOf k s ++ [{ pkt := p, goal := goal }]) s

/-- A buffer has room for a packet, its credits held: an empty one has (log 70). -/
def bufRoom (k : Nat) (p : Pkt) (s : State) : Bool :=
  let l := bufOf k s
  l.isEmpty || (l.map (fun m => pktUnits m.pkt)).sum + pktUnits p ≤ Config.meshRoom

/-- Bytes of the Mirror class that a mesh link may carry in 10 µs: 10 % of 2,048 bytes at 1.8 GHz (R200, R282). -/
def meshMirrorCap : Nat := 3686400

/-- The Mirror cap of a link admits a packet now. -/
def meshMirrorOk (link : Nat) (p : Pkt) (s : State) : Bool :=
  p.cls ≠ 2 || ((((tget [] s.fabric.mesh.mirror link).filter (fun m => since m.1 s < ticksUs 10)).map (·.2)).sum
    + 12 + p.bytes.length ≤ meshMirrorCap)

/-- The Response-class credit for the answer is held where the target meets the mesh, beside those owed there (R183). -/
def answerRoom (m : MPkt) (s : State) : Bool :=
  let node := nodeOf m.goal s
  let owed := (takenRequests s).filter (fun p => nodeOf (reqGoal p s) s = node)
  let waiting := bufOf (bufKey node 4 1) s
  (owed.isEmpty && waiting.isEmpty) || (owed.map (fun p => pktUnits (answerPkt p s))).sum
    + (waiting.map (fun w => pktUnits w.pkt)).sum + pktUnits (answerPkt m.pkt s) ≤ Config.meshRoom

/-- A unit takes a packet off the mesh: a request within R183, at a controller within R231 also; every other packet
always. -/
def unitTakes (m : MPkt) (s : State) : Bool :=
  m.outward || m.pkt.cls = 1
    || (answerRoom m s && (m.goal < atChan 0 || frontRoom (m.goal - atChan 0) m.pkt s))

/-- The packets at a node that a link can take now, each with the key of its buffer. -/
def meshHeads (node way : Nat) (s : State) : List (Nat × MPkt) :=
  ((List.range 20).map (fun i => 20 * node + i)).filterMap (fun k => match bufOf k s with
    | [] => none
    | m :: _ =>
      let there := if way = 4 then unitTakes m s else bufRoom (bufKey (nodeBeyond node way) way m.pkt.cls) m.pkt s
      if wayTo node (nodeOf m.goal s) = way && there && meshMirrorOk (5 * node + way) m.pkt s then some (k, m) else none)

/-- A packet leaves the mesh at its unit. -/
def meshLeave (m : MPkt) (s : State) : State :=
  if m.outward then
    modUnit (m.goal - atUnit 0) (fun x => { x with txq := x.txq ++ [m.pkt] }) s
  else if m.pkt.cls = 1 then { s with fabric.inResp := s.fabric.inResp ++ [m.pkt] }
  else if atChan 0 ≤ m.goal then frontPut (m.goal - atChan 0) m.pkt s
  else { s with fabric.inReq := s.fabric.inReq ++ [m.pkt] }

/-- A packet at the head of a buffer as the arbiter of a link sees it (R278). -/
def meshClaim (x : Nat × MPkt) : Claim := { req := x.1 % 20, cls := x.2.pkt.cls, units := pktUnits x.2.pkt }

/-- A cycle of a link in which nothing may be granted (R278). -/
def meshLook (node way : Nat) (s : State) : State :=
  let link := 5 * node + way
  let a := (tget {} s.fabric.mesh.arbs link).look s.clk ((meshHeads node way s).map meshClaim)
  { s with fabric.mesh.arbs := tset {} s.fabric.mesh.arbs link a }

/-- One grant of a link, by the default class weights (R201, R281). -/
def meshGrant (node way : Nat) (s : State) : State :=
  let link := 5 * node + way
  let l := meshHeads node way s
  match (tget {} s.fabric.mesh.arbs link).grant s.clk s.fabric.ptr0 20 (fun c => if c < 2 then 40 else 10)
      (l.map meshClaim) with
  | none => meshLook node way s
  | some (w, a) => match l.find? (fun x => x.1 % 20 = w.req) with
    | none => s
    | some (k, m) =>
      let sent := ((tget [] s.fabric.mesh.mirror link).filter (fun t => since t.1 s < ticksUs 10))
        ++ (if m.pkt.cls = 2 then [(s.clk, 12 + m.pkt.bytes.length)] else [])
      let s := setBuf k (bufOf k s).tail { s with
        fabric.mesh.arbs := tset {} s.fabric.mesh.arbs link a
        fabric.mesh.mirror := tset [] s.fabric.mesh.mirror link sent }
      if way = 4 then meshLeave m s
      else
        let next := bufKey (nodeBeyond node way) way m.pkt.cls
        setBuf next (bufOf next s ++ [m]) s

/-- The links that some packet wants, each once. -/
def wantedLinks (s : State) : List (Nat × Nat) :=
  (s.fabric.mesh.bufs.filterMap (fun b => match b.2 with
    | [] => none
    | m :: _ => some (b.1 / 20, wayTo (b.1 / 20) (nodeOf m.goal s)))).eraseDups

/-- One pass: every link that a packet wants makes one grant. -/
def meshPass (s : State) : State := forAll (wantedLinks s) (fun l => meshGrant l.1 l.2) s

/-- Passes until nothing is left on the mesh, at most `n`. -/
def meshPasses : Nat → State → State
  | 0, s => s
  | n + 1, s => if s.fabric.mesh.bufs.isEmpty then s else meshPasses n (meshPass s)

/-- Every packet goes as far as it can. -/
def meshSettle (s : State) : State :=
  meshPasses (16 + (s.fabric.mesh.bufs.map (fun b => b.2.length)).sum) s

/-- A cycle of every link of the mesh that has been granted or has a packet to take (R278). -/
def meshLookAll (s : State) : State :=
  let known : List Nat := s.fabric.mesh.arbs.map (·.1)
  let wanted : List Nat := (wantedLinks s).map (fun l => 5 * l.1 + l.2)
  forAll (known ++ wanted).eraseDups (fun l => meshLook (l / 5) (l % 5)) s

/-- Grants of the controllers until a request has all its lines. -/
def frontGrants : Nat → State → State
  | 0, s => s
  | n + 1, s =>
    if !s.fabric.inReq.isEmpty then s
    else match chanNos.find? (fun c => !(frontEligible c s).isEmpty) with
      | some c => frontGrants n (frontGrant c s)
      | none => s

/-- The request that its memory takes next: those that have come, else what the controllers grant next. -/
def nextRequest (s : State) : State :=
  if !s.fabric.inReq.isEmpty then s
  else
    let s := meshSettle s
    frontGrants (66 * frontLines s) s

/-- The response that an initiator handles next. -/
def nextResponse (s : State) : State := if s.fabric.inResp.isEmpty then meshSettle s else s

/-- A packet is delivered to this module's memory or initiator over the mesh (R271). -/
def deliverLocal (src : Nat) (p : Pkt) (s : State) : State := meshPut src (localGoal p s) p s

/-- A packet goes over the mesh to the unit that it leaves by. -/
def queuePacket (src u : Nat) (p : Pkt) (s : State) : State := meshPut src (atUnit u) p s

end Sys2Proof.Machine
end

