-- ==== Sys2Proof/Machine/Float.lean ====
section
/-! DEFINITION. The number formats of the engines, exact values, rounding and conversion (R80 to R88, R94
to R103). -/

namespace Sys2Proof.Machine

/-- An exact value: not a number, an infinity, or (-1)^neg × n / d × 2^e. -/
inductive Val where
  | nan
  | inf (neg : Bool)
  | fin (neg : Bool) (n d : Nat) (e : Int)
deriving DecidableEq, Repr

/-- A floating format of R81: width, mantissa bits, bias, the code of the largest finite magnitude, the
code that a NaN converts to, whether the code after the largest finite one is infinity, and whether a
value beyond range becomes infinity (R99). -/
structure Fmt where
  w : Nat
  mb : Nat
  bias : Nat
  maxBits : Nat
  nanBits : Nat
  hasInf : Bool
  ovfInf : Bool

/-- FP32, in which all intermediate results stand. -/
def fp32 : Fmt := ⟨32, 23, 127, 0x7F7FFFFF, 0x7FC00000, true, true⟩

/-- The floating formats by their codes of R80. -/
def fmtOf : Nat → Fmt
  | 1 => ⟨16, 7, 127, 0x7F7F, 0x7FC0, true, true⟩
  | 2 => ⟨16, 10, 15, 0x7BFF, 0x7E00, true, true⟩
  | 3 => ⟨8, 3, 7, 0x7E, 0x7F, false, false⟩
  | 4 => ⟨8, 2, 15, 0x7B, 0x7E, true, false⟩
  | 5 => ⟨6, 2, 3, 0x1F, 0, false, false⟩
  | 6 => ⟨6, 3, 1, 0x1F, 0, false, false⟩
  | 7 => ⟨4, 1, 1, 0x7, 0, false, false⟩
  | _ => fp32

/-- Element width in bits by format code, but TERN (R80). -/
def widthOf : Nat → Nat
  | 0 => 32 | 1 => 16 | 2 => 16 | 3 => 8 | 4 => 8 | 5 => 6 | 6 => 6 | 7 => 4 | 8 => 8 | 9 => 4
  | 10 => 8 | _ => 32

/-- A dyadic value m × 2^e. -/
abbrev Val.dy (neg : Bool) (m : Nat) (e : Int) : Val := .fin neg m 1 e

/-- An integer as a value. -/
def Val.ofInt (x : Int) : Val := .dy (x < 0) x.natAbs 0

/-- The value of a code of a floating format (R81). -/
def decodeF (f : Fmt) (x : Nat) : Val :=
  let g := x % 2 ^ (f.w - 1)
  let neg := x / 2 ^ (f.w - 1) % 2 = 1
  let base : Int := 1 - f.bias - f.mb
  if f.maxBits < g then (if f.hasInf && g = f.maxBits + 1 then .inf neg else .nan)
  else if g < 2 ^ f.mb then .dy neg g base
  else .dy neg (2 ^ f.mb + g % 2 ^ f.mb) (base + (g / 2 ^ f.mb : Nat) - 1)

/-- T[f] of R85. -/
def logT : Nat → Nat
  | 0 => 2048 | 1 => 2233 | 2 => 2435 | 3 => 2656 | 4 => 2896 | 5 => 3158 | 6 => 3444 | _ => 3756

/-- The magnitude 2^n × T[f] / 2,048 with d = 8 n + f (R85, R86). -/
def logVal (neg : Bool) (d : Int) : Val := .dy neg (logT (d % 8).toNat) (d / 8 - 11)

/-- The value of a LOG8 code (R84, R85). -/
def decodeLog (x : Nat) : Val :=
  let neg := x / 128 % 2 = 1
  if x % 128 = 0 then .dy neg 0 0 else logVal neg ((x % 128 : Nat) - 64)

/-- The product of two LOG8 codes in a cell (R86). -/
def logMul (x y : Nat) : Val :=
  let neg := (x / 128 % 2 = 1) ≠ (y / 128 % 2 = 1)
  if x % 128 = 0 || y % 128 = 0 then .dy neg 0 0
  else logVal neg ((x % 128 : Nat) + (y % 128 : Nat) - 128)

/-- The value of an element by its format code, but TERN (R80 to R85). -/
def decodeElem (fmt x : Nat) : Val :=
  if fmt = 8 then .ofInt (signed 8 (x % 256))
  else if fmt = 9 then .ofInt (signed 4 (x % 16))
  else if fmt = 10 then decodeLog x
  else decodeF (fmtOf fmt) x

/-- The value of an E8M0 scale: 2^(E - 127), or NaN for 0xFF (R90). -/
def decodeE8 (x : Nat) : Val := if x = 255 then .nan else .dy false 1 ((x : Int) - 127)

/-- The value of an FP32 word. -/
def valW (w : Word) : Val := decodeF fp32 w.toNat

/-! Exact arithmetic (R94, R96). -/

def Val.isNan : Val → Bool
  | .nan => true
  | _ => false

def Val.isZero : Val → Bool
  | .fin _ n _ _ => n = 0
  | _ => false

def Val.neg : Val → Val
  | .nan => .nan
  | .inf b => .inf !b
  | .fin b n d e => .fin (!b) n d e

/-- The exact product; infinity times zero is NaN (R96). -/
def vmul : Val → Val → Val
  | .nan, _ => .nan
  | _, .nan => .nan
  | .inf a, .inf b => .inf (a ≠ b)
  | .inf a, .fin b n _ _ => if n = 0 then .nan else .inf (a ≠ b)
  | .fin a n _ _, .inf b => if n = 0 then .nan else .inf (a ≠ b)
  | .fin a n d e, .fin b m c g => .fin (a ≠ b) (n * m) (d * c) (e + g)

/-- The signed numerator of a value over 2^e × d. -/
def sgn (neg : Bool) (x : Nat) : Int := if neg then -(x : Int) else x

/-- The exact sum; a sum of zero is negative only when both terms are negative zeros (R96). -/
def vadd : Val → Val → Val
  | .nan, _ => .nan
  | _, .nan => .nan
  | .inf a, .inf b => if a = b then .inf a else .nan
  | .inf a, .fin .. => .inf a
  | .fin .., .inf b => .inf b
  | .fin a n d e, .fin b m c g =>
    let k := min e g
    let x := sgn a (n * c * 2 ^ (e - k).toNat) + sgn b (m * d * 2 ^ (g - k).toNat)
    .fin (if x = 0 then a && b else x < 0) x.natAbs (d * c) k

/-- The exact sum of a list; negative zero is its neutral element. -/
def vsum (l : List Val) : Val := l.foldl vadd (.dy true 0 0)

/-- The exact quotient of a value by a positive finite one; a zero divisor gives NaN. -/
def vdiv : Val → Val → Val
  | .fin a n d e, .fin b m c g => if m = 0 then .nan else .fin (a ≠ b) (n * c) (d * m) (e - g)
  | .inf a, .fin b _ _ _ => .inf (a ≠ b)
  | _, _ => .nan

/-- n / d × 2^e is at most m / c × 2^g. -/
def magLe (n d : Nat) (e : Int) (m c : Nat) (g : Int) : Bool :=
  let k := min e g
  n * c * 2 ^ (e - k).toNat ≤ m * d * 2 ^ (g - k).toNat

/-! Rounding (R99 to R101). -/

/-- How a conversion rounds: to nearest even, or stochastically with a draw of 16 bits. -/
inductive Rnd where
  | even
  | stoch (draw : Nat)

/-- A quotient N / D rounded to an integer (R100, R101). -/
def roundDiv (r : Rnd) (N D : Nat) : Nat :=
  let i := N / D
  let x := N % D
  match r with
  | .even => if 2 * x > D || (2 * x = D && i % 2 = 1) then i + 1 else i
  | .stoch draw => if 65536 ≤ x * 65536 / D + draw then i + 1 else i

/-- floor(log2 (n / d)) of positive n and d. -/
def log2Floor (n d : Nat) : Int :=
  let k : Int := (Nat.log2 n : Int) - Nat.log2 d
  if magLe d 1 k n 1 0 then k else k - 1

/-- n / d × 2^e in units of 2^q, rounded. -/
def roundAt (r : Rnd) (n d : Nat) (e q : Int) : Nat :=
  roundDiv r (n * 2 ^ (e - q).toNat) (d * 2 ^ (q - e).toNat)

/-- The magnitude code that n / d × 2^e rounds to in a format, above its largest one when it is beyond
range (R99 to R101). -/
def magCode (f : Fmt) (r : Rnd) (n d : Nat) (e : Int) : Nat :=
  if n = 0 then 0
  else
    let low : Int := 1 - f.bias
    let q := max (log2Floor n d + e) low - f.mb
    (q - (low - f.mb)).toNat * 2 ^ f.mb + roundAt r n d e q

/-- What a conversion gives: the code, whether it met a NaN and whether it left the range (R99). -/
structure Conv where
  bits : Nat
  nan : Bool
  ovf : Bool

/-- Conversion to a floating format (R99). -/
def convF (f : Fmt) (r : Rnd) : Val → Conv
  | .nan => ⟨f.nanBits, true, false⟩
  | .inf b =>
    let s := b2n b * 2 ^ (f.w - 1)
    if f.hasInf then ⟨s + f.maxBits + 1, false, false⟩ else ⟨s + f.maxBits, false, true⟩
  | .fin b n d e =>
    let s := b2n b * 2 ^ (f.w - 1)
    let g := magCode f r n d e
    if f.maxBits < g then ⟨s + f.maxBits + b2n f.ovfInf, false, true⟩ else ⟨s + g, false, false⟩

/-- Conversion to an integer of `w` bits, saturating (R99). -/
def convI (w : Nat) (r : Rnd) : Val → Conv
  | .nan => ⟨0, true, false⟩
  | .inf b => ⟨if b then 2 ^ (w - 1) else 2 ^ (w - 1) - 1, false, true⟩
  | .fin b n d e =>
    let x := sgn b (roundAt r n d e 0)
    let top : Int := 2 ^ (w - 1) - 1
    if top < x then ⟨unsignedOf w top, false, true⟩
    else if x < -top - 1 then ⟨unsignedOf w (-top - 1), false, true⟩
    else ⟨unsignedOf w x, false, false⟩

/-- Round to nearest even in FP32. -/
def rne (v : Val) : Word := word (convF fp32 .even v).bits

/-- Round to nearest even in FP32, as a value. -/
def rneV (v : Val) : Val := valW (rne v)

/-- The canonical FP32 NaN (R96). -/
def nanW : Word := 0x7FC00000

/-- The order in which MIN and MAX compare FP32 words: -0 lies below +0 (R107). -/
def ordKey (w : Word) : Int :=
  if bit w 31 then -((w.toNat % 2 ^ 31 : Nat) : Int) - 1 else w.toNat

/-- MIN (or MAX) of two FP32 words (R107, R108). -/
def minMax (max : Bool) (a b : Word) : Word :=
  let na := (valW a).isNan
  let nb := (valW b).isNan
  if na && nb then nanW else if na then b else if nb then a
  else if (ordKey a ≤ ordKey b) ≠ max then a else b

/-! The rounding LFSR (R102). -/

/-- One step of the Galois LFSR. -/
def lfsrStep (l : Word) : Word :=
  if bit l 0 then (l >>> 1) ^^^ 0x80200003 else l >>> 1

/-- `n` steps: the bits drawn, first one highest, and the LFSR after them. -/
def lfsrDraw : Nat → Nat → Word → Nat × Word
  | 0, r, l => (r, l)
  | n + 1, r, l => lfsrDraw n (2 * r + b2n (bit l 0)) (lfsrStep l)

/-- A draw of 16 bits. -/
def draw16 (l : Word) : Nat × Word := lfsrDraw 16 0 l

/-- The LFSR at the start of a role's Pattern (R102). -/
def lfsrSeed (seed : Word) (role : Nat) : Word :=
  let x := seed ^^^ word (role * 0x9E3779B9)
  if x = 0 then 1 else x

/-! TERN (R87, R88). -/

/-- The trits of a code, element 5 j first; an invalid code decodes as five zeros (R87). -/
def trits (code : Nat) : List Int :=
  if 243 ≤ code then [0, 0, 0, 0, 0]
  else (List.range 5).map (fun i => ((code / 3 ^ i % 3 : Nat) : Int) - 1)

/-- The code of five trits (R88). -/
def tritCode : List Int → Nat
  | [] => 0
  | t :: ts => (t + 1).toNat + 3 * tritCode ts

end Sys2Proof.Machine
end

