-- ==== Sys2Proof/Machine/Reals.lean ====
section
/-! DEFINITION. The functions of the vector unit that R107 bounds in ulp, computed far more finely than
the bounds, as integers in units of 2^-512 (R99, R107). -/

namespace Sys2Proof.Machine

/-- One, in units of 2^-512. -/
def fxOne : Int := 2 ^ 512

def fxMul (a b : Int) : Int := a * b / fxOne
def fxDiv (a b : Int) : Int := a * fxOne / b

/-- A finite value in units of 2^-512, cut. -/
def fxOf : Val → Int
  | .fin b n d e => sgn b (n * 2 ^ (512 + e).toNat / (d * 2 ^ (-512 - e).toNat))
  | _ => 0

/-- A number of units as an exact value. -/
def fxVal (x : Int) : Val := .dy (x < 0) x.natAbs (-512)

/-- Sum of a series: `next k t` is term k + 1 from term k, `part k t` what term k adds. -/
def fxSeries (next part : Nat → Int → Int) : Nat → Nat → Int → Int → Int
  | 0, _, _, acc => acc
  | n + 1, k, t, acc => fxSeries next part n (k + 1) (next k t) (acc + part k t)

/-- Squared `n` times. -/
def fxSquares : Nat → Int → Int
  | 0, x => x
  | n + 1, x => fxSquares n (fxMul x x)

/-- e^x for |x| up to 256; cut off beyond. -/
def fxExp (x : Int) : Int :=
  if x < -256 * fxOne then 0
  else
    let y := min x (256 * fxOne) / 2 ^ 16
    fxSquares 16 (fxSeries (fun k t => fxMul t y / (k + 1)) (fun _ t => t) 60 0 fxOne 0)

/-- 2 × artanh r, for |r| up to 1/3. -/
def fxArtanh2 (r : Int) : Int :=
  let q := fxMul r r
  2 * fxSeries (fun _ t => fxMul t q) (fun k t => t / (2 * k + 1)) 170 0 r 0

/-- ln 2. -/
def fxLn2 : Int := fxArtanh2 (fxOne / 3)

/-- ln x of a positive value. -/
def fxLn : Val → Int
  | .fin _ n d e =>
    let k := log2Floor n d
    let N : Int := (n * 2 ^ (-k).toNat : Nat)
    let D : Int := (d * 2 ^ k.toNat : Nat)
    fxArtanh2 (fxDiv (N - D) (N + D)) + (k + e) * fxLn2
  | _ => 0

/-- arctan (1 / n). -/
def fxArctan (n : Int) : Int :=
  fxSeries (fun _ t => -(t / (n * n))) (fun k t => t / (2 * k + 1)) 120 0 (fxOne / n) 0

/-- π. -/
def fxPi : Int := 16 * fxArctan 5 - 4 * fxArctan 239

/-- sin (or cos) of x, brought into one turn first. -/
def fxSinCos (cos : Bool) (x : Int) : Int :=
  let r := (x + fxPi) % (2 * fxPi) - fxPi
  let q := fxMul r r
  if cos then fxSeries (fun k t => -(fxMul t q / ((2 * k + 1) * (2 * k + 2)))) (fun _ t => t) 80 0 fxOne 0
  else fxSeries (fun k t => -(fxMul t q / ((2 * k + 2) * (2 * k + 3)))) (fun _ t => t) 80 0 r 0

/-- √x of a number of units, cut. -/
def fxSqrt (x : Int) : Int := Nat.sqrt (x * fxOne).toNat

/-- erf x. -/
def fxErf (x : Int) : Int :=
  if 11 * fxOne < x then fxOne else if x < -11 * fxOne then -fxOne
  else
    let q := fxMul x x
    let s := fxSeries (fun k t => -(fxMul t q / (k + 1))) (fun k t => t / (2 * k + 1)) 700 0 x 0
    fxDiv (2 * s) (fxSqrt fxPi)

/-- 1 / (1 + e^-x). -/
def fxSigmoid (x : Int) : Int :=
  if 0 ≤ x then fxDiv fxOne (fxOne + fxExp (-x))
  else let t := fxExp x; fxDiv t (fxOne + t)

/-- A number below 1 in magnitude that the series has rounded up to 1. -/
def fxBelowOne (y : Int) : Int := max (1 - fxOne) (min (fxOne - 1) y)

/-- The exact result of an operation of R107 on finite operands, in units. -/
def fxResult (op : Nat) (a b : Val) : Int :=
  let x := fxOf a
  match op with
  | 0x0C => fxOf (vdiv (.dy false 1 0) a)
  | 0x0D => fxOf (vdiv a b)
  | 0x0E => fxSqrt x
  | 0x0F => fxDiv fxOne (fxSqrt x)
  | 0x10 => fxExp (fxMul x fxLn2)
  | 0x11 => fxExp x
  | 0x12 => fxDiv (fxLn a) fxLn2
  | 0x13 => fxLn a
  | 0x14 => fxSinCos false x
  | 0x15 => fxSinCos true x
  | 0x16 => let t := fxExp (2 * min x (32 * fxOne)); fxBelowOne (fxDiv (t - fxOne) (t + fxOne))
  | 0x17 => fxBelowOne (fxSigmoid x)
  | 0x18 => fxMul x (fxBelowOne (fxSigmoid x))
  | 0x19 => fxMul x (fxOne + fxBelowOne (fxErf (fxDiv x (fxSqrt (2 * fxOne))))) / 2
  | _ => fxBelowOne (fxErf x)

/-- The bound of R107 in ulp. -/
def ulpBound : Nat → Nat
  | 0x0C => 1 | 0x0D => 2 | 0x0F => 1 | 0x10 => 1 | 0x11 => 2 | 0x12 => 2 | 0x13 => 2 | 0x14 => 2
  | 0x15 => 2 | 0x16 => 3 | 0x17 => 3 | 0x18 => 4 | 0x19 => 6 | _ => 4

/-- One ulp of a result, in units (R107). -/
def fxUlp (y : Int) : Int :=
  let k : Int := min (Nat.log2 y.natAbs - 512) 127
  2 ^ (512 + (max k (-126)) - 23).toNat

/-- How far a result of R107 may lie from the exact one, in units. -/
def fxSlack (op : Nat) (x y : Int) : Int :=
  if (op = 0x14 || op = 0x15) && (2 : Int) ^ 13 * fxOne < x.natAbs then 2 ^ (512 - 19) else ulpBound op * fxUlp y

/-- A result within the bound of R107: the free one where it is finite and keeps the bound, else the rounded exact one
(log 35). SQRT is correctly rounded. -/
def approx (op : Nat) (a b : Word) : Word :=
  let y := fxResult op (valW a) (valW b)
  let c := Config.vectorApprox op a b
  match valW c with
  | .fin .. =>
    if op ≠ 0x0E && ((fxOf (valW c) - y).natAbs : Int) ≤ fxSlack op (fxOf (valW a)) y then c else rne (fxVal y)
  | _ => rne (fxVal y)

/-- Is a word a NaN, a zero, below zero. -/
def isNanW (w : Word) : Bool := (valW w).isNan
def isZeroW (w : Word) : Bool := w.toNat % 2 ^ 31 = 0
def signW (w : Word) : Word := w &&& 0x80000000

/-- A function of one operand with the special inputs of R108. -/
def unary (op : Nat) (a : Word) : Word :=
  let neg := bit a 31
  match valW a with
  | .nan => nanW
  | .inf _ =>
    match op with
    | 0x0C => signW a
    | 0x0E => if neg then nanW else a
    | 0x0F => if neg then nanW else 0
    | 0x10 => if neg then 0 else a
    | 0x11 => if neg then 0 else a
    | 0x12 => if neg then nanW else a
    | 0x13 => if neg then nanW else a
    | 0x14 => nanW
    | 0x15 => nanW
    | 0x17 => if neg then 0 else 0x3F800000
    | 0x18 => if neg then 0x80000000 else a
    | 0x19 => if neg then 0x80000000 else a
    | _ => signW a ||| 0x3F800000
  | _ =>
    if isZeroW a then
      match op with
      | 0x0C => signW a ||| 0x7F800000
      | 0x0E => a
      | 0x0F => signW a ||| 0x7F800000
      | 0x12 => 0xFF800000
      | 0x13 => 0xFF800000
      | _ => approx op a 0
    else if neg && (op = 0x0E || op = 0x0F || op = 0x12 || op = 0x13) then nanW
    else approx op a 0

/-- DIV (R107, R108). R108 states no result for an infinite operand or a zero divisor: it is free
(log 35). -/
def divide (a b : Word) : Word :=
  match valW a, valW b with
  | .nan, _ => nanW
  | _, .nan => nanW
  | .fin .., .fin .. => if isZeroW b then Config.vectorApprox 0x0D a b else approx 0x0D a b
  | _, _ => Config.vectorApprox 0x0D a b

/-- The free error of the LOG8 converter on a word, in units of 2^-512: below 2^-12 either way (R99; log 35). -/
def log8Slip (w : Word) : Int := ((Config.log8Error w % (2 ^ 501 - 1) : Nat) : Int) - (2 ^ 500 - 1)

/-- Conversion to LOG8 (R99): q = 8 log2 |x| + 64, in units of 2^-512, with its free error. -/
def convLog (r : Rnd) (w : Word) : Conv :=
  let s := if bit w 31 then 128 else 0
  match valW w with
  | .nan => ⟨0, true, false⟩
  | .inf _ => ⟨s + 127, false, true⟩
  | v =>
    if v.isZero then ⟨s, false, false⟩
    else
      let a := match v with
        | .fin _ n d e => Val.fin false n d e
        | v => v
      let q := fxDiv (8 * fxLn a) fxLn2 + 64 * fxOne + log8Slip w
      let i := q / fxOne
      let f := (q % fxOne).toNat
      let up := match r with
        | .even => 2 ^ 511 < f || (f = 2 ^ 511 && i % 2 = 1)
        | .stoch d => 2 ^ 512 ≤ f + 2 ^ 496 * d
      let L : Int := if up then i + 1 else i
      if L ≤ 0 then ⟨s, false, false⟩ else if 127 < L then ⟨s + 127, false, true⟩
      else ⟨s + L.toNat, false, false⟩

end Sys2Proof.Machine
end

