-- ==== Sys2Proof/Machine/Benes.lean ====
section
/-! DEFINITION. The Beneš network of a plane: its wiring, the routes through it, and a routing of any plan (R294, R295,
R303). The rules name the network and give neither the numbering of its wires nor the places of the ports: both are the
standard recursive ones, PRESUMED (log 21). -/

namespace Sys2Proof.Machine

/-- Wires of a block of `b`: the even ones to its first half, the odd ones to its second. -/
def unshuffle (b w : Nat) : Nat := w / b * b + w % 2 * (b / 2) + w % b / 2

/-- The inverse of `unshuffle`. -/
def shuffle (b w : Nat) : Nat := w / b * b + (if w % b < b / 2 then 2 * (w % b) else 2 * (w % b - b / 2) + 1)

/-- The wire of the next stage that an output wire of stage `st` meets; after the last stage, the plane's output. -/
def nextWire (st w : Nat) : Nat :=
  if st < 7 then unshuffle (2 ^ (8 - st)) w else if st < 14 then shuffle (2 ^ (st - 5)) w else w

/-- The output wire of stage `st` that feeds a wire of the next stage. -/
def prevWire (st w : Nat) : Nat := if st < 7 then shuffle (2 ^ (8 - st)) w else unshuffle (2 ^ (st - 5)) w

/-- The plane input of an inlet's port code. With all cells in bar, input n meets output n, so the external inlets lie
where R315 asks: opposite terminated outputs. -/
def inletWire (code : Nat) : Nat := if code < 32 then code else 96 + code

/-- The plane output of an outlet's port code: F ports of plane A, L ports of plane B (R295). -/
def outletWire (code : Nat) : Nat := if code < 32 then code else code - 32

/-- The cells of a path, stage by stage: row in bits [6:0], cross in bit 7, input in bit 8. The first seven stages
follow `ways`, the others the bits of the output. -/
def pathCells (inp out ways : Nat) : List Nat :=
  ((List.range 15).foldl (fun (a : List Nat × Nat) st =>
    let w := a.2
    let o := if st < 7 then ways / 2 ^ st % 2 else out / 2 ^ (14 - st) % 2
    (a.1 ++ [w / 2 + 128 * b2n (w % 2 ≠ o) + 256 * (w % 2)], nextWire st (w / 2 * 2 + o))) ([], inp)).1

/-- The path of the lace of an entry index to an outlet (R300). -/
def laceRoute (index outlet ways : Nat) : List Nat := pathCells (inletWire (index % 160)) (outletWire outlet) ways

/-- Two routes of a plane can stand in one bank: a cell they share has one state and takes them at its two inputs. -/
def routesMeet (a b : List Nat) : Bool :=
  (a.zip b).all (fun p => p.1 % 128 ≠ p.2 % 128
    || (p.1 / 128 % 2 = p.2 / 128 % 2 && p.1 / 256 % 2 ≠ p.2 / 256 % 2))

/-- Routes, by entry index, that can stand in one bank. -/
def routesFit : List (Nat × List Nat) → Bool
  | [] => true
  | x :: l => l.all (fun y => x.1 / 160 ≠ y.1 / 160 || routesMeet x.2 y.2) && routesFit l

/-- The output of plane A where light at an input arrives, cells that no route uses in bar (R303, R323). -/
def strayOutput (routes : List (Nat × List Nat)) (w : Nat) : Nat :=
  (List.range 15).foldl (fun w st =>
    let cross := routes.any (fun x => x.1 < 160 && match x.2[st]? with
      | some c => c % 128 = w / 2 && c / 128 % 2 = 1
      | none => false)
    nextWire st (if cross then w / 2 * 2 + (1 - w % 2) else w)) w

/-- Every external inlet that no lace of plane A names ends at a terminated output (R303). -/
def strayDark (routes : List (Nat × List Nat)) : Bool :=
  (List.range 128).all (fun n => routes.any (fun x => x.1 = 32 + n) || 128 ≤ strayOutput routes (128 + n))

/-! Routing a plan afresh: the looping algorithm, which sends the two laces of a first-stage or last-stage cell through
different halves, level by level. -/

/-- A lace in the halving: entry index, input and output of its part of the network, halves taken so far. -/
structure Way where
  index : Nat
  inp : Nat
  out : Nat
  ways : Nat
deriving DecidableEq, Repr

/-- Two laces share an outer cell of one part of a plane. -/
def sharesCell (x y : Way) : Bool :=
  x.index / 160 = y.index / 160 && x.ways = y.ways && x.index ≠ y.index && (x.inp / 2 = y.inp / 2 || x.out / 2 = y.out / 2)

/-- The half that a lace must take beside those that have theirs. -/
def mustTake (l : List (Way × Option Bool)) (x : Way) : Option Bool :=
  l.findSome? (fun q => if sharesCell x q.1 then q.2.map (!·) else none)

/-- One more lace gets its half: one that is bound, else the first. -/
def halveStep (l : List (Way × Option Bool)) : List (Way × Option Bool) :=
  match l.find? (fun q => q.2.isNone && (mustTake l q.1).isSome) with
  | some q => l.map (fun x => if x.1 = q.1 then (x.1, mustTake l q.1) else x)
  | none => match l.find? (fun q => q.2.isNone) with
    | some q => l.map (fun x => if x.1 = q.1 then (x.1, some false) else x)
    | none => l

/-- All laces get their halves of a level. -/
def halve (k : Nat) (l : List Way) : List Way :=
  ((List.range l.length).foldl (fun l _ => halveStep l) (l.map (fun x => (x, none)))).map (fun q =>
    { q.1 with inp := q.1.inp / 2, out := q.1.out / 2, ways := q.1.ways + 2 ^ k * b2n (q.2.getD false) })

/-- A routing of a plan, given as entry indices and outlets, that depends on nothing else (R303, R305). -/
def freshRoutes (plan : List (Nat × Nat)) : List (Nat × List Nat) :=
  let ways := (List.range 7).foldl (fun l k => halve k l)
    (plan.map (fun p => { index := p.1, inp := inletWire (p.1 % 160), out := outletWire p.2, ways := 0 }))
  plan.map (fun p => (p.1, laceRoute p.1 p.2 (match ways.find? (fun x => x.index = p.1) with
    | some x => x.ways
    | none => 0)))

/-- The compiler's choice for a plan with some routes held, which no rule gives beyond what `routesFit` and `strayDark`
ask of it (R303, R305). -/
def chosenRoutes (plan : List (Nat × Nat)) (held : List (Nat × List Nat)) : List (Nat × List Nat) :=
  plan.map (fun p => match held.find? (fun h => h.1 = p.1) with
    | some h => h
    | none => (p.1, laceRoute p.1 p.2 (Config.weltPath plan held p.1)))

/-- What concerns one plane of a list by entry index. -/
def inPlane {β : Type} (p : Nat) (l : List (Nat × β)) : List (Nat × β) := l.filter (fun x => x.1 / 160 = p)

/-- The choice is a routing of R303 in a plane. -/
def chosenGood (p : Nat) (plan : List (Nat × Nat)) (held : List (Nat × List Nat)) : Bool :=
  let l := inPlane p (chosenRoutes plan held)
  routesFit l && (p ≠ 0 || strayDark l)

/-- All laces of a plane are held. -/
def allHeld (p : Nat) (plan : List (Nat × Nat)) (held : List (Nat × List Nat)) : Bool :=
  (inPlane p held).length = (inPlane p plan).length

/-- The compiler can route a plan with some routes held: in each plane certainly when none or all of its laces are held
(R303, R305). -/
def canRoute (plan : List (Nat × Nat)) (held : List (Nat × List Nat)) : Bool :=
  [0, 1].all (fun p => (inPlane p held).isEmpty || allHeld p plan held || chosenGood p plan held)

/-- The routes that it finds, plane by plane. -/
def planRoutes (plan : List (Nat × Nat)) (held : List (Nat × List Nat)) : List (Nat × List Nat) :=
  [0, 1].flatMap (fun p => inPlane p (if allHeld p plan held then held
    else if chosenGood p plan held then chosenRoutes plan held else freshRoutes plan))

end Sys2Proof.Machine
end

