-- ==== Sys2Proof/Machine/Readings.lean ====
section
/-! DEFINITION. Signed Q16.16 arithmetic (R325), monitor readings and corrections (R337, R345, R346). -/

namespace Sys2Proof.Machine

/-- 1.0 in Q16.16. -/
def qOne : Q := 65536

/-- An integer in Q16.16. -/
def qi (n : Int) : Q := n * 65536

/-- Saturation of a sum (R325). -/
def qSat (x : Int) : Q := max (-2147483648) (min 2147483647 x)

/-- A quotient rounded to nearest even (R325, R346). -/
def rneDiv (n d : Int) : Int :=
  let q := n / d
  let r := n % d
  if 2 * r < d then q else if d < 2 * r then q + 1 else if q % 2 = 0 then q else q + 1

/-- A product (R325). -/
def qMul (a b : Q) : Q := rneDiv (a * b) 65536

/-- A sum (R325). -/
def qAdd (a b : Q) : Q := qSat (a + b)

/-- A difference (R325). -/
def qSub (a b : Q) : Q := qSat (a - b)

/-- A clamp. -/
def qClamp (x lo hi : Q) : Q := max lo (min hi x)

/-- A Q16.16 value as a word. -/
def qWord (x : Q) : Word := BitVec.ofInt 32 x

/-- A word as a Q16.16 value. -/
def wordQ (w : Word) : Q := w.toInt

/-- The key of a reading (R337). -/
def rdKey (kind index : Nat) : Nat := 8192 * kind + index

/-- A reading in a table of readings; a tap below −40 dBm reads −128.0, as one never converted does (R337,
MONITOR_READ, log 24). -/
def readIn (values : Tbl (Option Q)) (kind index : Nat) : Q :=
  match tget none values (rdKey kind index) with
  | some v => if (kind = 0 || kind = 5) && v < qi (-40) then qi (-128) else v
  | none => if kind = 0 || kind = 5 then qi (-128) else 0

/-- The last value of a reading. -/
def reading (kind index : Nat) (s : State) : Q := readIn s.mon.values kind index

/-- A reading carries a stale flag (R345). -/
def isStale (kind index : Nat) (s : State) : Bool := tget false s.mon.stale (rdKey kind index)

/-- tp: the highest of the plane's sensors (R324). -/
def planeTemp (p : Nat) (s : State) : Q :=
  ((List.range 16).map (fun i => reading 1 (64 + 16 * p + i) s)).foldl max (reading 1 (64 + 16 * p) s)

/-- The key of a correction: procedure, offset or gain, kind and index of the reading it corrects (R340). A correction
with one value counts as an offset; those of FF have kind 0 and index 2 × cell + target, those of REF kind 0 and the
ADC. -/
def corrKey (proc : Nat) (gain : Bool) (kind index : Nat) : Nat := 131072 * proc + 65536 * b2n gain + rdKey kind index

/-- The value in use of a correction that slews: exact, then rounded (R346). -/
def slewValue (x : Slew) : Q := rneDiv (256 * x.old + (x.new - x.old) * x.n) 256

/-- The factory ff of an item at the present plane temperature (R340). -/
def factoryFf (i : Nat) (s : State) : Q :=
  qAdd (Config.factoryItem (corrKey 5 false 0 i))
    (qMul (Config.factoryTempco (i / 2)) (qSub (planeTemp (i / 3840) s) (qi 25)))

/-- The value in use of an item; one never corrected has its factory value (R346, R348; log 24). -/
def itemInUse (key : Nat) (s : State) : Q :=
  match tget none s.mon.corr key with
  | some x => slewValue x
  | none => if key / 131072 = 5 then factoryFf (key % 8192) s else Config.factoryItem key

/-- ff_bar or ff_cross of a cell in use (R323, R340, R346). -/
def ffOf (cell : Nat) (cross : Bool) (s : State) : Q := itemInUse (corrKey 5 false 0 (2 * cell + b2n cross)) s

/-- Heater power of a cell in mW: driver code × heater-rail voltage² / heater resistance (R337; log 24). -/
def heaterPower (cell : Nat) (drive : Q) (s : State) : Q :=
  let v := reading 2 (Config.heaterRail cell % 48) s
  if drive = 0 then 0 else qSat (rneDiv (Config.driverCode drive * (v * v)) (itemInUse (corrKey 4 false 3 cell) s))

/-- One step of the slews that meet a test of their key (R346). -/
def stepSlews (p : Nat → Bool) (s : State) : State :=
  { s with mon.corr := s.mon.corr.map (fun e =>
      (e.1, if p e.1 then e.2.map (fun x => { x with n := min 256 (x.n + 1) }) else e.2)) }

/-- A correction slewed with the Shank samples of a plane: tap, heater, plane temperature and feed-forward
items (R346). -/
def planeItem (plane key : Nat) : Bool :=
  let proc := key / 131072
  let kind := key % 65536 / 8192
  let index := key % 8192
  if proc = 1 then (64 + 16 * plane ≤ index && index < 80 + 16 * plane)
  else if proc = 3 && kind = 5 then index / 160 = plane
  else if proc = 3 then index / 3840 = plane
  else if proc = 4 then index / 1920 = plane
  else if proc = 5 then index / 3840 = plane
  else false

/-- The place of a channel among others, by a free number of each; of two with one number the lower comes first. -/
def scanPlace (kind : Nat) (l : List Nat) (i : Nat) : Nat :=
  let no := Config.scanGroup kind
  (l.filter (fun j => no j < no i || (no j = no i && j < i))).length

/-- The inlet taps (R337). -/
def inletTaps : List Nat := (List.range 320).filter (fun i => !(160 ≤ i && i < 192))

/-- The scan group, and so the ADC, of a reading: 240 cell taps, 9 inlet taps and at most 5 temperature or voltage
channels have one group; which, is free (R338; log 24). Temperatures are channels 0 to 95, voltages 96 to 143, and the
places of 16 channels stay empty. -/
def scanGroup (kind index : Nat) : Nat :=
  match kind with
  | 0 => scanPlace 0 (List.range 7680) index / 240
  | 1 => scanPlace 1 (List.range 160) index / 5
  | 2 => scanPlace 1 (List.range 160) (96 + index) / 5
  | 5 => scanPlace 5 inletTaps index / 9
  | _ => 32

/-- A correction slewed with the scans of a group (R346). -/
def groupItem (group key : Nat) : Bool :=
  !planeItem 0 key && !planeItem 1 key
    && (if key / 131072 = 0 then key % 8192 = group else scanGroup (key % 65536 / 8192) (key % 8192) = group)

end Sys2Proof.Machine
end

