-- ==== Sys2Proof/Machine/Mailbox.lean ====
section
/-! DEFINITION. Mailbox requests: their words, their checks in the order of R30, and the completion of a
command (R28 to R45, R49, R50, R57). -/

namespace Sys2Proof.Machine

/-- Response status (R50). -/
inductive Status where
  | ok | accepted | badOpcode | badLength | badArg | wrongState | busy | noResource
  | refusedSchedule | authFail | mediaFail | internal
deriving DecidableEq, Repr

/-- The code of a status (R50). -/
def statusCode : Status → Nat
  | .ok => 0x0000 | .accepted => 0x0001 | .badOpcode => 0x0010 | .badLength => 0x0011
  | .badArg => 0x0012 | .wrongState => 0x0020 | .busy => 0x0021 | .noResource => 0x0030
  | .refusedSchedule => 0x0040 | .authFail => 0x0050 | .mediaFail => 0x0060 | .internal => 0x00FF

/-! The words of a request (R29). -/

/-- Request word `n`, from word 2 on; a word that the request does not carry reads 0. -/
def rw (r : Req) (n : Nat) : Word := nth 0 r.args (n - 2)

/-- A field of request word `n`. -/
def rf (r : Req) (n lo len : Nat) : Nat := field (rw r n) lo len

/-- A bit of request word `n`. -/
def rb (r : Req) (n i : Nat) : Bool := bit (rw r n) i

/-- The request length in words. -/
def reqLength (r : Req) : Nat := field r.flags 4 10

/-- The ordered flag. -/
def isOrdered (r : Req) : Bool := bit r.flags 0

/-- The no_irq flag. -/
def isNoIrq (r : Req) : Bool := bit r.flags 1

/-- Bits from `lo` of word `n` on are zero. -/
def zeroFrom (r : Req) (n lo : Nat) : Bool := field (rw r n) lo 32 = 0

/-- Words `a` to `b` are zero. -/
def zeroWords (r : Req) (a b : Nat) : Bool := (List.range (b + 1 - a)).all (fun i => rw r (a + i) = 0)

/-! Bulk buffers (R33 to R35). -/

/-- The bus address of the bulk descriptor at word `n`. -/
def bulkAddr (r : Req) (n : Nat) : Nat := (rw r n).toNat + 2 ^ 32 * (rw r (n + 1)).toNat

/-- The length of the bulk descriptor at word `n`. -/
def bulkLen (r : Req) (n : Nat) : Nat := (rw r (n + 2)).toNat

/-- A bulk descriptor that keeps R33; on the service port its address words are zero (R439). -/
def bulkOk (r : Req) (n : Nat) : Bool :=
  rf r n 0 2 = 0 && bulkLen r n % 4 = 0 && 4 ≤ bulkLen r n && bulkLen r n ≤ 268435456
    && rw r (n + 3) = 0 && (r.via ≠ .service || bulkAddr r n = 0)

/-- What the DMA of the k-th descriptor answers. -/
def dmaOf (r : Req) (k : Nat) : Option (List Byte) := nth none r.env.dma k

/-- The bytes read through the k-th descriptor, which stands at word `n`. -/
def bulkBytes (r : Req) (k n : Nat) : List Byte := padTo 0 (bulkLen r n) ((dmaOf r k).getD [])

/-- The DMA access of the k-th descriptor ends in a successful completion. -/
def dmaGood (r : Req) (k : Nat) : Bool := (dmaOf r k).isSome

/-! Answers. -/

/-- What a command answers: a status, the response words from word 2 on and bulk data to write; or
nothing yet. -/
inductive Ans where
  | reply (st : Status) (words : List Word) (bulk : List (Nat × List Byte)) (s : State)
  | later (s : State)

/-- A reply with no bulk data. -/
abbrev Ans.of (st : Status) (words : List Word) (s : State) : Ans := .reply st words [] s

/-- OK with no words. -/
abbrev Ans.ok (s : State) : Ans := .reply .ok [] [] s

/-- A mailbox command: its opcode, the lengths it allows, the response words when the module state does
not admit it and when its header is refused, the object states that admit it, its argument checks, what it does, and what a
refusal by one of its checks changes. -/
structure Cmd where
  op : Nat
  len : Nat → Bool
  unadmitted : List Word
  badHeader : List Word := []
  object : Req → State → Option (Status × List Word)
  args : Req → State → Option (Status × List Word)
  run : Req → State → Ans
  refused : Req → State → State := fun _ s => s

/-- A check that refuses with a status and no words. -/
def need (b : Bool) (st : Status) : Option (Status × List Word) := if b then none else some (st, [])

/-- Checks in order: the first failure counts (R30). -/
def firstOf : List (Option (Status × List Word)) → Option (Status × List Word)
  | [] => none
  | some x :: _ => some x
  | none :: l => firstOf l

/-- The module state admits a command (R57). -/
def admits (op : Nat) (s : State) : Bool :=
  let g := op / 256
  match s.glb.state with
  | .ready | .running | .degraded => true
  | .migrate => op = 0x0101 || op = 0x0A01 || op = 0x0A03
  | .configurable => (g = 1 && op ≠ 0x0120) || (4 ≤ g && g ≤ 8) || (10 ≤ g && g ≤ 12)
  | .halted =>
    op = 0x0101 || op = 0x0104 || op = 0x0110 || op = 0x0111 || op = 0x0120 || op = 0x0205
      || op = 0x0306 || op = 0x0307 || op = 0x0402 || op = 0x0406 || op = 0x0905
      || ((g = 5 || g = 6) && !s.glb.weltKilled) || g = 7 || g = 8 || (10 ≤ g && g ≤ 12)
  | .boot | .dead => false

/-- The header's reserved bits [19:18] and [31:30] are zero (R29). -/
def headerOk (r : Req) : Bool := field r.flags 2 2 = 0 && field r.flags 14 2 = 0

/-- The length of a request is one that its command allows (R29, R30). -/
def headerLenOk (c : Cmd) (r : Req) : Bool := 2 ≤ reqLength r && reqLength r ≤ 512 && c.len (reqLength r)

/-- The first failure of the checks of R30, in their order; none when the command runs. -/
def verdict (c : Cmd) (r : Req) (s : State) : Option (Status × List Word) :=
  if !headerLenOk c r then some (.badLength, [])
  else if !headerOk r then some (.badArg, c.badHeader)
  else if !admits c.op s then some (.wrongState, c.unadmitted)
  else firstOf [c.object r s, c.args r s]

/-- What a command answers: the first failed check, or its run. -/
def answer (c : Cmd) (r : Req) (s : State) : Ans :=
  match verdict c r s with
  | some (st, ws) => .of st ws (if headerLenOk c r then c.refused r s else s)
  | none => c.run r s

/-! Completion (R40, R49). -/

/-- A gap of R49 still runs on a vector. -/
def gapRuns (v : Nat) (s : State) : Bool :=
  let g := tget {} s.irq.gaps v
  g.isOpen && since g.since s < ticksUs g.us

/-- Send a vector of 32 to 63 and begin its gap (R49). -/
def sendSlotVector (v : Nat) (s : State) : State :=
  let us := s.irq.coalesce.toNat
  let g : Gap := if us = 0 then {} else { isOpen := true, since := s.clk, us := us, owed := false }
  sendMsix v { s with irq.gaps := tset {} s.irq.gaps v g }

/-- The message for a done bit that changed from 0 to 1 (R46, R49). `now` is the exception of SYS_RESET. -/
def slotMessage (n : Nat) (noIrq now : Bool) (s : State) : State :=
  let v := 32 + n % 32
  if noIrq then s
  else if gapRuns v s && !now then
    { s with irq.gaps := tset {} s.irq.gaps v { tget {} s.irq.gaps v with owed := true } }
  else sendSlotVector v s

/-- The words of a response: header and the words from word 2 on (R29). -/
def responseWords (r : Req) (st : Status) (ws : List Word) : List Word :=
  word (statusCode st + 2 ^ 20 * (2 + ws.length)) :: r.tag :: ws

/-- Words written over a table of words from an index. -/
def putWords (t : Tbl Word) (i : Nat) : List Word → Tbl Word
  | [] => t
  | w :: ws => putWords (tset 0 t i w) (i + 1) ws

/-- A message on the service port: a 4-byte byte count, words, then the bytes of output buffers (R439). -/
def svcMessageBytes (ws : List Word) (data : List Byte) : List Byte :=
  leBytes (4 * ws.length + data.length) 4 ++ wordsBytes ws ++ data

/-- A message leaves the service port (R439). -/
def svcSend (ws : List Word) (data : List Byte) (s : State) : State := emit (.svc (svcMessageBytes ws data)) s

/-- Complete a command: bulk data, then the response, then busy clears and done sets, then the message
(R36, R40); on the service port the response and its output bytes (R439); for a discarded response the bulk
data alone (R21). -/
def complete (r : Req) (now : Bool) (st : Status) (ws : List Word) (bulk : List (Nat × List Byte))
    (s : State) : State :=
  match r.via with
  | .slot n =>
    let s := forAll bulk (fun p => emit (.dma p.1 p.2)) s
    let s := modSlot n (fun x => { x with cond := .done, resp := putWords x.resp 0 (responseWords r st ws) }) s
    slotMessage n (isNoIrq r) now s
  | .service => svcSend (responseWords r st ws) (bulk.flatMap (·.2)) s
  | .discarded _ => forAll bulk (fun p => emit (.dma p.1 p.2)) s

/-- Deliver an answer: complete now, or keep the command among the started ones. -/
def deliver (c : Cmd) (r : Req) (a : Ans) : State :=
  match a with
  | .reply st ws bulk s => complete r (c.op = 0x0110) st ws bulk s
  | .later s => { s with mbx.started := s.mbx.started ++ [⟨BitVec.ofNat 16 c.op, r, s.mbx.orders, 0⟩],
                         mbx.orders := s.mbx.orders + 1 }

/-- A command runs and answers: nothing happens while no slot is serviced (R26, R57). -/
def runCmd (c : Cmd) (r : Req) (s : State) : State :=
  if serving s then deliver c r (answer c r s) else s

/-- Complete every started command of an opcode whose request meets a condition. -/
def finish (op : Nat) (p : Req → Bool) (st : Status) (ws : List Word) (s : State) : State :=
  let hit := fun (t : Taken) => t.opcode.toNat = op && p t.req
  let s' := { s with mbx.started := s.mbx.started.filter (fun t => !hit t) }
  forAll (s.mbx.started.filter hit) (fun t => complete t.req false st ws []) s'

/-- The slot number that an event names, that of a slot reset since among them (R64); the service port has none and
reads 64 (log 50). -/
def viaSlot (r : Req) : Nat :=
  match r.via with
  | .slot n => n
  | .service => 64
  | .discarded n => n

/-- A bulk buffer whose DMA failed: event 0xB003 and BAD_ARG (R35). The service port uses no DMA: a message that lacks the
bytes of a buffer raises nothing (R439; log 74). -/
def dmaFailed (op : Nat) (r : Req) (n : Nat) (ws : List Word) (s : State) : Ans :=
  .of .badArg ws (if r.via = .service then s else raise 0xB003 3 ([word (viaSlot r), word op] ++ dwords (bulkAddr r n)) s)

end Sys2Proof.Machine
end

