-- ==== Sys2Proof/Machine/Crc.lean ====
section
/-! DEFINITION. The CRC computation of R415 and the fixed configuration of R420. -/

namespace Sys2Proof.Machine

/-- A CRC configuration: what R414 and R415 read. -/
structure CrcCfg where
  width : Nat
  poly : Nat
  refin : Bool
  refout : Bool
  init : Nat
  xorout : Nat
deriving DecidableEq, Repr

/-- The configuration of R178 and R420. -/
def crc32c : CrcCfg :=
  { width := 32, poly := 0x1EDC6F41, refin := true, refout := true, init := 0xFFFFFFFF,
    xorout := 0xFFFFFFFF }

/-- The frame check sequence of Ethernet that the timing port adds (R363; PRESUMED: the CRC-32 of IEEE 802.3, log 72). -/
def ethernetCrc : CrcCfg := { crc32c with poly := 0x04C11DB7 }

/-- One bit fed into the state (R415). -/
def crcBit (c : CrcCfg) (x : Bool) (st : Nat) : Nat :=
  let top := st.testBit (c.width - 1)
  let sh := (st * 2) % 2 ^ c.width
  if top != x then sh ^^^ (c.poly % 2 ^ c.width) else sh

/-- The j-th bit of a byte in feeding order (R415). -/
def crcFeedBit (c : CrcCfg) (b : Byte) (j : Nat) : Bool :=
  b.getLsbD (if c.refin then j else 7 - j)

/-- One byte fed: its eight bits (R415). -/
def crcByte (c : CrcCfg) (st : Nat) (b : Byte) : Nat :=
  (List.range 8).foldl (fun st j => crcBit c (crcFeedBit c b j) st) st

/-- Bytes fed in order (R415). -/
def crcBytes (c : CrcCfg) (st : Nat) (bs : List Byte) : Nat := bs.foldl (crcByte c) st

/-- The order of the low `w` bits reversed (R415). -/
def reflectBits (v w : Nat) : Nat :=
  (List.range w).foldl (fun r i => 2 * r + b2n (v.testBit i)) 0

/-- The final value of a state (R415). -/
def crcResult (c : CrcCfg) (st : Nat) : Nat :=
  ((if c.refout then reflectBits st c.width else st) ^^^ c.xorout) % 2 ^ c.width

/-- The check word of bytes after a prefix in the fixed configuration (R178, R420). -/
def checkWord (pre body : List Byte) : Nat :=
  crcResult crc32c (crcBytes crc32c (crc32c.init) (pre ++ body))

end Sys2Proof.Machine
end

