-- ==== Sys2Proof/Machine/CheckUnits.lean ====
section
/-! DEFINITION. The check-value units CVU0 to CVU7 (R414 to R421). -/

namespace Sys2Proof.Machine

/-- The configuration that a unit's registers hold (R414). -/
def cvuCfg (u : Cvu) : CrcCfg :=
  { width := u.width, poly := u.poly.toNat, refin := u.refin, refout := u.refout,
    init := u.init.toNat % 2 ^ u.width, xorout := u.xorout.toNat % 2 ^ u.width }

/-- Feed bytes: state and count (R415). -/
def cvuFeed (bs : List Byte) (u : Cvu) : Cvu :=
  { u with
    state := word (crcBytes (cvuCfg u) (u.state.toNat % 2 ^ u.width) bs)
    count := u.count + word bs.length }

/-- The final value from the present state (R415). -/
def cvuResult (u : Cvu) : Word := word (crcResult (cvuCfg u) (u.state.toNat % 2 ^ u.width))

/-- The prefix bytes that a start feeds (R414, R415). -/
def cvuPrefix (u : Cvu) : List Byte :=
  ((List.range 4).flatMap (fun i => wordBytes (tget 0 u.pfx i))).take (4 * u.prefixWords)

/-- start: load init, clear count and check status, feed the prefix (R415). -/
def cvuStartOp (u : Cvu) : Cvu :=
  cvuFeed (cvuPrefix u) { u with state := word (u.init.toNat % 2 ^ u.width), count := 0,
                                 matched := false, checked := false }

/-- The time that a write costs, in tenths of a mesh cycle (R416). -/
def cvuCost (u : Cvu) (w : CvuWrite) : Nat :=
  10 * (if w.off = 0x10 && bit w.value 0 then 1 + 4 * u.prefixWords
    else if w.off = 0x18 then 2 else if w.off = 0x1C then 4 else 1)

/-- Apply a change to a unit. -/
def modCvu (n : Nat) (f : Cvu → Cvu) (s : State) : State := setCvu n (f (cvuOf s n)) s

/-- check: compare result with expect over the low width bits (R419). -/
def cvuCheckOp (n : Nat) (s : State) : State :=
  let u := cvuOf s n
  let eq := (cvuResult u).toNat % 2 ^ u.width = u.expect.toNat % 2 ^ u.width
  if eq then setCvu n { u with matched := true, checked := true } s
  else
    let s := setCvu n { u with matched := false, mismatch := true, checked := true } s
    if u.irqEn then setCause 6 s else s

/-- A CVUn_CTRL write: refused whole when width is 0 or above 32 or prefix_words above 4 (R414). -/
def cvuCtrl (value : Word) (u : Cvu) : Cvu :=
  let w := field value 0 6
  let p := field value 10 3
  if w = 0 || 32 < w || 4 < p then { u with cfgErr := true }
  else { u with width := w, refin := bit value 8, refout := bit value 9, prefixWords := p,
                irqEn := bit value 13 }

/-- What a write does to the registers, a check apart (R414, R415). -/
def cvuEffect (w : CvuWrite) (u : Cvu) : Cvu :=
  match w.off with
  | 0x00 => cvuCtrl w.value u
  | 0x04 => { u with poly := w.value }
  | 0x08 => { u with init := w.value }
  | 0x0C => { u with xorout := w.value }
  | 0x10 => if bit w.value 0 then cvuStartOp u else u
  | 0x14 => cvuFeed (leBytes w.value.toNat 1) u
  | 0x18 => cvuFeed (leBytes w.value.toNat 2) u
  | 0x1C => cvuFeed (leBytes w.value.toNat 4) u
  | 0x20 => { u with state := w.value }
  | 0x28 => { u with expect := w.value }
  | 0x2C => { u with mismatch := u.mismatch && !bit w.value 2, overrun := u.overrun && !bit w.value 3,
                     cfgErr := u.cfgErr && !bit w.value 4 }
  | o => if 0x40 ≤ o && o < 0x50 then { u with pfx := tset 0 u.pfx ((o - 0x40) / 4) w.value } else u

/-- A write of the queue is applied: start comes before check, and CVUn_RESULT shows the final value from then on (R415,
R417). Until the first write CVUn_RESULT holds its reset value (R10, R414; log 67). -/
def cvuApply (n : Nat) (w : CvuWrite) (s : State) : State :=
  let s := modCvu n (cvuEffect w) s
  let s := if w.off = 0x10 && bit w.value 1 then cvuCheckOp n s else s
  modCvu n (fun u => { u with result := cvuResult u }) s

/-- An offset at which a unit has a register (R414). -/
def cvuHas (off : Nat) : Bool := off % 4 = 0 && (off ≤ 0x30 || (0x40 ≤ off && off < 0x50))

/-- A write to a unit's registers enters its queue of 16, or is dropped and sets overrun (R417); a reserved offset
ignores it (R6). -/
def cvuWrite (n off : Nat) (value : Word) (s : State) : State :=
  let u := cvuOf s n
  if !cvuHas off then s
  else if 16 ≤ u.queue.length then setCvu n { u with overrun := true } s
  else setCvu n { u with queue := u.queue ++ [{ off := off, value := value }] } s

/-- CVU_START: a CVUn_CMD write with start; with check also set, start and then check (R415, R417). -/
def execCvuStart (unit : Fin 8) (andCheck : Bool) (s : State) : Host.Outcome State Fault Refusal :=
  onWrite (cvuWrite unit 0x10 (word (1 + 2 * b2n andCheck))) s

/-- CVU_CHECK: a CVUn_CMD write with check (R419). -/
def execCvuCheck (unit : Fin 8) (s : State) : Host.Outcome State Fault Refusal :=
  onWrite (cvuWrite unit 0x10 2) s

/-- CVU_FEED_B: one byte (R415). -/
def execCvuFeedB (unit : Fin 8) (value : Word) (s : State) : Host.Outcome State Fault Refusal :=
  onWrite (cvuWrite unit 0x14 value) s

/-- CVU_FEED_H: two bytes, bits [7:0] first (R415). -/
def execCvuFeedH (unit : Fin 8) (value : Word) (s : State) : Host.Outcome State Fault Refusal :=
  onWrite (cvuWrite unit 0x18 value) s

/-- CVU_FEED_W: four bytes, bits [7:0] first (R415). -/
def execCvuFeedW (unit : Fin 8) (value : Word) (s : State) : Host.Outcome State Fault Refusal :=
  onWrite (cvuWrite unit 0x1C value) s

/-- CVU_CTRL_WRITE (R414). -/
def execCvuCtrlWrite (unit : Fin 8) (value : Word) (s : State) : Host.Outcome State Fault Refusal :=
  onWrite (cvuWrite unit 0x00 value) s

/-- A unit works on its queue for some tenths of a mesh cycle: each write is applied when its cycles are over (R416,
R417). -/
def cvuRun (n : Nat) : List CvuWrite → Nat → State → State
  | [], _, s => modCvu n (fun u => { u with queue := [], spent := 0 }) s
  | w :: ws, b, s =>
    let left := cvuCost (cvuOf s n) w - (cvuOf s n).spent
    if left ≤ b then cvuRun n ws (b - left) (cvuApply n w (modCvu n (fun u => { u with queue := ws, spent := 0 }) s))
    else modCvu n (fun u => { u with queue := w :: ws, spent := u.spent + b }) s

/-- One tick of 2 ns is 3.6 mesh cycles (R416). -/
def cvuTick (n : Nat) (s : State) : State := cvuRun n (cvuOf s n).queue 36 s

/-- The unit as a read finds it: every write that reached it before has been applied (R418). -/
def cvuSettled (n : Nat) (s : State) : State :=
  forAll (cvuOf s n).queue (cvuApply n) (modCvu n (fun u => { u with queue := [], spent := 0 }) s)

end Sys2Proof.Machine
end

