-- ==== Sys2Proof/Machine/Tick.lean ====
section
/-! DEFINITION. One tick of the time oscillator: what step does when no command waits (log 1). -/

namespace Sys2Proof.Machine

/-- TMU_STATUS bit `b` goes to 1: when it was 0 and TMU_IRQ_EN enables it, IRQ_CAUSE bit 4 sets (R353). -/
def tmuFlag (b : Nat) (s : State) : State :=
  if bit s.tmu.status b then s
  else
    let s := { s with tmu.status := s.tmu.status ||| BitVec.ofNat 8 (2 ^ b) }
    if bit s.tmu.irqEn (b - 1) then setCause 4 s else s

/-- ns and frac, in units of 2^-32 ns, with one addend more (R351). -/
def tickSum (t : Tmu) : Nat := t.ns.toNat * 2 ^ 32 + t.frac.toNat + t.addend.toNat * 16

/-- The next tick wraps ns (R351). -/
def wrapsAt (t : Tmu) : Bool := decide (2 ^ 64 ≤ tickSum t)

/-- The counter one tick later (R351). -/
def nextCount (t : Tmu) : Tmu :=
  { t with ns := word (tickSum t / 2 ^ 32), frac := word (tickSum t), era := if wrapsAt t then t.era + 1 else t.era }

/-- The counter's advance by one tick (R351). -/
def tickCounter (s : State) : State :=
  let s' := { s with tmu := nextCount s.tmu }
  if wrapsAt s.tmu then tmuFlag 2 s' else s'

/-- The cycle counts of a running job, in thousandths of an ECLK cycle of 2 ns each (JOB_STATUS). -/
def tickJob (j : Nat) (s : State) : State :=
  let x := jobOf s j
  if x.status = .running then
    let ts := tileNos.filter (fun t => (tileOf s t).job = some j && (tileOf s t).run = .running)
    let waits := ts.filter (fun t => match (tileOf s t).hold with
      | .wait _ _ _ _ _ => true
      | _ => false)
    let mems := waits.filter (fun t => s.stitch.table.any (fun e =>
      e.2.owner = t && (e.2.cond = .waiting || e.2.cond = .held) && e.2.toDram))
    let c := 2 * s.power.eclk
    setJob j { x with cycles := x.cycles + c * ts.length, waitCycles := x.waitCycles + c * waits.length,
                      memCycles := x.memCycles + c * mems.length } s
  else s

/-- One tick: the clock of the model, the counter of R351, the copy of TMU_STATUS.holdover in GLB_STATE (R353), the queues
of the check-value units and the cycle counts of jobs. Nothing runs while the module is unpowered; the counter and the units stand still
while the module is held in reset. -/
def tick (s : State) : State :=
  let s := { s with clk := s.clk + 1 }
  if s.power.on && !s.power.held then
    let s := tickCounter s
    let s := forAll (List.range 8) cvuTick { s with glb.holdover := s.tmu.holdover }
    forAll jobNos tickJob s
  else s

end Sys2Proof.Machine
end

