-- ==== Sys2Proof/Machine/Sitetime.lean ====
section
/-! DEFINITION. Sitetime: the counter's commands, holdover, steps, the schedule's records and 1PPS (R351 to
R362, R367 to R377). -/

namespace Sys2Proof.Machine

/-- The signed difference of two instants on the extended counter (R358, R373). -/
def siteDiff (a b : BitVec 48) : Int := (a - b).toInt

/-- Sitetime has reached an instant (R373). -/
def reached (t : BitVec 48) (s : State) : Bool := 0 ≤ siteDiff (siteNow s) t

/-! The counter's registers (R353 to R357). -/

/-- TMU_NS is read: the latches take the same tick's values (R354). -/
def tmuNsRead (s : State) : State :=
  emit (.regValue 0x30000 s.tmu.ns)
    { s with tmu.latFrac := s.tmu.frac, tmu.latSec := s.tmu.sec, tmu.latEra := s.tmu.era }

/-- TMU_NS_READ (R354). -/
def execTmuNsRead (s : State) : Host.Outcome State Fault Refusal := onRead 0x30000 tmuNsRead s

/-- The watchdog restarts (R356). -/
def wdogRestart (s : State) : State := { s with tmu.wdogStart := s.clk, tmu.wdogDone := false }

/-- An addend that R355 accepts. -/
def addendOk (v : Word) : Bool := 0x1FFBE76D ≤ v.toNat && v.toNat ≤ 0x20041893

/-- A TMU_ADDEND write (R355, R356). -/
def tmuAddendWrite (v : Word) (s : State) : State :=
  if !addendOk v then raise 0x7005 2 [v] (tmuFlag 6 s)
  else
    let first := !s.tmu.addendWritten
    let was := s.tmu.holdover
    let secs := since s.tmu.holdoverSince s / 500000000
    let s := wdogRestart { s with tmu.addend := v, tmu.addendWritten := true, tmu.holdover := false, glb.holdover := false }
    if was && !first then raise 0x7002 1 [v, word secs] s else s

/-- TMU_ADDEND_WRITE (R355). -/
def execTmuAddendWrite (value : Word) (s : State) : Host.Outcome State Fault Refusal :=
  onWrite (tmuAddendWrite value) s

/-- A TMU_WDOG write: a timeout of 0 is not taken, and the watchdog restarts (R353, R356). -/
def tmuWdogWrite (v : Word) (s : State) : State :=
  let t : BitVec 8 := v.setWidth 8
  wdogRestart { s with tmu.timeoutS := if t = 0 then s.tmu.timeoutS else t }

/-- TMU_WDOG_WRITE (R356). -/
def execTmuWdogWrite (value : Word) (s : State) : Host.Outcome State Fault Refusal :=
  onWrite (tmuWdogWrite value) s

/-- The watchdog has expired (R356). -/
def wdogExpired (s : State) : Bool := ticksS s.tmu.timeoutS.toNat ≤ since s.tmu.wdogStart s

/-- Holdover is entered when the watchdog expires (R356). -/
def holdoverEnter (s : State) : State :=
  if s.tmu.wdogDone || !wdogExpired s then s
  else
    let s' := { s with tmu.wdogDone := true }
    if s.tmu.holdover then s'
    else raise 0x7001 2 [s.tmu.addend, s.tmu.timeoutS.setWidth 32]
      (tmuFlag 4 { s' with tmu.holdover := true, glb.holdover := true, tmu.holdoverSince := s.clk })

/-- HOLDOVER_ENTER (R356). -/
def execHoldoverEnter (s : State) : Host.Outcome State Fault Refusal := live holdoverEnter s

/-- The next tick wraps ns (R351). -/
def wrapsNext (s : State) : Bool := wrapsAt s.tmu

/-- NS_WRAP: the tick in which ns wraps forward (R351, log 1). -/
def execNsWrap (s : State) : Host.Outcome State Fault Refusal :=
  live (fun s => if wrapsNext s then tick s else s) s

/-! Second boundaries (R368). -/

/-- Sec and next_edge after the boundaries at or before a Sitetime (R368). -/
def alignBoundary (now : BitVec 48) (t : Tmu) : Tmu :=
  let k := siteDiff now t.nextEdge / 1000000000 + 1
  { t with nextEdge := t.nextEdge + BitVec.ofInt 48 (k * 1000000000), sec := t.sec + sword k,
           edgeLoaded := false }

/-- One boundary is passed (R368). -/
def secondBoundary (s : State) : State :=
  if reached s.tmu.nextEdge s then
    { s with tmu.sec := s.tmu.sec + 1, tmu.nextEdge := s.tmu.nextEdge + 1000000000, tmu.edgeLoaded := false }
  else s

/-- SECOND_BOUNDARY (R368). -/
def execSecondBoundary (s : State) : Host.Outcome State Fault Refusal := live secondBoundary s

/-- The last boundary of the grid whose output edge is not in the future (R369); a grid that PPS_CONFIG loaded and
Sitetime has not reached counts as at the second before its first boundary. -/
def lastDue (s : State) : BitVec 48 :=
  let k := (siteDiff (siteNow s) s.tmu.nextEdge + s.tmu.outDelay.toInt) / 1000000000
  let k := if s.tmu.edgeLoaded then max k (-1) else k
  s.tmu.nextEdge + BitVec.ofInt 48 (k * 1000000000)

/-- A boundary's edge has not been given yet. -/
def edgeOwed (b : BitVec 48) (s : State) : Bool :=
  match s.tmu.ppsGiven with
  | some g => decide (0 < siteDiff b g)
  | none => true

/-- PPS OUT rises for a boundary that has come and has had no pulse (R368, R369). -/
def ppsOutRise (s : State) : State :=
  let b := lastDue s
  if s.tmu.outEn && edgeOwed b s && !(s.tmu.edgeLoaded && siteDiff b s.tmu.nextEdge < 0) then
    { s with tmu.ppsOut := true, tmu.ppsRose := s.clk, tmu.ppsGiven := some b }
  else s

/-- PPS_OUT_RISE (R369). -/
def execPpsOutRise (s : State) : Host.Outcome State Fault Refusal := live ppsOutRise s

/-- PPS OUT falls width_us after it rose (R369). -/
def ppsOutFall (s : State) : State :=
  if s.tmu.ppsOut && ticksUs s.tmu.widthUs ≤ since s.tmu.ppsRose s then { s with tmu.ppsOut := false } else s

/-- PPS_OUT_FALL (R369). -/
def execPpsOutFall (s : State) : Host.Outcome State Fault Refusal := live ppsOutFall s

/-! The 1PPS input (R367). -/

/-- An edge of the selected polarity is captured unless it begins a pulse shorter than 100 ns or follows a capture
within 500 ms (R367; log 64). -/
def ppsInputEdge (rising : Bool) (pulse : Nat) (s : State) : State :=
  let soon := match s.tmu.lastCapture with
    | some t => since t s < ticksMs 500
    | none => false
  if !s.tmu.inEn || rising = s.tmu.inFall || pulse < 100 || soon then s
  else
    let v := siteNow s - s.tmu.inDelay.signExtend 48
    let s := { s with tmu.ppsTs := v.setWidth 32, tmu.ppsFrac := s.tmu.frac,
                      tmu.ppsEra := (v >>> 32).setWidth 16,
                      tmu.lastCapture := some s.clk, tmu.lostTold := false }
    tmuFlag 3 (if bit s.tmu.status 3 then tmuFlag 5 s else s)

/-- PPS_INPUT_EDGE (R367). -/
def execPpsInputEdge (rising : Bool) (pulse : Nat) (s : State) : Host.Outcome State Fault Refusal :=
  live (ppsInputEdge rising pulse) s

/-- 2 s without a capture (R367). -/
def ppsLost (s : State) : State :=
  let from0 := match s.tmu.lastCapture with
    | some t => max t s.tmu.enabledAt
    | none => s.tmu.enabledAt
  if s.tmu.inEn && !s.tmu.lostTold && ticksS 2 ≤ since from0 s then
    raise 0x7006 2 [s.tmu.ppsTs] (tmuFlag 7 { s with tmu.lostTold := true })
  else s

/-- PPS_LOST (R367). -/
def execPpsLost (s : State) : Host.Outcome State Fault Refusal := live ppsLost s

/-- PPS_CONFIG. -/
def ppsConfigCmd : Cmd where
  op := 0x0805
  len := (· = 7)
  unadmitted := []
  object := fun _ _ => none
  args := fun r s => firstOf [
    need (zeroFrom r 2 4 && zeroFrom r 6 20) .badArg,
    need (rb r 2 3 || (rw r 4 = 0 && rw r 5 = 0)) .badArg,
    need (rf r 6 0 20 ≤ 500000) .badArg,
    need (!rb r 2 3 || (let d := (rw r 4 - s.tmu.ns).toNat; 1000000 ≤ d && d ≤ 2000000000)) .refusedSchedule]
  run := fun r s =>
    let t := s.tmu
    let t := { t with
      inEn := rb r 2 0, inFall := rb r 2 1, outEn := rb r 2 2,
      enabledAt := if rb r 2 0 && !t.inEn then s.clk else t.enabledAt,
      lostTold := if rb r 2 0 && !t.inEn then false else t.lostTold,
      inDelay := BitVec.ofNat 16 (rf r 3 0 16), outDelay := BitVec.ofNat 16 (rf r 3 16 16),
      widthUs := if rf r 6 0 20 = 0 then 100000 else rf r 6 0 20 }
    let t := if rb r 2 3 then
        { t with nextEdge := siteNow s + (rw r 4 - s.tmu.ns).setWidth 48, sec := rw r 5 - 1,
                 edgeLoaded := true }
      else t
    let s := { s with tmu := t }
    .ok { s with tmu.ppsGiven := some (lastDue s) }

def execPpsConfig (r : Req) (s : State) : Host.Outcome State Fault Refusal := .next (runCmd ppsConfigCmd r s)

/-! The schedule's records (R370 to R376). -/

/-- The value of an entry's state (R370). -/
def entCode : EntState → Nat
  | .free => 0 | .armed => 1 | .firing => 2 | .spent => 3 | .disarmed => 4

/-- A Spent or Disarmed entry whose record is no longer kept (R371). -/
def entExpired (e : Entry) (s : State) : Bool :=
  (e.st = .spent || e.st = .disarmed) && 2 ^ 31 ≤ siteDiff (siteNow s) e.instant

/-- An entry holds a record (R370, R371). -/
def entHolds (e : Entry) (s : State) : Bool := e.st ≠ .free && !entExpired e s

/-- Armed or Firing (R358). -/
def entActive (e : Entry) : Bool := e.st = .armed || e.st = .firing

/-- The record of a sequence number: of several, the one armed last (R371). -/
def findSeq (q : BitVec 16) (s : State) : Option (Nat × Entry) :=
  s.sched.entries.foldl (fun best p =>
    if p.2.seq = q && entHolds p.2 s then
      match best with
      | some b => if b.2.order ≤ p.2.order then some p else some b
      | none => some p
    else best) none

/-- Entry `a` comes before entry `b`: earlier instant, then armed first (R358, R374). -/
def entBefore (a b : Entry) (s : State) : Bool :=
  let x := siteDiff a.instant (siteNow s)
  let y := siteDiff b.instant (siteNow s)
  x < y || (x = y && a.order < b.order)

/-- The first entry, by instant and then by arming, that meets a test. -/
def firstEntry (p : Entry → Bool) (s : State) : Option (Nat × Entry) :=
  s.sched.entries.foldl (fun best x =>
    if p x.2 then
      match best with
      | some b => if entBefore x.2 b.2 s then some x else some b
      | none => some x
    else best) none

/-- The entry that an arming takes: a Free one, else the Spent or Disarmed one of the earliest instant
(R371). -/
def takeIndex (s : State) : Option Nat :=
  match (List.range 1024).find? (fun i => !entHolds (schedOf s i) s) with
  | some i => some i
  | none => (firstEntry (fun e => e.st = .spent || e.st = .disarmed) s).map (·.1)

/-- The instant of an arming keeps R373. -/
def leadOk (t : Word) (lead : Nat) (s : State) : Bool :=
  let d := (t - s.tmu.ns).toNat
  lead ≤ d && d ≤ 2000000000

/-- The extended instant of an arming (R373). -/
def resolve (t : Word) (s : State) : BitVec 48 :=
  (if t.toNat < s.tmu.ns.toNat then s.tmu.era + 1 else s.tmu.era) ++ t

/-- The sequence number after another (R371). -/
def seqAfter (q : BitVec 16) : BitVec 16 := if q = 0xFFFF then 1 else q + 1

/-- Arm entry `i` (R371, R373, R376). -/
def armAt (i action : Nat) (t : Word) (notify : Bool) (arg : Nat) (tag : Word) (s : State) : State :=
  let e : Entry := { st := .armed, instant := resolve t s, seq := s.sched.nextSeq, action := action,
                     notify := notify, arg := arg, tag := tag, order := s.sched.armCount }
  let s := setSched i e s
  { s with sched.nextSeq := seqAfter s.sched.nextSeq, sched.armCount := s.sched.armCount + 1 }

/-- An entry is done firing (R370, R372). -/
def spend (i : Nat) (failed : Bool) (s : State) : State :=
  let e := schedOf s i
  if e.st = .firing then setSched i { e with st := .spent, failed := failed } s else s

/-- The record of an entry (R376). -/
def entRecord (e : Entry) : List Word :=
  [e.instant.setWidth 32,
   word (e.seq.toNat + 65536 * e.action + 2 ^ 20 * entCode e.st + 2 ^ 23 * b2n e.notify
     + 2 ^ 24 * b2n e.late + 2 ^ 25 * b2n e.failed),
   word ((e.instant >>> 32).toNat + 65536 * e.arg), e.tag]

/-- SCHED_ARM's checks of R373 and of the table, and its effect; shared by every command that arms. -/
def armWith (action lead : Nat) (t : Word) (notify : Bool) (arg : Nat) (tag : Word) (s : State) :
    Except Status (Nat × State) :=
  if !leadOk t lead s then .error .refusedSchedule
  else match takeIndex s with
    | none => .error .noResource
    | some i => .ok (i, armAt i action t notify arg tag s)

/-- SCHED_ARM. -/
def schedArmCmd : Cmd where
  op := 0x0801
  len := (· = 5)
  unadmitted := []
  object := fun _ _ => none
  args := fun r _ => need (zeroFrom r 2 5 && (rf r 2 0 4 = 1 || rf r 2 0 4 = 5)) .badArg
  run := fun r s =>
    match armWith (rf r 2 0 4) (if rf r 2 0 4 = 1 then 1000000 else 100000) (rw r 3) (rb r 2 4) 0 (rw r 4) s with
    | .error st => .of st [] s
    | .ok (i, s') =>
      let e := schedOf s' i
      .of .accepted [word (e.seq.toNat + 65536 * i), word (e.instant >>> 32).toNat] s'

def execSchedArm (r : Req) (s : State) : Host.Outcome State Fault Refusal := .next (runCmd schedArmCmd r s)

/-- Sequence numbers, two to a word (SCHED_QUERY). -/
def seqWords : List (BitVec 16) → List Word
  | [] => []
  | [a] => [a.setWidth 32]
  | a :: b :: l => (b ++ a) :: seqWords l

/-- SCHED_QUERY. -/
def schedQueryCmd : Cmd where
  op := 0x0803
  len := (· = 3)
  unadmitted := []
  object := fun _ _ => none
  args := fun r s => firstOf [need (rf r 2 1 15 = 0) .badArg,
    need (rb r 2 0 || (findSeq (BitVec.ofNat 16 (rf r 2 16 16)) s).isSome) .badArg]
  run := fun r s =>
    if rb r 2 0 then
      .of .ok (word (s.sched.fired.length + 128 * b2n s.sched.overflow) :: seqWords s.sched.fired)
        { s with sched.fired := [], sched.overflow := false }
    else match findSeq (BitVec.ofNat 16 (rf r 2 16 16)) s with
      | none => .of .badArg [] s
      | some (_, e) =>
        let armed := (s.sched.entries.filter (fun p => p.2.st = .armed)).length
        let held := (s.sched.entries.filter (fun p => entHolds p.2 s)).length
        .of .ok (entRecord e ++ [word (armed + 65536 * (1024 - held))]) s

def execSchedQuery (r : Req) (s : State) : Host.Outcome State Fault Refusal :=
  .next (runCmd schedQueryCmd r s)

/-- A record is dropped 2^31 ns after its instant (R371). -/
def schedRecordExpire (i : Nat) (s : State) : State :=
  if entExpired (schedOf s i) s then setSched i {} s else s

/-- SCHED_RECORD_EXPIRE (R371). -/
def execSchedRecordExpire (index : Fin 1024) (s : State) : Host.Outcome State Fault Refusal :=
  live (schedRecordExpire index) s

/-! Steps (R357 to R360). -/

/-- An entry blocks a negative step: its instant lies in the interval that would repeat (R358). -/
def blocksStep (step : Int) (s : State) (e : Entry) : Bool :=
  let d := siteDiff (siteNow s) e.instant
  entActive e && 0 ≤ d && d ≤ -step

/-- The state that R360 gives a blocking entry: one whose instant has come counts as Firing. -/
def blockCode (e : Entry) : Nat := if e.st = .armed then 2 else entCode e.st

/-- The entries that a positive step passes are late (R359). -/
def markPassed (old new : BitVec 48) (e : Entry) : Entry :=
  if e.st = .armed && 0 < siteDiff e.instant old && siteDiff e.instant new ≤ 0 then
    { e with passed := true } else e

/-- The counter after an accepted step; a carry sets wrap, a borrow does not (R357). -/
def stepCounter (step : Int) (s : State) : State :=
  let new := siteNow s + BitVec.ofInt 48 step
  let carry := 0 < step && new.toNat % 2 ^ 32 < s.tmu.ns.toNat
  let s' := { s with tmu.ns := new.setWidth 32, tmu.era := (new >>> 32).setWidth 16 }
  if carry then tmuFlag 2 s' else s'

/-- The last boundary whose edge PPS OUT gives no more, when a step moves the last boundary at or before Sitetime: a
positive step passes boundaries without edges, the edges of those that a negative step brings back come again (R368). -/
def givenAfter (before after : BitVec 48) (given : Option (BitVec 48)) : Option (BitVec 48) :=
  let d := siteDiff after before
  match given with
  | none => some after
  | some g =>
    if (0 < d && siteDiff g after < 0) || (d < 0 && 0 < siteDiff g after) then some after else some g

/-- Boundaries move with a step from a Sitetime; before a loaded boundary is reached, Sitetime moves alone (R368,
PPS_CONFIG). -/
def stepBoundary (wasLoaded : Bool) (old : BitVec 48) (s : State) : State :=
  if wasLoaded && !reached s.tmu.nextEdge s then s
  else
    let before := (if wasLoaded then s.tmu else alignBoundary old s.tmu).nextEdge - 1000000000
    let t := alignBoundary (siteNow s) s.tmu
    { s with tmu := { t with ppsGiven := givenAfter before (t.nextEdge - 1000000000) t.ppsGiven } }

/-- A TMU_STEP write (R357 to R360). -/
def tmuStepWrite (v : Word) (s : State) : State :=
  let step := v.toInt
  match (if step < 0 then firstEntry (blocksStep step s) s else none) with
  | some (_, e) =>
    raise 0x7003 2 [v, s.tmu.ns, e.seq.setWidth 32, word (blockCode e)] (tmuFlag 1 s)
  | none =>
    let before := s.tmu.ns
    let old := siteNow s
    let loaded := s.tmu.edgeLoaded && !reached s.tmu.nextEdge s
    let s := if step = 0 then s else stepBoundary loaded old (stepCounter step s)
    let s := if 0 < step then
        { s with sched.entries := s.sched.entries.map (fun p => (p.1, markPassed old (siteNow s) p.2)) }
      else s
    raise 0x7004 1 [v, before, s.tmu.era.setWidth 32] s

/-- TMU_STEP_WRITE (R357). -/
def execTmuStepWrite (value : Word) (s : State) : Host.Outcome State Fault Refusal :=
  onWrite (tmuStepWrite value) s

end Sys2Proof.Machine
end

