-- ==== Sys2Proof/Machine/Welt.lean ====
section
/-! DEFINITION. The Welt: banks, the compiler, the relace, lace states, power and forces (R294 to R318). -/

namespace Sys2Proof.Machine

def laceOf (b : Tbl (Option Lace)) (i : Nat) : Option Lace := tget none b i
def runOf (s : State) (i : Nat) : LaceRun := tget {} s.welt.laces i
def setRun (i : Nat) (x : LaceRun) (s : State) : State := { s with welt.laces := tset {} s.welt.laces i x }

def cellOf (s : State) (c : Nat) : Cell := tget {} s.shank.cells c
def setCell (c : Nat) (x : Cell) (s : State) : State := { s with shank.cells := tset {} s.shank.cells c x }

def planeOf (s : State) (p : Nat) : Plane := tget {} s.shank.planes p
def setPlane (p : Nat) (x : Plane) (s : State) : State :=
  { s with shank.planes := tset {} s.shank.planes p x }

/-- The number of the cell at a stage of a lace's route (R294). -/
def cellNo (index stage code : Nat) : Nat := 1920 * (index / 160) + 128 * stage + code % 128

/-- The cells of a lace with their targets (R301). -/
def laceCells (index : Nat) (x : Lace) : List (Nat × Bool) :=
  x.route.zipIdx.map (fun p => (cellNo index p.2 p.1, p.1 / 128 % 2 = 1))

/-- The tap at the outlet of a lace: the output of its last cell (R314). -/
def outletTap (index : Nat) (x : Lace) : Nat :=
  match x.route.getLast? with
  | some c => 2 * cellNo index (x.route.length - 1) c + (c / 256 % 2 + c / 128 % 2) % 2
  | none => 0

/-- The cells of a bank with their targets. -/
def bankCells (b : Tbl (Option Lace)) : List (Nat × Bool) :=
  b.flatMap (fun e => match e.2 with
    | some x => laceCells e.1 x
    | none => [])

/-- Words 0 and 1 of a bank entry (R301). -/
def laceWords (index : Nat) (x : Option Lace) : List Word :=
  match x with
  | none => [0, 0]
  | some l => [word (1 + 2 * (index / 160) + 4 * (index % 160) + 1024 * l.outlet), word l.tag]

/-! The compiler (R303 to R305). -/

/-- A lace of a plan: entry index, outlet and tag. -/
structure PlanLace where
  index : Nat
  outlet : Nat
  tag : Nat
deriving DecidableEq, Repr

/-- Words 0 and 1 of a plan entry name a lace that R296 allows. -/
def planLaceOk (w0 w1 : Nat) : Bool :=
  let plane := w0 / 2 % 2
  let inlet := w0 / 4 % 256
  let outlet := w0 / 1024 % 256
  w0 / 2 ^ 18 = 0 && w1 / 65536 = 0 && inlet < 160 && outlet < 160 &&
    (if plane = 0 then 32 ≤ outlet && inlet ≠ outlet else 32 ≤ inlet && outlet < 32)

/-- A lace of a plan entry. -/
def planLace (w0 w1 : Nat) : PlanLace :=
  { index := 160 * (w0 / 2 % 2) + w0 / 4 % 256, outlet := w0 / 1024 % 256, tag := w1 % 65536 }

/-- A lace does not break R297 beside the laces before it. -/
def planFits (x : PlanLace) (l : List PlanLace) : Bool :=
  l.all (fun y => y.index ≠ x.index && !(y.index / 160 = x.index / 160 && y.outlet = x.outlet)
    && !(32 ≤ x.index % 160 && y.index % 160 = x.index % 160))

/-- The laces of a plan, or the index of the first entry refused (R296, R297, R301, R303). -/
def readPlan : List Word → Nat → List PlanLace → Except Nat (List PlanLace)
  | w0 :: w1 :: ws, i, acc =>
    if !bit w0 0 then readPlan ws (i + 1) acc
    else if planLaceOk w0.toNat w1.toNat && planFits (planLace w0.toNat w1.toNat) acc then
      readPlan ws (i + 1) (acc ++ [planLace w0.toNat w1.toNat])
    else .error i
  | _, _, acc => .ok acc

/-- A plan as the compiler sees it, in ascending entry index. -/
def planKey (l : List PlanLace) : List (Nat × Nat) :=
  (List.range 320).filterMap (fun i => (l.find? (fun x => x.index = i)).map (fun x => (i, x.outlet)))

/-- The laces that keep would hold: valid in both banks with the same outlet (R305). -/
def keptRoutes (active : Tbl (Option Lace)) (l : List PlanLace) : List (Nat × List Nat) :=
  active.filterMap (fun e => match e.2 with
    | some x => if l.any (fun y => y.index = e.1 && y.outlet = x.outlet) then some (e.1, x.route) else none
    | none => none)

/-- The bank that the compiler makes with some routes held (R303, R305). -/
def makeBank (l : List PlanLace) (held : List (Nat × List Nat)) : Tbl (Option Lace) :=
  let routes := planRoutes (planKey l) held
  l.foldl (fun b x =>
    tset none b x.index (some { outlet := x.outlet, tag := x.tag, route := match routes.find? (fun h => h.1 = x.index) with
      | some h => h.2
      | none => [] })) []

/-- How many of the kept laces, in ascending index order, can be kept together (R305). -/
def keepable (l : List PlanLace) (kept : List (Nat × List Nat)) : Nat → Nat
  | 0 => 0
  | n + 1 => if canRoute (planKey l) (kept.take (n + 1)) then n + 1 else keepable l kept n

/-- Compile a plan: the bank, or the entry index of the first lace that could not be kept (R305). -/
def compile (keep : Bool) (l : List PlanLace) (active : Tbl (Option Lace)) :
    Except Nat (Tbl (Option Lace)) :=
  let kept := keptRoutes active l
  let n := keepable l kept kept.length
  if n = kept.length then .ok (makeBank l kept)
  else if keep then .error (nth (0, []) kept n).1
  else .ok (makeBank l [])

/-- The kind of a touched index: new 0, rerouted 1, retargeted 2, removed 3 (R304). -/
def touchKind (a b : Option Lace) : Option Nat :=
  match a, b with
  | none, none => none
  | none, some _ => some 0
  | some _, none => some 3
  | some x, some y => if x.outlet ≠ y.outlet then some 2 else if x.route ≠ y.route then some 1 else none

/-- The touched indices in ascending order (R304). -/
def touchedList (a b : Tbl (Option Lace)) : List (Nat × Nat) :=
  (List.range 320).filterMap (fun i => (touchKind (laceOf a i) (laceOf b i)).map (fun k => (i, k)))

/-- The lanes whose local port's lace is in the touched list (R288). -/
def touchedLanes (a b : Tbl (Option Lace)) : List Nat :=
  let t := (touchedList a b).map (·.1)
  (List.range 32).filter (fun n => t.contains n || t.any (fun i =>
    160 ≤ i && ((laceOf a i).map (·.outlet) = some n || (laceOf b i).map (·.outlet) = some n)))

/-- A touched-list entry (LACE_PLAN_COMPILE). -/
def touchWords (a b : Tbl (Option Lace)) (p : Nat × Nat) : List Word :=
  let old := match laceOf a p.1 with
    | some x => x.outlet
    | none => 0
  let new := match laceOf b p.1 with
    | some x => x.outlet
    | none => 0
  let tag := match laceOf b p.1, laceOf a p.1 with
    | some x, _ => x.tag
    | none, some x => x.tag
    | none, none => 0
  [word (p.1 + 512 * p.2 + 2 ^ 11 * (if p.2 = 2 || p.2 = 3 then old else 0)
      + 2 ^ 19 * (if p.2 = 3 then 0 else new)), word tag]

/-- Valid entries of a bank. -/
def laceCount (b : Tbl (Option Lace)) : Nat := (b.filter (fun e => e.2.isSome)).length

/-- Distinct cells of a bank with their targets. -/
def cellSet (b : Tbl (Option Lace)) : Tbl (Option Bool) :=
  (bankCells b).foldl (fun t p => tset none t p.1 (some p.2)) []

/-- Heater power of a bank in 0.1 W: the sum of its cells' feed-forward drives (LACE_PLAN_COMPILE,
log 22). -/
def heaterDw (b : Tbl (Option Lace)) (s : State) : Nat :=
  (((cellSet b).map (fun e => ffOf e.1 (e.2.getD false) s)).sum / (65536 * 100)).toNat

/-- The active bank and generation that a compile compares against: those before a commit of the same tick (R307). -/
def comparedBank (s : State) : Tbl (Option Lace) × BitVec 16 :=
  match s.welt.commitWas with
  | some x => if x.tick = s.clk then (x.bank, x.gen) else (s.welt.active, s.welt.activeGen)
  | none => (s.welt.active, s.welt.activeGen)

/-- The shadow bank, base_gen and loaded at the start of this tick (R307). -/
def shadowAtTick (s : State) : ShadowWas :=
  let now : ShadowWas := { tick := s.clk, bank := s.welt.shadow, gen := s.welt.baseGen, loaded := s.welt.loaded }
  match s.welt.loadWas with
  | some x => if x.tick = s.clk then x else now
  | none => now

/-- A compiled bank becomes the shadow bank (R302, R307). -/
def loadShadow (b : Tbl (Option Lace)) (keep : Bool) (s : State) : State :=
  let (active, gen) := comparedBank s
  { s with welt := { s.welt with
      shadow := b, shadowLanes := touchedLanes active b, baseGen := gen, loaded := true, keep := keep,
      loadWas := some (shadowAtTick s) } }

/-- LACE_PLAN_COMPILE. -/
def lacePlanCompileCmd : Cmd where
  op := 0x0501
  len := (· = 12)
  unadmitted := []
  object := fun _ _ => none
  args := fun r _ =>
    let n := rf r 3 0 9
    firstOf [need (zeroFrom r 2 2 && zeroFrom r 3 9 && n ≤ 160) .badArg,
      need (if n = 0 then zeroWords r 4 7 else bulkOk r 4 && bulkLen r 4 = 8 * n) .badArg,
      need (bulkOk r 8 && 5120 ≤ bulkLen r 8) .badArg]
  run := fun r s =>
    let n := rf r 3 0 9
    let d := if n = 0 then 0 else 1
    if n ≠ 0 && !dmaGood r 0 then dmaFailed 0x0501 r 4 [] s
    else if !dmaGood r d then dmaFailed 0x0501 r 8 [] s
    else match readPlan (if n = 0 then [] else bytesWords (bulkBytes r 0 4)) 0 [] with
      | .error i => .of .badArg [word i] s
      | .ok l =>
        let (active, gen) := comparedBank s
        match compile (rb r 2 0) l active with
        | .error i =>
          let tag := match l.find? (fun x => x.index = i) with
            | some x => x.tag
            | none => 0
          .of .refusedSchedule [0, gen.setWidth 32, word (i + 65536 * tag), 0] s
        | .ok b =>
          let t := touchedList active b
          let words := [word (laceCount b + 512 * t.length), gen.setWidth 32, word 0x1FF,
            word (Config.predictedUs ((bankCells b).map (·.1)) % 65536 + 65536 * (heaterDw b s % 65536))]
          let data := wordsBytes (t.flatMap (touchWords active b))
          let s := if rb r 2 1 then
              raise 0x5001 1 [gen.setWidth 32, word (laceCount b), word t.length, word (b2n (rb r 2 0))]
                (loadShadow b (rb r 2 0) s)
            else s
          .reply .ok words (if data.isEmpty then [] else [(bulkAddr r 8, data)]) s

def execLacePlanCompile (r : Req) (s : State) : Host.Outcome State Fault Refusal :=
  .next (runCmd lacePlanCompileCmd r s)

/-- Active laces in a state. -/
def lacesIn (st : LaceSt) (s : State) : Nat := (s.welt.laces.filter (fun e => e.2.st = st)).length

/-- LACE_BANK_QUERY. -/
def laceBankQueryCmd : Cmd where
  op := 0x0502
  len := (· = 7)
  unadmitted := []
  object := fun _ _ => none
  args := fun r _ => firstOf [need (zeroFrom r 2 1) .badArg,
    need (zeroWords r 3 6 || (bulkOk r 3 && 2560 ≤ bulkLen r 3)) .badArg]
  run := fun r s =>
    let shadow := rb r 2 0
    let b := if shadow then s.welt.shadow else s.welt.active
    let want := !zeroWords r 3 6
    if want && !dmaGood r 0 then dmaFailed 0x0502 r 3 [] s
    else
      let w := s.welt
      .reply .ok
        [word (laceCount b + 65536 * w.activeGen.toNat),
         word ((if shadow then w.baseGen.toNat else 0)
           + 65536 * bitsNat [w.loaded, w.keep, w.baseGen ≠ w.activeGen]),
         w.lastT, word (w.lastLock + 65536 * w.lastTouched),
         word (lacesIn .unlocked s + 512 * lacesIn .dark s), word (b2n w.powered)]
        (if want then [(bulkAddr r 3, wordsBytes ((List.range 320).flatMap (fun i => laceWords i (laceOf b i))))]
         else []) s

def execLaceBankQuery (r : Req) (s : State) : Host.Outcome State Fault Refusal :=
  .next (runCmd laceBankQueryCmd r s)

/-! Powers of a lace (R314, LACE_STATUS). -/

/-- A power in units of 0.01 dBm as 16 bits; 0x8000 below −40 dBm. -/
def dbm100 (v : Q) : Nat := if v < qi (-40) then 0x8000 else unsignedOf 16 (rneDiv (v * 100) 65536)

/-- The inlet power of a lace. -/
def inletPower (i : Nat) (s : State) : Q := reading 5 i s

/-- The outlet power of a lace in a table of readings. -/
def outletIn (values : Tbl (Option Q)) (i : Nat) (s : State) : Q :=
  match laceOf s.welt.active i with
  | some x => readIn values 0 (outletTap i x)
  | none => qi (-128)

/-- The outlet power of a lace. -/
def outletPower (i : Nat) (s : State) : Q := outletIn s.mon.values i s

/-- A pass loss in units of 0.01 dB as 16 bits; 0x8000 when not lit. -/
def lossOf (pin pout : Q) : Nat := if pin < qi (-30) then 0x8000 else unsignedOf 16 (rneDiv ((pin - pout) * 100) 65536)

/-- Pass loss of a lace. -/
def loss100 (i : Nat) (s : State) : Nat := lossOf (inletPower i s) (outletPower i s)

/-- The tag of an active lace. -/
def laceTag (i : Nat) (s : State) : Nat :=
  match laceOf s.welt.active i with
  | some x => x.tag
  | none => 0

/-- The value of a lace state (R309). -/
def laceCode : LaceSt → Nat
  | .idle => 0 | .settling => 1 | .locked => 2 | .dark => 3 | .unlocked => 4 | .forced => 5

/-- The two words of LACE_STATUS for an index: the readings are those latched for the last sample of its plane. -/
def laceStatusWords (s : State) (i : Nat) : List Word :=
  let cells := match laceOf s.welt.active i with
    | some x => laceCells i x
    | none => []
  let p := planeOf s (i / 160)
  let pin := readIn p.latch 5 i
  let pout := outletIn p.latch i s
  let sat := cells.any (fun c => (cellOf s c.1).sat)
  let stale := tget false p.latchStale (rdKey 5 i) || cells.any (fun c => (cellOf s c.1).stale)
  [word (laceCode (runOf s i).st + 8 * b2n sat + 16 * b2n stale + 65536 * lossOf pin pout),
   word (dbm100 pin + 65536 * dbm100 pout)]

/-- LACE_STATUS. -/
def laceStatusCmd : Cmd where
  op := 0x0503
  len := (· = 3)
  unadmitted := []
  object := fun _ _ => none
  args := fun r _ => need (zeroFrom r 2 16 && 1 ≤ rf r 2 9 7 && rf r 2 9 7 ≤ 64
    && rf r 2 0 9 + rf r 2 9 7 ≤ 320) .badArg
  run := fun r s => .of .ok ((List.range (rf r 2 9 7)).flatMap (fun k => laceStatusWords s (rf r 2 0 9 + k))) s

def execLaceStatus (r : Req) (s : State) : Host.Outcome State Fault Refusal := .next (runCmd laceStatusCmd r s)

/-! Cells of the active bank (R308, R323). -/

/-- A cell after the active bank changed: freed, new, retargeted or kept (R323). The drive of a freed cell falls with
the next sample (R320). -/
def retarget (new : Tbl (Option Bool)) (c : Nat) (s : State) : State :=
  match tget none new c with
  | none => setCell c { u := (cellOf s c).u, drive := (cellOf s c).drive } s
  | some t =>
    let x := cellOf s c
    if x.inUse && x.target = t then s
    else setCell c { x with inUse := true, target := t, changed := true, ia := 0, run := 0, used := 0,
                            seen := false, pass := false, lockedAt := none } s

/-- The cells follow the active bank (R300, R308). -/
def followBank (s : State) : State :=
  let new := cellSet s.welt.active
  let s := forAll (s.shank.cells.map (·.1)) (retarget new) s
  forAll (new.map (·.1)) (retarget new) s

/-- Both planes start a new sample now (R308, R319). -/
def newGrid (s : State) : State :=
  forAll [0, 1] (fun p s => setPlane p { planeOf s p with origin := s.clk, k := 0 } s) s

/-- Event 0x5006 of a lace (R318). -/
def darkEvent (i : Nat) (s : State) : State :=
  raise 0x5006 1 [word i, word (laceTag i s), word (dbm100 (inletPower i s))] s

/-- Event 0x5006 for those of some laces that are Dark and about to leave it (R318). -/
def leaveDark (l : List Nat) (s : State) : State :=
  forAll (l.filter (fun i => (runOf s i).st = .dark)) darkEvent s

/-- A lace enters Settling now (R309). -/
def settle (i : Nat) (s : State) : State := setRun i { st := .settling, settleAt := s.clk } s

/-- Both planes have sets and limits loaded (R306). -/
def shankLoaded (s : State) : Bool :=
  [0, 1].all (fun p => (planeOf s p).active.isSome
    && ((planeOf s p).limits.isSome || (planeOf s p).limitsDue.isSome))

/-- The first condition of R306 that fails. -/
def commitFails (s : State) : Option Nat :=
  if !(shadowAtTick s).loaded then some 1
  else if (shadowAtTick s).gen ≠ s.welt.activeGen then some 2
  else if !s.welt.powered then some 3
  else if !shankLoaded s then some 4
  else none

/-- Event 0x5003 of a relace (R310, R311, R318). -/
def relaceEvent (x : Relace) (lockUs : Nat) (superseded : Bool) (s : State) : State :=
  let inSt := fun st => (x.touched.filter (fun i => (runOf s i).st = st)).length
  let failed := (x.touched.filter (fun i => x.failed.contains i || (runOf s i).st = .unlocked)).length
  raise 0x5003 (if 1500 < lockUs || failed ≠ 0 then 2 else 1)
    [x.t, word lockUs, word x.touched.length, word (inSt .dark), word (inSt .forced), word failed,
     word (b2n superseded)] s

/-- The relace that a commit at T starts: its touched laces and the cells that it frees (R304, R310). -/
def newRelace (entry : Nat) (t : Word) (new : Tbl (Option Lace)) (s : State) : Relace :=
  let cells := cellSet new
  { t := t, tick := s.clk, touched := (touchedList s.welt.active new).map (·.1), failed := [],
    freed := ((cellSet s.welt.active).map (·.1)).filter (fun c => (tget none cells c).isNone), entry := entry }

/-- A commit that takes effect: the shadow as it stood at the start of the tick becomes active, touched laces settle, a
sample starts (R306 to R308, R311). Its events come in the order of their codes (R396). -/
def commitBank (entry : Nat) (t : Word) (s : State) : State :=
  let new := (shadowAtTick s).bank
  let x := newRelace entry t new s
  let s := raise 0x5002 1 [t, (s.welt.activeGen + 1).setWidth 32, word x.touched.length] s
  let s := match s.welt.relace with
    | some y => spend y.entry false (relaceEvent y 0xFFFF true s)
    | none => s
  let s := leaveDark x.touched s
  let s := { s with
    welt.active := new, welt.activeGen := s.welt.activeGen + 1, welt.lastT := t,
    welt.commitWas := some { tick := s.clk, bank := s.welt.active, gen := s.welt.activeGen },
    welt.lastLock := 0xFFFF, welt.lastTouched := x.touched.length, welt.relace := some x }
  let s := forAll x.touched (fun i s =>
    if (laceOf s.welt.active i).isSome then settle i s else setRun i {} s) s
  reevaluate 0x5002 (newGrid (followBank s))

/-- Every cell of a lace has its feed-forward drive (R309, R310). -/
def atFeedForward (i : Nat) (s : State) : Bool :=
  match laceOf s.welt.active i with
  | some x => (laceCells i x).all (fun c => (cellOf s c.1).drive = (cellOf s c.1).uff)
  | none => true

/-- A relace is complete: every touched lace that exists is Locked, Dark with its cells at feed-forward, Forced or
failed, and every cell that it freed is at zero drive (R310). -/
def relaceDone (x : Relace) (s : State) : Bool :=
  x.touched.all (fun i => (laceOf s.welt.active i).isNone || x.failed.contains i
    || (runOf s i).st = .locked || ((runOf s i).st = .dark && atFeedForward i s) || (runOf s i).st = .forced
    || (runOf s i).st = .unlocked)
  && x.freed.all (fun c => (cellOf s c).drive = 0)

/-- RELACE_COMPLETE (R310). -/
def relaceComplete (s : State) : State :=
  match s.welt.relace with
  | none => s
  | some x =>
    if relaceDone x s then
      let us := since x.tick s / 500
      let s := relaceEvent x us false s
      spend x.entry false { s with welt.relace := none, welt.lastLock := min us 0xFFFE }
    else s

def execRelaceComplete (s : State) : Host.Outcome State Fault Refusal := fed relaceComplete s

/-! Lace states (R309, R314). -/

/-- The first cell of a lace that fails the lock test (R318). -/
def failingCell (i : Nat) (s : State) : Nat :=
  match laceOf s.welt.active i with
  | some x => match (laceCells i x).find? (fun c => !(cellOf s c.1).pass) with
    | some c => c.1
    | none => 0xFFFF
  | none => 0xFFFF

/-- A lace becomes Unlocked, with event 0x5005; a touched one counts as failed (R309, R310). -/
def unlockLace (i : Nat) (s : State) : State :=
  let s := setRun i { st := .unlocked } s
  let s := { s with welt.relace := s.welt.relace.map (fun x =>
    if x.touched.contains i && !x.failed.contains i then { x with failed := x.failed ++ [i] } else x) }
  reevaluate 0x5005 (raise 0x5005 3 [word i, word (laceTag i s), word (failingCell i s)] s)

/-- LACE_SETTLE_TIMEOUT (R309). -/
def laceSettleTimeout (i : Nat) (s : State) : State :=
  let x := runOf s i
  if x.st = .settling && ticksMs 10 ≤ since x.settleAt s then unlockLace i s else s

def execLaceSettleTimeout (index : Fin 320) (s : State) : Host.Outcome State Fault Refusal :=
  fed (laceSettleTimeout index) s

/-- LACE_LOCK_LOSS: out of lock for 1 ms while lit (R309). -/
def laceLockLoss (i : Nat) (s : State) : State :=
  let x := runOf s i
  match x.outSince with
  | some t => if x.st = .locked && ticksMs 1 ≤ since t s && qi (-30) ≤ inletPower i s then unlockLace i s else s
  | none => s

def execLaceLockLoss (index : Fin 320) (s : State) : Host.Outcome State Fault Refusal :=
  fed (laceLockLoss index) s

/-- LACE_DARK: inlet power below −30 dBm for 100 µs (R309). -/
def laceDark (i : Nat) (s : State) : State :=
  let x := runOf s i
  match x.darkSince with
  | some t =>
    if (x.st = .settling || x.st = .locked || x.st = .unlocked) && ticksUs 100 ≤ since t s && inletPower i s < qi (-30) then
      reevaluate 0x5006 (darkEvent i (setRun i { st := .dark } s))
    else s
  | none => s

def execLaceDark (index : Fin 320) (s : State) : Host.Outcome State Fault Refusal := fed (laceDark index) s

/-- LACE_LIGHT_RETURN: inlet power above −28 dBm (R309). -/
def laceLightReturn (i : Nat) (s : State) : State :=
  if (runOf s i).st = .dark && qi (-28) < inletPower i s then darkEvent i (settle i s) else s

def execLaceLightReturn (index : Fin 320) (s : State) : Host.Outcome State Fault Refusal :=
  fed (laceLightReturn index) s

/-- The pass loss of a lit lace is above 3.5 dB (R314). -/
def lossHigh (i : Nat) (s : State) : Bool :=
  qi (-30) ≤ inletPower i s && 229376 < inletPower i s - outletPower i s

/-- LACE_LOSS_ALARM: for one second while Locked (R314). -/
def laceLossAlarm (i : Nat) (s : State) : State :=
  let x := runOf s i
  match x.lossSince with
  | some t =>
    if x.st = .locked && !x.lossTold && ticksS 1 ≤ since t s then
      raise 0x5009 2 [word i, word (laceTag i s), word (loss100 i s)] (setRun i { x with lossTold := true } s)
    else s
  | none => s

def execLaceLossAlarm (index : Fin 320) (s : State) : Host.Outcome State Fault Refusal :=
  fed (laceLossAlarm index) s

/-- The state of a lace after a sample of its plane (R309). -/
def laceAfterSample (i : Nat) (x : Lace) (s : State) : State :=
  let l := runOf s i
  let cells := laceCells i x
  let forced := cells.any (fun c => (tget none s.welt.forces c.1).isSome)
  let passes := cells.all (fun c => (cellOf s c.1).pass)
  let l := { l with lossSince := if l.st = LaceSt.locked && lossHigh i s then l.lossSince.or (some s.clk) else none,
                    lossTold := l.lossTold && l.st = LaceSt.locked && lossHigh i s,
                    darkSince := if inletPower i s < qi (-30) then l.darkSince.or (some s.clk) else none }
  let now := fun (t : LaceSt) => { st := t, darkSince := l.darkSince : LaceRun }
  match l.st with
  | .idle => s
  | .dark => setRun i (if forced then now .forced else l) (if forced then darkEvent i s else s)
  | .forced => setRun i (if forced then l else { now .settling with settleAt := s.clk }) s
  | .settling => setRun i (if forced then now .forced else if passes then now .locked else l) s
  | .locked => setRun i (if forced then now .forced
      else if passes then { l with outSince := none } else { l with outSince := l.outSince.or (some s.clk) }) s
  | .unlocked => setRun i (if forced then now .forced else if passes then now .locked else l) s

/-- A force takes an Unlocked lace of a plane in this sample (R309, R317). -/
def forceEndsUnlocked (plane : Nat) (s : State) : Bool :=
  s.welt.active.any (fun e => match e.2 with
    | some x => e.1 / 160 = plane && (runOf s e.1).st = .unlocked
        && (laceCells e.1 x).any (fun c => (tget none s.welt.forces c.1).isSome)
    | none => false)

/-- The laces of a plane after a sample (R309), with the evaluation of R52: an Unlocked lace that ends by a force names
event 0x5008, one that locks again event 0x5005, which announced it (R53; log 30). -/
def lacesAfterSample (plane : Nat) (s : State) : State :=
  let cause : BitVec 16 := if forceEndsUnlocked plane s then 0x5008 else 0x5005
  let s := s.welt.active.foldl (fun s e => match e.2 with
    | some x => if e.1 / 160 = plane then laceAfterSample e.1 x s else s
    | none => s) s
  reevaluate cause s

/-! Power and forces (R315 to R317). -/

/-- The event that a transition of R52 names when the Welt's power changes; none for WELT_POWER (R27). -/
def powerCause (cause : Nat) : BitVec 16 := if cause = 0 then 0 else 0x5007

/-- Heater power is removed: drives, heater powers, integrators and flags are zero and every lace is Idle (R315, R316,
R335, R337). Causes of 0x5007: log 26. -/
def weltOff (cause : Nat) (s : State) : State :=
  if !s.welt.powered then s
  else
    let s := leaveDark (s.welt.laces.map (·.1)) s
    let s := { s with
      welt.powered := false, welt.laces := [],
      shank.cells := s.shank.cells.map (fun e => (e.1, { inUse := e.2.inUse, target := e.2.target })),
      shank.planes := s.shank.planes.map (fun e => (e.1, { e.2 with
        id := 0, vd := 0, umax := 0, hadUse := false, stale := false, h := 0, nOver := 0, heater := 0,
        wonB := 0, wonD := 0, hotSince := none, hotTold := false })),
      mon.values := s.mon.values.filter (fun e => e.1 / 8192 ≠ 3),
      mon.stale := s.mon.stale.filter (fun e => e.1 / 8192 ≠ 3) }
    reevaluate (powerCause cause) (raise 0x5007 2 [0, word cause] s)

/-- The Welt is powered: every cell in use starts afresh and every valid lace enters Settling (R316, R319,
R323). In hold-up its domain stays off (R457). -/
def weltOn (cause : Nat) (s : State) : State :=
  if s.welt.powered || s.power.failing then s
  else
    let s := newGrid (followBank { s with welt.powered := true })
    let s := { s with shank.cells := s.shank.cells.map (fun e =>
      (e.1, { e.2 with changed := e.2.inUse, run := 0, used := 0, seen := false, pass := false })) }
    let s := forAll (s.welt.active.map (·.1)) settle s
    raise 0x5007 2 [1, word cause] s

/-- WELT_FORCE. -/
def weltForceCmd : Cmd where
  op := 0x0505
  len := (· = 4)
  unadmitted := []
  object := fun _ s => need (s.glb.maint && s.welt.powered) .wrongState
  args := fun r _ => need (zeroFrom r 2 14 && zeroFrom r 3 16 && rf r 2 0 12 ≤ 3839
    && (rf r 2 12 2 = 3 || rf r 3 0 16 = 0)) .badArg
  run := fun r s =>
    let c := rf r 2 0 12
    let m := rf r 2 12 2
    let f := if m = 0 then none else some { mode := m, drive := rf r 3 0 16 : Force }
    .ok (raise 0x5008 1 [word c, word m] { s with welt.forces := tset none s.welt.forces c f })

def execWeltForce (r : Req) (s : State) : Host.Outcome State Fault Refusal := .next (runCmd weltForceCmd r s)

/-- Every force is released at the next sample (R317). -/
def releaseForces (s : State) : State :=
  forAll (s.welt.forces.map (·.1)) (fun c s =>
    raise 0x5008 1 [word c, 0] { s with welt.forces := tset none s.welt.forces c none }) s

end Sys2Proof.Machine
end

