-- ==== Sys2Proof/Machine/Shank.lean ====
section
/-! DEFINITION. The Shank: the position estimate, the law of R324, coefficient sets, limits and rate
(R319 to R336, R479). -/

namespace Sys2Proof.Machine

/-! The position estimate (R321, R322). -/

/-- The reading that gives the power of an input of a cell: the tap of the cell before it, at stage 0 the inlet tap of
the port attached there (R295, R321). -/
def feedKey (cell input : Nat) : Option (Nat × Nat) :=
  let plane := cell / 1920
  let stage := cell % 1920 / 128
  let wire := 2 * (cell % 128) + input
  if stage = 0 then
    if wire < 32 && plane = 0 then some (5, wire)
    else if 128 ≤ wire then some (5, 160 * plane + (wire - 96)) else none
  else some (0, 2 * (1920 * plane + 128 * (stage - 1)) + prevWire (stage - 1) wire)

/-- The power of an input in dBm; one that nothing feeds is dark (R321). -/
def inputDbm (cell input : Nat) (s : State) : Q :=
  match feedKey cell input with
  | some k => reading k.1 k.2 s
  | none => qi (-128)

/-- A power in dBm, Q16.16, in mW, in units of 2^-512 mW (R321). -/
def milliwatt (x : Q) : Nat := (fxExp (x * fxLn (.dy false 10 0) / 655360)).toNat

/-- What R321 says of a cell: lit, and the cross transmission as a fraction where observable. -/
structure Estimate where
  lit : Bool
  frac : Option (Nat × Nat)
deriving DecidableEq, Repr

/-- A fraction clamped to 0 to 1. -/
def clampFrac (n d : Int) : Nat × Nat :=
  let (n, d) := if d < 0 then (-n, -d) else (n, d)
  ((max 0 (min n d)).toNat, d.toNat)

/-- The cross transmission of a cell (R321). -/
def estimate (cell : Nat) (s : State) : Estimate :=
  let p0 := inputDbm cell 0 s
  let p1 := inputDbm cell 1 s
  let b0 := milliwatt (reading 0 (2 * cell) s)
  let b1 := milliwatt (reading 0 (2 * cell + 1) s)
  let a0 := milliwatt p0
  let a1 := milliwatt p1
  match decide (qi (-30) ≤ p0), decide (qi (-30) ≤ p1) with
  | true, false => ⟨true, some (b1, b0 + b1)⟩
  | false, true => ⟨true, some (b0, b0 + b1)⟩
  | true, true =>
    if 196608 ≤ (p0 - p1).natAbs then ⟨true, some (clampFrac ((a0 : Int) - b0) ((a0 : Int) - a1))⟩
    else ⟨true, none⟩
  | false, false => ⟨false, none⟩

/-- sin² of (π / 2) × (h / 131,072), in units of 2^-512: the transmission at a position of h half steps of Q16.16. -/
def transmission (h : Nat) : Int :=
  let x := fxSinCos false (fxPi * h / 262144)
  fxMul x x

/-- The largest number below 2^n + y that passes a test, which holds up to it. -/
def lastThat (test : Nat → Bool) : Nat → Nat → Nat
  | 0, y => y
  | n + 1, y => lastThat test n (if test (y + 2 ^ n) then y + 2 ^ n else y)

/-- (2 / π) × asin(√(n / d)) in Q16.16, to nearest (R322). -/
def foldedNearest (n d : Nat) : Nat :=
  lastThat (fun y => y ≤ 65536 && transmission (2 * y - 1) * d ≤ fxOne * n) 17 0

/-- The folded position (R322): exact at transmissions 0, 1/2 and 1, else free within one step of the nearest
value (log 23). -/
def foldedPosition (n d : Nat) : Q :=
  if d = 0 then min 65536 (Config.foldedAngle n d)
  else if n = 0 then 0 else if n = d then 65536 else if 2 * n = d then 32768
  else min 65536 (qClamp (Config.foldedAngle n d) ((foldedNearest n d : Int) - 1) ((foldedNearest n d : Int) + 1))

/-- The position: whichever of yf, −yf and 2 − yf lies nearest ym, a tie going to yf (R322). -/
def unfold (yf u bar cross : Q) : Q :=
  let d := cross - bar
  let (n, d) := if d = 0 then (Config.modelPosition u, (65536 : Int))
    else if d < 0 then (bar - u, -d) else (u - bar, d)
  let far := fun (y : Q) => (y * d - 65536 * n).natAbs
  let y := if far (-yf) < far yf then -yf else yf
  if far (131072 - yf) < far y then 131072 - yf else y

/-! One sample of one cell (R323 to R329, R335). -/

/-- The integral coefficient per sample (R324). -/
def kit (ki : Q) (ts : Nat) : Q := rneDiv (ki * ts) 1000000

/-- What a sample of a plane gives all its cells. -/
structure SampleCtx where
  c : Coef
  lim : Limits
  ts : Nat
  h : Q
  vd : Q
  /-- a swap falls on this boundary (R332). -/
  swap : Bool

/-- A reading that the cell uses is stale (R329). -/
def cellStale (cell : Nat) (s : State) : Bool :=
  isStale 0 (2 * cell) s || isStale 0 (2 * cell + 1) s || isStale 3 cell s
    || [0, 1].any (fun i => match feedKey cell i with
      | some k => isStale k.1 k.2 s
      | none => false)

/-- The drive that a force gives (R317, R335). -/
def forcedDrive (cell : Nat) (f : Force) (s : State) : Q :=
  if f.mode = 1 then ffOf cell false s else if f.mode = 2 then ffOf cell true s else 40 * (f.drive : Int)

/-- The integrators of a cell as R332 re-initialises them, and whether one was clamped. -/
def reinitCell (k : SampleCtx) (ea eb : Q) (x : Cell) : Cell × Bool :=
  let c := k.c
  let ia := qSub (qSub x.u x.uff) (qMul (qAdd c.kpA (kit c.kiA k.ts)) ea)
  let ib := qSub x.u (qMul (qAdd c.kpB (kit c.kiB k.ts)) eb)
  let ia' := qClamp ia c.iaLo c.iaHi
  let ib' := qClamp ib (-c.uHi) c.uHi
  ({ x with ia := ia', ib := ib' }, ia' ≠ ia || ib' ≠ ib)

/-- The law of R324 for one cell after its errors are known: candidates, selection, back-calculation, and
the saturation flag (R328). -/
def cellLaw (k : SampleCtx) (ea eb : Q) (obs hold : Bool) (force : Option Q) (x : Cell) : Cell :=
  let c := k.c
  let ia := if obs then qAdd x.ia (qMul (kit c.kiA k.ts) ea) else if hold then x.ia else 0
  let va := if obs then qAdd (qAdd x.uff (qMul c.kpA ea)) ia else qAdd x.uff ia
  let ib := qAdd x.ib (qMul (kit c.kiB k.ts) eb)
  let vb := qAdd (qMul c.kpB eb) ib
  let w := if va ≤ vb && va ≤ k.vd then 0 else if vb ≤ k.vd then 1 else 2
  let u := force.getD (qClamp (min va (min vb k.vd)) c.uLo c.uHi)
  let count := if u ≠ va then 0 else min 8 (x.count + 1)
  { x with
    ia := qClamp (qAdd ia (qMul c.ktA (qSub u va))) c.iaLo c.iaHi,
    ib := qClamp (qAdd ib (qMul c.ktB (qSub u vb))) (-c.uHi) c.uHi,
    u := u, va := va, vb := vb, winner := if force.isSome then 3 else w,
    sat := if u ≠ va then true else if count = 8 then false else x.sat, count := count }

/-- The lock test after a sample (R327). -/
def lockTest (c : Coef) (ea : Q) (obs lit : Bool) (x : Cell) : Cell :=
  let used := min 256 (x.used + 1)
  if obs then
    let run := if ea.natAbs ≤ c.lockTol.natAbs then min 255 (x.run + 1) else 0
    { x with run := run, used := used, seen := true, pass := decide (c.lockN ≤ run) }
  else { x with used := used, pass := x.pass || (lit && !x.seen && decide (c.lockN ≤ used)) }

/-- One cell in use in one sample; a stale one keeps its lock result but counts the sample as one in use (R327, R329).
The flag says that a swap's re-initialisation clamped an integrator. -/
def cellSample (k : SampleCtx) (cell : Nat) (s : State) : State × Bool :=
  let x := { cellOf s cell with drive := (cellOf s cell).u }
  let force := (tget none s.welt.forces cell).map (fun f => forcedDrive cell f s)
  if cellStale cell s then
    let u := force.getD x.u
    (setCell cell { x with stale := true, changed := false, used := min 256 (x.used + 1), u := u, hist := (u :: x.hist).take 256,
                           winner := if force.isSome then 3 else x.winner } s, false)
  else
    let e := estimate cell s
    let uff := ffOf cell x.target s
    let y := match e.frac with
      | some f => unfold (foldedPosition f.1 f.2) x.u (ffOf cell false s) (ffOf cell true s)
      | none => Config.freeNat s.fresh
    let obs := e.frac.isSome
    let dark := if e.lit then none else x.darkSince.or (some s.clk)
    let hold := match dark with
      | some t => decide (since t s < ticksUs 100)
      | none => true
    let ph := reading 3 cell s
    let ea := if obs then qSub (if x.target then 65536 else 0) y else 0
    let eb := qSub (min k.lim.pCell (qAdd uff k.h)) ph
    let x := { x with uff := uff, ph := ph, y := y, lit := e.lit, obs := obs, darkSince := dark }
    let (x, clamped) := if (k.swap || x.stale) && !x.changed then reinitCell k ea eb x else (x, false)
    let x := if x.changed then { x with ia := 0 } else x
    let x := lockTest k.c ea obs e.lit (cellLaw k ea eb obs hold force x)
    (setCell cell { x with stale := false, changed := false, hist := (x.u :: x.hist).take 256 } (useFresh (if obs then 0 else 1) s), clamped && k.swap)

/-- The cells of a plane that are in use, ascending. -/
def usedCells (p : Nat) (s : State) : List Nat :=
  (s.shank.cells.filter (fun e => e.1 / 1920 = p && e.2.inUse)).map (·.1)

/-- A cell that no lace uses, in a sample: the drive of the sample before lands; the next is the forced one, else
zero (R320, R323, R335). -/
def unusedCell (c : Nat) (s : State) : State :=
  let f := tget none s.welt.forces c
  setCell c { drive := (cellOf s c).u, u := (f.map (fun f => forcedDrive c f s)).getD 0,
              winner := if f.isSome then 3 else 0 } s

/-- The cells of a plane that no lace uses and that have a drive or a force. -/
def unusedCells (p : Nat) (s : State) : State :=
  let known := s.shank.cells.map (·.1)
  forAll ((known ++ (s.welt.forces.map (·.1)).filter (fun c => !known.contains c)).filter
    (fun c => c / 1920 = p && !(cellOf s c).inUse)) unusedCell s

/-! One sample of a plane (R320, R324 to R326, R332 to R334). -/

/-- A sensor of the plane is stale (R329). -/
def planeStale (p : Nat) (s : State) : Bool :=
  (List.range 16).any (fun i => isStale 1 (64 + 16 * p + i) s)

/-- The thermal loop before the cells (R324, R329, R332): id, vd, and whether a swap clamped id. -/
def thermalLoop (c : Coef) (lim : Limits) (swap stale : Bool) (x : Plane) : Plane × Bool :=
  if stale then ({ x with stale := true }, false)
  else
    let ed := qSub lim.tLim x.tp
    let ki := kit c.kiD x.ts
    let i0 := if (swap || x.stale) && x.hadUse then qSub x.umax (qMul (qAdd c.kpD ki) ed) else x.id
    let i1 := if swap || x.stale then qClamp i0 (-c.uHi) c.uHi else i0
    let id := qAdd i1 (qMul ki ed)
    ({ x with id := id, vd := qAdd (qMul c.kpD ed) id, stale := false }, swap && i1 ≠ i0)

/-- The headroom share (R325, R326). -/
def headroom (pPlane S : Q) (nOver : Nat) : Q :=
  qSat (rneDiv (max 0 (1000 * pPlane - S)) (max 1 nOver))

/-- Cells whose drive in the previous sample exceeded their uff by more than 1.0 mW (R326, log 27). -/
def overCount (p : Nat) (s : State) : Nat :=
  ((usedCells p s).filter (fun c => 65536 < (cellOf s c).u - (cellOf s c).uff)).length

/-- The law of a plane with its active set and limits; the flag says that a swap clamped an integrator. -/
def planeLaw (p : Nat) (c : Coef) (lim : Limits) (swap : Bool) (s : State) : State × Bool :=
  let used := usedCells p s
  let nOver := overCount p s
  let S : Q := (used.map (fun i => ffOf i (cellOf s i).target s)).sum
  let h := headroom lim.pPlane S nOver
  let s := if h = 0 && nOver ≠ 0 then
      raiseLimited 0x5011 2 p (ticksS 1) 0
        (fun _ => [word p, qWord (qSat S), qWord lim.pPlane, word nOver]) s
    else s
  let (x, c0) := thermalLoop c lim swap (planeStale p s) (planeOf s p)
  let k : SampleCtx := { c := c, lim := lim, ts := x.ts, h := h, vd := x.vd, swap := swap }
  let (s, c1) := used.foldl (fun a i => let r := cellSample k i a.1; (r.1, a.2 || r.2)) (s, c0)
  let live := used.filter (fun i => !(cellOf s i).stale)
  let won := fun (w : Nat) => (live.filter (fun i => (cellOf s i).winner = w)).length
  let umax := (used.map (fun i => (cellOf s i).u)).foldl max 0
  let id := if x.stale then x.id
    else qClamp (if used.isEmpty then x.id else qAdd x.id (qMul c.ktD (qSub umax x.vd))) (-c.uHi) c.uHi
  let s := setPlane p { x with
    id := id, umax := umax, hadUse := !used.isEmpty, h := h, nOver := nOver, wonB := won 1, wonD := won 2 } s
  let s := if (x.wonD = 0) ≠ (won 2 = 0) then
      raise 0x5012 2 [word p, qWord x.tp, qWord lim.tLim, word (b2n (won 2 ≠ 0))] s
    else s
  (s, c1)

/-- A rate change takes effect at a boundary (R319, R333); the command ends when both planes have changed
(SHANK_RATE, log 28). -/
def rateChange (p : Nat) (s : State) : State :=
  let x := planeOf s p
  match x.rateDue with
  | none => s
  | some ts =>
    let at0 := if s.welt.powered then x.origin + x.k * (x.ts / 2) else s.clk
    let s := setPlane p { x with ts := ts, origin := at0, k := 0, rateDue := none } s
    if (planeOf s (1 - p)).rateDue.isNone then
      finish 0x0604 (fun _ => true) .ok [] (raise 0x5014 1 [word x.ts, word ts] s)
    else s

/-- The first set of a plane becomes active with every integrator at zero (R331). -/
def firstLoad (p : Nat) (s : State) : State :=
  let x := planeOf s p
  match x.active, x.pending with
  | none, some c =>
    let s := setPlane p { x with active := some c, pending := none, id := 0 } s
    let s := forAll (usedCells p s) (fun i s => setCell i { cellOf s i with ia := 0, ib := 0 } s) s
    raise 0x5010 1 [word p, word c.setTag, 0, 0] s
  | _, _ => s

/-- Limits that wait take effect (R334). -/
def applyLimits (p : Nat) (s : State) : State :=
  let x := planeOf s p
  if x.limitsDue.isSome then setPlane p { x with limits := x.limitsDue, limitsDue := none } s else s

/-- The pending set becomes active, before the law runs with it (R332). -/
def takeSwap (p : Nat) (s : State) : State × Bool :=
  let x := planeOf s p
  if x.swapDue then
    match x.pending with
    | some c => (setPlane p { x with active := some c, pending := none, swapDue := false } s, true)
    | none => (setPlane p { x with swapDue := false } s, false)
  else (s, false)

/-- The swap is made: event 0x5010 and the answer (R336, SHANK_COEF_SWAP). -/
def swapMade (p : Nat) (clamped : Bool) (s : State) : State :=
  let tag := match (planeOf s p).active with
    | some c => c.setTag
    | none => 0
  finish 0x0602 (fun r => rf r 2 0 1 = p) .ok [s.tmu.ns] (raise 0x5010 1 [word p, word tag, 1, word (b2n clamped)] s)

/-- Since when the cells of Locked laces have been Locked in their targets (FF of R340). -/
def cellsLocked (p : Nat) (s : State) : State :=
  let locked := s.welt.active.flatMap (fun e => match e.2 with
    | some x => if e.1 / 160 = p && (runOf s e.1).st = .locked then (laceCells e.1 x).map (·.1) else []
    | none => [])
  { s with shank.cells := s.shank.cells.map (fun e =>
      if e.1 / 1920 = p then
        (e.1, { e.2 with lockedAt := if locked.contains e.1 then e.2.lockedAt.or (some s.clk) else none })
      else e) }

/-- HEAT holds a cell's heater power for this sample: a free choice, for at most four samples (R340, R342; log 32). -/
def heatHolds (cell : Nat) (s : State) : Bool :=
  s.mon.proc = 4 && tget 0 s.mon.heldHeat cell < 4 && Config.calHolds s.fresh (rdKey 3 cell)

/-- The heater power of one cell, from the drive that was computed last, as the examples of chapter 10 take it: computed,
or held with its stale flag (R320, R337, R345). -/
def heaterReading (cell : Nat) (s : State) : State :=
  let key := rdKey 3 cell
  if heatHolds cell s then
    useFresh 1 { s with mon.stale := tset false s.mon.stale key true,
                        mon.heldHeat := tset 0 s.mon.heldHeat cell (tget 0 s.mon.heldHeat cell + 1) }
  else
    useFresh 1 { s with mon.stale := tset false s.mon.stale key false,
                        mon.values := tset none s.mon.values key (some (heaterPower cell (cellOf s cell).u s)) }

/-- What a boundary latches: heater powers, the plane's temperature, and with them every reading (R320). -/
def latchReadings (p : Nat) (s : State) : State :=
  let s := forAll ((s.shank.cells.map (·.1)).filter (fun c => c / 1920 = p)) heaterReading s
  setPlane p { planeOf s p with latch := s.mon.values, latchStale := s.mon.stale } s

/-- The heater power of the driven cells of a plane, in mW (SHANK_STATUS). -/
def planeHeater (p : Nat) (s : State) : Nat :=
  (((s.shank.cells.filter (fun e => e.1 / 1920 = p)).map (fun e => reading 3 e.1 s)).sum / 65536).toNat

/-- The index of the boundary goes on, and the clock of R334 runs while the plane stands 10 °C or more over its limit. -/
def hotTick (p : Nat) (s : State) : State :=
  let x := planeOf s p
  let hot := match x.limits with
    | some lim => decide (qAdd lim.tLim (qi 10) ≤ x.tp)
    | none => false
  setPlane p { x with k := x.k + 1, hotSince := if hot then x.hotSince.or (some s.clk) else none
                      hotTold := x.hotTold && hot } s

/-- A boundary of a plane, in the order of R333. -/
def boundary (p : Nat) (s : State) : State :=
  let s := applyLimits p (firstLoad p (rateChange p s))
  let (s, swap) := takeSwap p s
  let s := unusedCells p (latchReadings p s)
  let s := setPlane p { planeOf s p with tp := planeTemp p s, heater := planeHeater p s } s
  let x := planeOf s p
  let (s, clamped) := match x.active, x.limits with
    | some c, some lim => planeLaw p c lim swap s
    | _, _ => (s, false)
  let s := if swap then swapMade p clamped s else s
  cellsLocked p (lacesAfterSample p (stepSlews (planeItem p) (hotTick p s)))

/-- SHANK_SAMPLE: the next boundary of the grid has come (R319, R320). -/
def shankSample (p : Nat) (s : State) : State :=
  let x := planeOf s p
  if s.welt.powered && x.origin + x.k * (x.ts / 2) ≤ s.clk then boundary p s else s

def execShankSample (plane : Fin 2) (s : State) : Host.Outcome State Fault Refusal := fed (shankSample plane) s

/-! Actions while the Welt is unpowered (R479). -/

/-- What waits for a boundary of a plane takes effect at once (R479, log 31). -/
def offlineNow (p : Nat) (s : State) : State :=
  let s := applyLimits p (firstLoad p (rateChange p s))
  let (s, swap) := takeSwap p s
  if swap then swapMade p false s else s

/-- What a Shank command leaves to the next boundary is done now when there is none (R479). -/
def unlessPowered (p : Nat) (s : State) : State := if s.welt.powered then s else offlineNow p s

/-- Heater power is removed (R316), and what waited for a boundary takes effect (R479, log 31). -/
def weltDown (cause : Nat) (s : State) : State :=
  if s.welt.powered then offlineNow 1 (offlineNow 0 (weltOff cause s)) else s

/-! Commands. -/

/-- A field of a coefficient set, signed Q16.16. -/
def coefField (r : Req) (i : Nat) : Q := wordQ (rw r (3 + i))

/-- The coefficient set of a request (R330). -/
def coefOf (r : Req) : Coef :=
  { kpA := coefField r 0, kiA := coefField r 1, ktA := coefField r 2, iaLo := coefField r 3,
    iaHi := coefField r 4, uLo := coefField r 5, uHi := coefField r 6, lockTol := coefField r 7,
    lockN := rf r 11 0 8, kpB := coefField r 9, kiB := coefField r 10, ktB := coefField r 11,
    kpD := coefField r 12, kiD := coefField r 13, ktD := coefField r 14, setTag := rf r 18 0 16 }

/-- lo ≤ x ≤ hi, in whole units. -/
def within (x : Q) (lo hi : Int) : Bool := qi lo ≤ x && x ≤ qi hi

/-- 0 < x ≤ hi, in whole units. -/
def withinPos (x : Q) (hi : Int) : Bool := 0 < x && x ≤ qi hi

/-- The ranges of R330. -/
def coefOk (c : Coef) : Bool :=
  within c.kpA 0 1000 && within c.kiA 0 1000 && withinPos c.ktA 1 && within c.iaLo (-40) 0
    && within c.iaHi 0 40 && within c.uLo 0 40 && c.uLo < c.uHi && c.uHi ≤ qi 40
    && 0 < c.lockTol && c.lockTol ≤ 16384 && 1 ≤ c.lockN && c.lockN ≤ 255 && within c.kpB 0 100
    && withinPos c.kiB 1000 && withinPos c.ktB 1 && within c.kpD 0 100 && withinPos c.kiD 1000
    && withinPos c.ktD 1

/-- SHANK_COEF_LOAD (R331, R479). -/
def shankCoefLoadCmd : Cmd where
  op := 0x0601
  len := (· = 19)
  unadmitted := []
  object := fun _ _ => none
  args := fun r _ => need (zeroFrom r 2 1 && zeroFrom r 11 8 && zeroFrom r 18 16 && coefOk (coefOf r)) .badArg
  run := fun r s =>
    let p := rf r 2 0 1
    let s := setPlane p { planeOf s p with pending := some (coefOf r) } s
    .ok (if s.welt.powered then s else firstLoad p s)

def execShankCoefLoad (r : Req) (s : State) : Host.Outcome State Fault Refusal := .next (runCmd shankCoefLoadCmd r s)

/-- SHANK_COEF_SWAP (R332, R479). -/
def shankCoefSwapCmd : Cmd where
  op := 0x0602
  len := (· = 3)
  unadmitted := []
  object := fun r s => need ((planeOf s (rf r 2 0 1)).pending.isSome && (planeOf s (rf r 2 0 1)).active.isSome) .wrongState
  args := fun r _ => need (zeroFrom r 2 1) .badArg
  run := fun r s =>
    let p := rf r 2 0 1
    let s' := setPlane p { planeOf s p with swapDue := true } s
    if s.welt.powered then .later s'
    else .of .ok [s.tmu.ns] (offlineNow p s')

def execShankCoefSwap (r : Req) (s : State) : Host.Outcome State Fault Refusal := .next (runCmd shankCoefSwapCmd r s)

/-- The limits of a request (SHANK_LIMITS). -/
def limitsOf (r : Req) : Limits := { pCell := wordQ (rw r 3), pPlane := wordQ (rw r 4), tLim := wordQ (rw r 5) }

/-- SHANK_LIMITS (R334, R479). -/
def shankLimitsCmd : Cmd where
  op := 0x0603
  len := (· = 6)
  unadmitted := []
  object := fun _ _ => none
  args := fun r _ =>
    let l := limitsOf r
    need (zeroFrom r 2 1 && within l.pCell 1 40 && qi 1 ≤ l.pPlane && l.pPlane ≤ 0x4CCCCD && within l.tLim 20 95) .badArg
  run := fun r s =>
    let p := rf r 2 0 1
    let s := setPlane p { planeOf s p with limitsDue := some (limitsOf r) } s
    let s := if s.welt.powered then s else applyLimits p s
    .ok (raise 0x5015 1 [word p, rw r 3, rw r 4, rw r 5] s)

def execShankLimits (r : Req) (s : State) : Host.Outcome State Fault Refusal := .next (runCmd shankLimitsCmd r s)

/-- The period that SHANK_RATE names, in ns. -/
def ratePeriod (r : Req) : Nat := if rf r 2 0 18 = 0 then 50000 else rf r 2 0 18

/-- SHANK_RATE (R319, R333, R479). -/
def shankRateCmd : Cmd where
  op := 0x0604
  len := (· = 3)
  unadmitted := []
  object := fun _ _ => none
  args := fun r _ => need (zeroFrom r 2 18 && 25000 ≤ ratePeriod r && ratePeriod r ≤ 200000
    && ratePeriod r % 1000 = 0) .badArg
  run := fun r s =>
    let s' := forAll [0, 1] (fun p s => setPlane p { planeOf s p with rateDue := some (ratePeriod r) } s) s
    if s.welt.powered then .later s' else .ok (rateChange 1 (rateChange 0 s'))

def execShankRate (r : Req) (s : State) : Host.Outcome State Fault Refusal := .next (runCmd shankRateCmd r s)

/-- Words 11 to 19 of SHANK_STATUS for a cell. -/
def cellWords (x : Cell) : List Word :=
  [word (bitsNat [x.target, x.lit, x.obs, x.sat, x.stale, x.pass && x.winner ≠ 3] + 64 * x.winner
      + 256 * x.count + 4096 * b2n x.inUse),
   qWord x.y, qWord x.u, qWord x.va, qWord x.vb, qWord x.ia, qWord x.ib, qWord x.uff, qWord x.ph]

/-- SHANK_STATUS. -/
def shankStatusCmd : Cmd where
  op := 0x0605
  len := (· = 3)
  unadmitted := []
  object := fun _ _ => none
  args := fun r _ => need (zeroFrom r 2 14 && (!rb r 2 1 || rf r 2 2 12 / 1920 = rf r 2 0 1)) .badArg
  run := fun r s =>
    let p := rf r 2 0 1
    let x := planeOf s p
    let count := fun (f : Cell → Bool) => ((usedCells p s).filter (fun i => f (cellOf s i))).length
    let tag := match x.active with
      | some c => c.setTag
      | none => 0
    .of .ok
      ([word (tag + 65536 * bitsNat [x.active.isSome, x.pending.isSome, x.limits.isSome || x.limitsDue.isSome]),
        word x.ts, word (count (·.sat) + 65536 * count (·.stale)), word (x.wonB + 65536 * x.wonD), word x.heater,
        qWord x.tp, qWord x.vd, qWord x.h, word x.nOver]
       ++ (if rb r 2 1 then cellWords (cellOf s (rf r 2 2 12)) else List.replicate 9 0)) s

def execShankStatus (r : Req) (s : State) : Host.Outcome State Fault Refusal := .next (runCmd shankStatusCmd r s)

end Sys2Proof.Machine
end

