-- ==== Sys2Proof/Machine/Routing.lean ====
section
/-! DEFINITION. The route table, routes and hops (R270, R273 to R276) and the path set of R277. -/

namespace Sys2Proof.Machine

/-- Coordinates on the torus. -/
abbrev Coords := Nat × Nat × Nat

/-- The coordinate, or size, of axis 0, 1 or 2. -/
def axis (c : Coords) (a : Nat) : Nat := if a = 0 then c.1 else if a = 1 then c.2.1 else c.2.2

/-- Coordinates that lie outside the torus (R272). -/
def outside (c : Coords) (s : State) : Bool :=
  (List.range 3).any (fun a => axis s.fabric.size a ≤ axis c a)

/-! A route table entry, word 0 in its low 32 bits (R273). -/

def reModule (e : DWord) : Nat := field e 0 16
def reValid (e : DWord) : Bool := bit e 16
def reInTorus (e : DWord) : Bool := bit e 17
def reCoords (e : DWord) : Coords := (field e 18 2, field e 20 2, field e 22 1)
def reDir (e : DWord) (a : Nat) : Nat := field e (23 + 2 * a) 2
def reBypass (e : DWord) : Bool := bit e 32
def reGateway (e : DWord) : Coords := (field e 33 2, field e 35 2, field e 37 1)
def reEyelet (e : DWord) : Nat := field e 38 4

/-- The valid entry that names a module (R274). -/
def routeOf (d : Nat) (s : State) : Option DWord :=
  (s.fabric.routes.find? (fun e => reValid e.2 && reModule e.2 = d)).map (·.2)

/-- Where a packet goes next. -/
inductive Hop where
  | port (p vc : Nat)
  | eyelet (e : Nat)
  | deliver
deriving DecidableEq, Repr

/-- The direction of an axis from a module: 0 plus, 1 minus (R274). -/
def dirOf (e : DWord) (own target : Coords) (size : Coords) (a : Nat) : Nat :=
  let n := axis size a
  let diff := (axis target a + n - axis own a) % n
  if reDir e a = 1 then 0 else if reDir e a = 2 then 1 else if diff ≤ n - diff then 0 else 1

/-- The virtual channel on the next port (R270): 0 on entering an axis, 1 once its dateline is crossed. -/
def nextVc (p : Pkt) (a dir own n : Nat) : Nat :=
  let vc := if p.src0 < 6 && p.src0 / 2 = a then p.vc else 0
  if (dir = 0 && own + 1 = n) || (dir = 1 && own = 0) then 1 else vc

/-- What every module that holds a packet does with it (R274). -/
def nextHop (p : Pkt) (s : State) : Hop :=
  let own := s.fabric.coords
  let target : Coords := (p.tx, p.ty, p.tz)
  match (List.range 3).find? (fun a => axis own a ≠ axis target a) with
  | some a =>
    let dir := p.dir / 2 ^ a % 2
    .port (2 * a + dir) (nextVc p a dir (axis own a) (axis s.fabric.size a))
  | none => if p.exitEn then .eyelet p.exit else .deliver

/-- A packet formed here, given its route word and first hop; none when no entry names the destination
(R274, R275). -/
def sourceRoute (p : Pkt) (s : State) : Option (Pkt × Hop) :=
  let own := s.fabric.coords
  if p.dest = s.glb.moduleId.toNat then some (p, .deliver)
  else match routeOf p.dest s with
    | none => none
    | some e =>
      if reBypass e && reGateway e = own then some (p, .eyelet (reEyelet e))
      else
        let target := if reInTorus e then reCoords e else reGateway e
        let d := fun a => dirOf e own target s.fabric.size a
        let p := { p with tx := target.1, ty := target.2.1, tz := target.2.2, dir := d 0 + 2 * d 1 + 4 * d 2,
                          exitEn := !reInTorus e, exit := if reInTorus e then 0 else reEyelet e }
        match nextHop p s with
        | .port q vc => some ({ p with vc := vc }, .port q vc)
        | h => some (p, h)

/-- The unit of a hop; none for local delivery. -/
def hopUnit : Hop → Option Nat
  | .port p _ => some p
  | .eyelet e => some (6 + e)
  | .deliver => none

/-- The source's route when its first hop is up (R275): none is NO_ROUTE. -/
def openRoute (p : Pkt) (s : State) : Option (Pkt × Hop) :=
  match sourceRoute p s with
  | none => none
  | some (q, h) => match hopUnit h with
    | some u => if unitCarries u s then some (q, h) else none
    | none => some (q, h)

/-! The path set (R242, R277). -/

/-- The module at coordinates, by the route table and this module's own position. -/
def moduleAt (c : Coords) (s : State) : Option Nat :=
  if c = s.fabric.coords then some s.glb.moduleId.toNat
  else (s.fabric.routes.find? (fun e => reValid e.2 && reInTorus e.2 && reCoords e.2 = c)).map (fun e => reModule e.2)

/-- The coordinates of a module of this torus. -/
def coordsOf (m : Nat) (s : State) : Option Coords :=
  if m = s.glb.moduleId.toNat then some s.fabric.coords
  else match routeOf m s with
    | some e => if reInTorus e then some (reCoords e) else none
    | none => none

/-- Coordinates after one hop. -/
def stepCoords (c size : Coords) (a dir : Nat) : Coords :=
  let n := axis size a
  let v := (axis c a + (if dir = 0 then 1 else n - 1)) % n
  if a = 0 then (v, c.2.1, c.2.2) else if a = 1 then (c.1, v, c.2.2) else (c.1, c.2.1, v)

/-- The hops of a path: where each leaves from and by which port. A path has at most 9 hops (R272). -/
def pathHops (dir : Nat → Nat) (goal size : Coords) : Nat → Coords → List (Coords × Nat)
  | 0, _ => []
  | n + 1, c =>
    match (List.range 3).find? (fun a => axis c a ≠ axis goal a) with
    | some a => (c, 2 * a + dir a) :: pathHops dir goal size n (stepCoords c size a (dir a))
    | none => []

/-- The path from one module of this torus to a destination: none when no entry names it (R277). -/
def pathOf (src : Coords) (d : Nat) (s : State) : Option (List (Coords × Nat)) :=
  match routeOf d s with
  | none => none
  | some e =>
    if reBypass e && reGateway e = src then some []
    else
      let goal := if reInTorus e then reCoords e else reGateway e
      some (pathHops (dirOf e src goal s.fabric.size) goal s.fabric.size 16 src)

/-- What the path set of a module list gives: this module's ports in transit, the other modules in transit,
and the far end of the first link that is not present and planned (R242, R243 reason 6). -/
structure PathSet where
  ports : List Nat := []
  others : List Nat := []
  bad : Option Nat := none
deriving DecidableEq, Repr

/-- The module at the far end of a hop's link as it comes into this module, when that port is not up (R242). -/
def badEntry (h : Coords × Nat) (s : State) : Option Nat :=
  let back := h.2 / 2 * 2 + (1 - h.2 % 2)
  if stepCoords h.1 s.fabric.size (h.2 / 2) (h.2 % 2) = s.fabric.coords && (unitOf s back).state ≠ 4 then
    some ((moduleAt h.1 s).getD (tget 0 s.fabric.nb back))
  else none

/-- Add one path from `src` to a path set. -/
def addPath (src : Coords) (path : List (Coords × Nat)) (s : State) (x : PathSet) : PathSet :=
  path.foldl (fun x h =>
    let x := { x with bad := x.bad.or (badEntry h s) }
    if h.1 = s.fabric.coords then
      let far := (moduleAt (stepCoords h.1 s.fabric.size (h.2 / 2) (h.2 % 2)) s).getD (tget 0 s.fabric.nb h.2)
      { x with ports := if h.1 ≠ src && !x.ports.contains h.2 then x.ports ++ [h.2] else x.ports,
               bad := x.bad.or (if (unitOf s h.2).state = 4 then none else some far) }
    else if h.1 = src then x
    else match moduleAt h.1 s with
      | some m => if x.others.contains m then x else { x with others := x.others ++ [m] }
      | none => x) x

/-- The path set of a module list (R242, R277). -/
def pathSet (mods : List Nat) (s : State) : PathSet :=
  mods.foldl (fun x m => match coordsOf m s with
    | none => x
    | some src => mods.foldl (fun x d =>
        if d = m then x
        else match pathOf src d s with
          | some p => addPath src p s x
          | none => { x with bad := x.bad.or (some d) }) x) {}

end Sys2Proof.Machine
end

