-- ==== Sys2Proof/Machine/Fabric.lean ====
section
/-! DEFINITION. Units, lanes, hellos, frames and packets of the fabric (R257 to R271, R278 to R288). -/

namespace Sys2Proof.Machine

/-! Units and lanes. -/

/-- The lane of OLn is laced: plane A holds an active lace at inlet Ln and plane B one to outlet Ln (R267,
R286). -/
def lanesLaced (n : Nat) (s : State) : Bool :=
  (laceOf s.welt.active n).isSome && s.welt.active.any (fun e => 160 ≤ e.1 && match e.2 with
    | some x => x.outlet = n
    | none => false)

/-- A lane of a unit can serve: the link is trained, or the lane is laced (R267, R285). -/
def laneLive (u n : Nat) (s : State) : Bool := if u < 6 then (unitOf s u).trained else lanesLaced n s

/-- The far module and unit that a unit expects (R285, R286). -/
def expected (u : Nat) (s : State) : Nat × Nat :=
  if u < 6 then (tget 0 s.fabric.nb u, if u % 2 = 0 then u + 1 else u - 1)
  else match eyeletOf s (u - 6) with
    | some e => (e.farModule, 6 + e.farEyelet)
    | none => (0xFFFF, 0)

/-- A lane hears the far end that its unit expects. -/
def hearsExpected (u : Nat) (l : Lane) (s : State) : Bool :=
  l.hello && l.seenModule ≠ 0xFFFF && (l.seenModule, l.seenUnit) = expected u s

/-- A lane that receives for its unit: in service, with lock and a matching far end, or quiesced for the relace that
broke its light, which gives it 5 ms (R267, R288). -/
def laneReceives (u n : Nat) (s : State) : Bool :=
  let l := laneOf s (laneKey u n)
  l.svc = .inService && (l.kept || (l.lock && hearsExpected u l s))

/-- A lane that sends for its unit: in service, and the far end hears it (R267, R288). -/
def laneSends (u n : Nat) (s : State) : Bool :=
  let l := laneOf s (laneKey u n)
  l.svc = .inService && !l.deaf && (l.kept || l.heard)

/-- A unit is up: at least one lane is in service in each direction (R267). -/
def unitUp (u : Nat) (s : State) : Bool :=
  (unitLanes u s).any (fun n => laneReceives u n s) && (unitLanes u s).any (fun n => laneSends u n s)

/-- The state of a unit (R285, R286). A port that retrains stays Up: it only stalls (R265). -/
def unitState (u : Nat) (s : State) : Nat :=
  let ns := unitLanes u s
  if !unitPlanned u s then (if u < 6 && (unitOf s u).trained then 1 else 0)
  else if 6 ≤ u && ns.any (fun n => !lanesLaced n s) then 1
  else if unitUp u s || ((unitOf s u).state = 4 && (unitOf s u).retrainAt.isSome) then 4
  else if ns.any (fun n => (laneOf s (laneKey u n)).lock && (laneOf s (laneKey u n)).hello
      && !hearsExpected u (laneOf s (laneKey u n)) s) then 3
  else 2

/-- The lanes of a unit in service both ways, as bits. -/
def lanesInService (u : Nat) (s : State) : Nat :=
  ((unitLanes u s).filter (fun n => (laneOf s (laneKey u n)).svc = .inService && !(laneOf s (laneKey u n)).deaf)).foldl
    (fun a n => a + 2 ^ n) 0

/-- Add to a count of FABRIC_COUNTERS. -/
def bump (u i n : Nat) (s : State) : State :=
  modUnit u (fun x => { x with counts := tset 0 x.counts i (tget 0 x.counts i + word n) }) s

/-- A packet is dropped in routing: counted, with event 0x4009 (R275, R293). -/
def dropPacket (unit cause : Nat) (p : Pkt) (s : State) : State :=
  let s := if unit < 22 then bump unit 6 1 s else s
  raiseLimited 0x4009 2 unit (ticksMs 100) 1 (fun n => [word unit, word cause, word p.dest, word n]) s

/-- Link state of a unit that comes up starts afresh (R262; log 33). -/
def linkFresh (u : Nat) (s : State) : State :=
  modUnit u (fun x => { x with
    txSeq := 0, rxNext := 0, sent := [], replay := none, asm := none, early := [], gapAt := none, askedTo := none,
    sentTot := [], freedSeen := [], freedTot := [], owed := [], part := [], partPtr := 511 }) s

/-! Frames that are sent (R260 to R262). -/

/-- One bit of the self-synchronising scrambler x^58 + x^39 + 1: the bit sent, and the last 58 sent (R260). -/
def scrambleBit (b : Bool) (x : BitVec 58) : Bool × BitVec 58 :=
  let out := b ^^ x.getLsbD 38 ^^ x.getLsbD 57
  (out, x <<< 1 ||| BitVec.ofNat 58 (b2n out))

/-- One byte, its bit 0 first (log 71). -/
def scrambleByte (b : Byte) (x : BitVec 58) : Byte × BitVec 58 :=
  (List.range 8).foldl (fun r i =>
    let o := scrambleBit (b.getLsbD i) r.2
    (if o.1 then r.1 ||| BitVec.ofNat 8 (2 ^ i) else r.1, o.2)) (0, x)

/-- The bytes of a codeword as they are sent. -/
def scrambled : List Byte → BitVec 58 → List Byte × BitVec 58
  | [], x => ([], x)
  | b :: bs, x =>
    let r := scrambleByte b x
    let t := scrambled bs r.2
    (r.1 :: t.1, t.2)

/-- The 544 bytes of a codeword: header, body and parity (R260, R261). -/
def codeword (h : BitVec 56) (body : List Byte) : List Byte :=
  let data := leBytes h.toNat 7 ++ body
  data ++ (List.range 32).map (Config.rsParity data)

/-- A frame leaves a lane (R260). -/
def lineOut (u lane : Nat) (h : BitVec 56) (body : List Byte) (s : State) : State :=
  let k := laneKey u lane
  let r := scrambled (codeword h body) ((tget none s.fabric.scramblers k).getD 0)
  emit (.frame u lane h body r.1) { s with fabric.scramblers := tset none s.fabric.scramblers k (some r.2) }

/-- A frame header (R261). -/
def frameHeader (seq ack : BitVec 16) (firstPtr kind vc units : Nat) : BitVec 56 :=
  BitVec.ofNat 56 (seq.toNat + 2 ^ 16 * ack.toNat + 2 ^ 32 * (firstPtr % 512) + 2 ^ 41 * (kind % 8)
    + 2 ^ 44 * (vc % 8) + 2 ^ 47 * (units % 512))

/-- The lane that the next frame is dealt to, in turn from the lane after the last; a quiesced lane takes no
data frame, a port that retrains none at all (R260, R265, R267, R288). -/
def dealLane (u : Nat) (data : Bool) (s : State) : Option Nat :=
  let ok := fun n =>
    let l := laneOf s (laneKey u n)
    l.svc = .inService && l.heard && !l.deaf && !(data && l.quiet.isSome)
  let ns := if (unitOf s u).retrainAt.isSome then [] else (unitLanes u s).filter ok
  (ns.find? (fun n => (unitOf s u).nextLane ≤ n)).or ns.head?

/-- The buffer whose freed units the next frame returns, and how many (R261). -/
def creditDue (x : FUnit) : Nat × Nat :=
  match x.owed with
  | (b, n) :: _ => (b, min n 511)
  | [] => (0, 0)

/-- Send a frame that carries a seq on a lane, with the units that it returns (R261, R265). -/
def sendFrame (u lane firstPtr kind : Nat) (body : List Byte) (s : State) : State :=
  let x := unitOf s u
  let ack := if u < 6 then x.rxNext - 1 else 0
  let c := creditDue x
  let h := frameHeader x.txSeq ack firstPtr kind c.1 c.2
  let f : Frame := ⟨x.txSeq, h, body⟩
  lineOut u lane h body (bump u 0 1 (setUnit u { x with
    txSeq := x.txSeq + 1, nextLane := lane + 1, owed := tset 0 x.owed c.1 (tget 0 x.owed c.1 - c.2),
    sent := if u < 6 then (x.sent ++ [f]).drop (x.sent.length + 1 - 512) else [] } s))

/-- A body of zeros. -/
def emptyBody : List Byte := List.replicate 505 0

/-- The buffer of a packet on a unit (R261, R269). -/
def pktBuf (u : Nat) (p : Pkt) : Nat := if u < 6 then 2 * p.cls + p.vc else p.cls

/-- Free the receive buffer that holds a packet; the units return on an idle frame at once when a lane can take one,
else on the next frame (R261, R262, R269; log 33). -/
def freeBuffer (p : Pkt) (s : State) : State :=
  if 22 ≤ p.src0 then s
  else
    let u := p.src0
    let n := pktUnits p
    let s := modUnit u (fun x => { x with
      freedTot := tset 0 x.freedTot p.buf0 (tget 0 x.freedTot p.buf0 + word n)
      owed := tset 0 x.owed p.buf0 (tget 0 x.owed p.buf0 + n) }) s
    match dealLane u false s with
    | some l => sendFrame u l 511 1 emptyBody s
    | none => s

/-- Packets queued for a unit that goes down are dropped, those on the mesh for it with them; the buffers that hold
them are freed (R269, R275). -/
def flushQueue (u : Nat) (s : State) : State :=
  let s := meshSettle s
  let q := (unitOf s u).txq
  let s := modUnit u (fun x => { x with txq := [], part := [], partPtr := 511 }) s
  forAll q (fun p s => freeBuffer p (dropPacket u (if u < 6 then 1 else 2) p s)) s

/-- Compare a unit with the plan again: its state, its events and what follows (R285 to R287). The transition of R52
that may follow names the event raised here, else the caller's, 0 when a command made the change (R27). -/
def evalUnit (cause : BitVec 16) (u : Nat) (s : State) : State :=
  let old := (unitOf s u).state
  let new := unitState u s
  let carried := unitCarries u s
  let x := unitOf s u
  let bad := new = 2 || new = 3
  let s := setUnit u { x with
    state := new, badSince := if bad then x.badSince.or (some s.clk) else none,
    missing := x.missing && bad } s
  let y := unitOf s u
  let (s, cause) := if new = old then (s, cause)
    else if new = 4 then
      (raise 0x4001 1 [word u, word y.seenModule, word y.seenUnit, word (lanesInService u s)] s, 0x4001)
    else if new = 3 then
      (raise 0x4003 2 [word u, word (expected u s).1, word y.seenModule, word y.seenUnit] s, 0x4003)
    else if new = 1 && u < 6 then (raise 0x4004 1 [word u, word y.seenModule] s, 0x4004)
    else (s, cause)
  let s := if 6 ≤ u && !carried && unitCarries u s then linkFresh u s else s
  let s := if carried && !unitCarries u s then flushQueue u s else s
  reevaluate cause s

/-- Every unit is compared again. -/
def evalUnits (cause : BitVec 16) (s : State) : State := forAll (List.range 22) (evalUnit cause) s

/-- The eyelet that has the lane of OLn (R259). -/
def eyeletWith (n : Nat) (s : State) : Option Nat :=
  (List.range 16).find? (fun e => match eyeletOf s e with
    | some x => bit x.lanes n
    | none => false)

/-- The relace of a lane is over, and the lane is back or not; the last one of the eyelet that is not out of service
raises 0x400B with the lanes that are back (R288, R293). -/
def endQuiet (n : Nat) (back : Bool) (s : State) : State :=
  match (laneOf s (48 + n)).quiet with
  | none => s
  | some t =>
    let s := modLane (48 + n) (fun l => { l with quiet := none, kept := false }) s
    match eyeletWith n s with
    | none => s
    | some e =>
      let waits := fun k => (laneOf s (48 + k)).quiet.isSome && (laneOf s (48 + k)).svc ≠ .out
      let m := (unitOf s (6 + e)).resumed ||| word (if back && (laneOf s (48 + n)).svc ≠ .out then 2 ^ n else 0)
      if (unitLanes (6 + e) s).any waits then
        modUnit (6 + e) (fun x => { x with resumed := m }) s
      else
        let s := modUnit (6 + e) (fun x => { x with resumed := 0 }) s
        if m = 0 then s else raise 0x400B 0 [word e, m, word (siteDiff (siteNow s) t / 1000).toNat] s

/-- A lane whose relace is over resumes (R288). -/
def clearQuiet (n : Nat) (s : State) : State := endQuiet n true s

/-- A lane goes out of service (R267). -/
def laneOutOfService (u n cause : Nat) (s : State) : State :=
  let s := modLane (laneKey u n) (fun l => { l with svc := .out, deaf := false, outAt := s.clk, tried := false }) s
  let s := if 6 ≤ u then endQuiet n false s else s
  let s := raise 0x4005 2 [word u, word n, word cause] s
  evalUnit 0x4005 u s

/-- The sending side of a lane goes out of service: the far end is deaf (R267). -/
def sendingOut (u n : Nat) (s : State) : State :=
  let s := modLane (laneKey u n) (fun l => { l with deaf := true, outAt := s.clk, tried := false }) s
  evalUnit 0x4005 u (raise 0x4005 2 [word u, word n, 6] s)

/-- A lane of the unit by number. -/
def hasLane (u n : Nat) (s : State) : Bool := (unitLanes u s).contains n

/-! Buffers and the packet stream (R262, R263, R269). -/

/-- The units of a buffer at the far end (R269). -/
def bufferCap (u buf : Nat) (s : State) : Nat :=
  if u < 6 then 2048
  else 32768 * (unitLanes u s).length * nth 0 [40, 40, 10, 10] buf / 100

/-- Credits held for a buffer of the far end (R262, R269). -/
def credits (u buf : Nat) (s : State) : Nat :=
  let x := unitOf s u
  bufferCap u buf s - (tget 0 x.sentTot buf - tget 0 x.freedSeen buf).toNat

/-- The route word of a packet as twelve bytes (R263). -/
def routeWord (p : Pkt) : List Byte :=
  wordsBytes [word (p.tx + 4 * p.ty + 16 * p.tz + 32 * p.dir + 2 ^ 8 * p.vc + 2 ^ 9 * p.cls
      + 2 ^ 11 * b2n p.exitEn + 2 ^ 12 * p.exit + 2 ^ 16 * (p.bytes.length - 1)),
    word (p.dest + 65536 * p.src), p.tag]

/-- A packet from its route word and its bytes (R263). -/
def readPacket (u : Nat) (b : List Byte) (body : List Byte) : Pkt :=
  let w0 : Word := word (leNat (b.take 4))
  let w1 : Word := word (leNat ((b.drop 4).take 4))
  let cls := field w0 9 2
  let vc := field w0 8 1
  { tx := field w0 0 2, ty := field w0 2 2, tz := field w0 4 1, dir := field w0 5 3, vc := vc, cls := cls,
    exitEn := bit w0 11, exit := field w0 12 4, dest := field w1 0 16, src := field w1 16 16,
    tag := word (leNat ((b.drop 8).take 4)), bytes := body, src0 := u,
    buf0 := if u < 6 then 2 * cls + vc else cls }

/-- Put a packet at the end of its receive buffer (R269). -/
def bufferPacket (u : Nat) (p : Pkt) (s : State) : State :=
  modUnit u (fun x => { x with rxq := tset [] x.rxq p.buf0 (tget [] x.rxq p.buf0 ++ [p]) }) s

/-- Take whole packets off the front of a packet stream; what is left is a packet that spans into the next
frame, or nothing after fill (R263; log 33). -/
def parseStream (u : Nat) : Nat → List Byte → List Pkt × Option (List Byte)
  | 0, b => ([], some b)
  | n + 1, b =>
    if b.length < 12 then ([], some b)
    else
      let len := field (word (leNat (b.take 4))) 16 13 + 1
      if len < 20 then ([], none)
      else if b.length < 12 + len then ([], some b)
      else
        let r := parseStream u n (b.drop (12 + len))
        (readPacket u b ((b.drop 12).take len) :: r.1, r.2)

/-- The packet stream of one data frame in order (R261, R263, R266). -/
def streamFrame (u firstPtr : Nat) (body : List Byte) (s : State) : State :=
  let fresh := body.drop firstPtr
  let old := (unitOf s u).asm
  let src := match old with
    | some p => if firstPtr = 0 && !p.isEmpty then some fresh else some (p ++ body)
    | none => if firstPtr < 505 then some fresh else none
  match src with
  | none => s
  | some b =>
    let r := parseStream u b.length b
    forAll r.1 (bufferPacket u) (modUnit u (fun x => { x with asm := r.2 }) s)

/-- Every kept frame after `ack` is sent again, in order (R265). -/
def resend (port : Nat) (ack : BitVec 16) (s : State) : State :=
  forAll ((unitOf s port).sent.filter (fun f => 0 < (f.seq - ack).toInt)) (fun f s => match dealLane port false s with
    | some l => lineOut port l f.header f.body
        (bump port 0 1 (modUnit port (fun x => { x with nextLane := l + 1 }) s))
    | none => s) (bump port 4 1 s)

/-- A replay request: the frames after `ack` are sent again; after eight requests for one seq the port first retrains
all its lanes (R265). -/
def replay (port : Nat) (ack : BitVec 16) (s : State) : State :=
  let x := unitOf s port
  let n := match x.replay with
    | some (q, k) => if q = ack then k + 1 else 1
    | none => 1
  if 8 ≤ n then
    let s := modUnit port (fun x => { x with replay := some (ack, 0), retrainAt := some s.clk }) (bump port 5 1 s)
    forAll (List.range 8) (fun l s => modLane (8 * port + l) (fun y => { y with lock := false }) s) s
  else resend port ack (modUnit port (fun x => { x with replay := some (ack, n) }) s)

/-- One frame is accepted in order: its credits, its packets or its request (R261). -/
def acceptFrame (u : Nat) (f : Frame) (s : State) : State :=
  let h := f.header
  let vc := field h 44 3
  let again := match (unitOf s u).askedTo with
    | some q => decide ((f.seq - q).toInt ≤ 0)
    | none => false
  let s := modUnit u (fun x => { x with
    rxNext := x.rxNext + 1, gapAt := none,
    askedTo := if x.askedTo = some f.seq then none else x.askedTo
    harm := if again then x.harm + 1 else x.harm
    freedSeen := tset 0 x.freedSeen vc (tget 0 x.freedSeen vc + word (field h 47 9)) }) s
  match field h 41 3 with
  | 0 => streamFrame u (field h 32 9) f.body s
  | 2 => if u < 6 then replay u (BitVec.ofNat 16 (field h 16 16)) s else s
  | _ => s

/-- Frames that came early and now come next (R261). -/
def drainEarly (u : Nat) : Nat → State → State
  | 0, s => s
  | n + 1, s =>
    let x := unitOf s u
    match x.early.find? (fun f => f.seq = x.rxNext) with
    | some f => drainEarly u n (acceptFrame u f
        (setUnit u { x with early := x.early.filter (fun g => g.seq ≠ f.seq) } s))
    | none => if x.early.isEmpty then s else setUnit u { x with gapAt := x.gapAt.or (some s.clk) } s

/-- A sequence gap of an eyelet closes: the packet under way is lost and reception resumes at the next frame
held (R266). -/
def closeGap (u : Nat) (s : State) : State :=
  let x := unitOf s u
  let lost := match x.asm with
    | some b => !b.isEmpty
    | none => false
  let s := if lost then bump u 6 1 (modUnit u (fun x => { x with harm := x.harm + 1 }) s) else s
  match x.early with
  | [] => s
  | f :: fs =>
    let first := fs.foldl (fun q g => if (g.seq - q).toInt < 0 then g.seq else q) f.seq
    let s := modUnit u (fun x => { x with rxNext := first, asm := none, gapAt := none }) s
    drainEarly u (x.early.length + 1) s

/-- A replay request names the last good seq; until every lane has delivered a later seq again, the gap asks for no
other (R265; log 33). -/
def requestReplay (u : Nat) (s : State) : State :=
  match dealLane u false s with
  | some l =>
    let newest := (unitOf s u).early.foldl (fun q f => if 0 < (f.seq - q).toInt then f.seq else q) (unitOf s u).rxNext
    let s := forAll (unitLanes u s) (fun n => modLane (laneKey u n) (fun l => { l with lastSeq := none })) s
    sendFrame u l 511 2 emptyBody (modUnit u (fun x => { x with askedTo := some newest }) s)
  | none => s

/-- Every lane in service has delivered a later seq (R266). -/
def gapSeen (u : Nat) (s : State) : Bool :=
  ((unitLanes u s).filter (fun n => (laneOf s (laneKey u n)).svc = .inService)).all (fun n =>
    match (laneOf s (laneKey u n)).lastSeq with
    | some q => 0 < (q - (unitOf s u).rxNext).toInt
    | none => false)

/-- A good frame that carries a seq arrives on a lane in service (R261, R265 to R267). -/
def sequenced (u n : Nat) (f : Frame) (s : State) : State :=
  let x := unitOf s u
  let d := (f.seq - x.rxNext).toInt
  let s := modLane (laneKey u n) (fun l => { l with lastSeq := some f.seq }) s
  if d = 0 then drainEarly u (x.early.length + 1) (acceptFrame u f s)
  else if d < 0 then (if u < 6 then s else laneOutOfService u n 5 s)
  else
    let s := setUnit u { x with
      early := if x.early.any (fun g => g.seq = f.seq) then x.early else x.early ++ [f],
      gapAt := if u < 6 then x.gapAt else x.gapAt.or (some s.clk) } s
    if gapSeen u s then
      if u < 6 then requestReplay u s else closeGap u s
    else s

/-! Hellos (R262, R285, R286). -/

/-- The body of a hello of a lane (R262). -/
def helloBody (u n : Nat) (s : State) : List Byte :=
  let id := if s.fabric.planLoaded then s.glb.moduleId.toNat else 0xFFFF
  let c := s.fabric.coords
  let heard := (unitLanes u s).foldl (fun a k =>
    let l := laneOf s (laneKey u k)
    if l.svc = .inService && l.lock && l.hello then a ||| 2 ^ (l.seenLane % 32) else a) 0
  let unit : Byte := if u < 6 || hasLane u n s then BitVec.ofNat 8 u else Config.freeByte s.fresh 0
  padTo 0 505 (leBytes id 2 ++ [unit] ++ leBytes n 1 ++ leBytes (c.1 + 4 * c.2.1 + 16 * c.2.2) 1 ++ [0, 0, 0]
    ++ leBytes heard 4
    ++ (if u < 6 then [] else (List.range 4).flatMap (fun k => wordBytes (tget 0 (unitOf s u).freedTot k))))

/-- HELLO_SEND: on a trained torus lane, or an optical lane that R299 lights (R262). A lane of no eyelet counts for no
unit (R292). -/
def helloSend (u n : Nat) (s : State) : State :=
  let eyeless := (List.range 16).all (fun e => match eyeletOf s e with
    | some x => !bit x.lanes n
    | none => true)
  if u < 6 then
    (if n < 8 && (unitOf s u).trained then
      lineOut u n (frameHeader 0 0 511 3 0 0) (helloBody u n s) (bump u 0 1 s)
     else s)
  else if s.welt.powered && (laceOf s.welt.active n).isSome && (hasLane u n s || eyeless) then
    useFresh 1 (lineOut u n (frameHeader 0 0 511 3 0 0) (helloBody u n s) (if hasLane u n s then bump u 0 1 s else s))
  else s

def execHelloSend (unit : Fin 22) (lane : Fin 32) (s : State) : Host.Outcome State Fault Refusal :=
  fed (helloSend unit lane) s

/-- A hello is received on a lane (R262, R267, R285, R286). -/
def hello (u n : Nat) (body : List Byte) (s : State) : State :=
  let l := laneOf s (laneKey u n)
  if !hasLane u n s || (l.svc = .out && !l.tried) then s
  else
    let m := leNat (body.take 2)
    let fu := leNat ((body.drop 2).take 1)
    let fl := leNat ((body.drop 3).take 1)
    let mask := leNat ((body.drop 8).take 4)
    let s := setLane (laneKey u n) { l with hello := true, seenModule := m, seenUnit := fu, seenLane := fl } s
    let s := modUnit u (fun x => { x with seenModule := m, seenUnit := fu }) s
    let good := (m, fu) = expected u s && m ≠ 0xFFFF
    if good || !unitPlanned u s then
      let s := forAll (unitLanes u s) (fun k s =>
        modLane (laneKey u k) (fun l => { l with heard := mask / 2 ^ k % 2 = 1 }) s) s
      let s := evalUnit 0x4001 u s
      if u < 6 then s
      else forAll (List.range 4) (fun c s => modUnit u (fun x => { x with
        freedSeen := tset 0 x.freedSeen c (word (leNat ((body.drop (12 + 4 * c)).take 4))) }) s) s
    else if m ≠ 0xFFFF && l.svc = .inService then laneOutOfService u n 4 s
    else evalUnit 0x4003 u s

/-- HELLO_RECEIVE: a hello is a frame received (R292). -/
def helloReceive (u n : Nat) (body : List Byte) (s : State) : State :=
  if hasLane u n s then hello u n body (bump u 1 1 s) else s

def execHelloReceive (unit : Fin 22) (lane : Fin 32) (body : List Byte) (s : State) :
    Host.Outcome State Fault Refusal :=
  if body.length ≠ 505 then .fault .illFormed else fed (helloReceive unit lane body) s

/-! Reception (R260 to R267). -/

/-- Event 0x4008: the frames replayed to the port, or the packets that the eyelet lost, since the last one (R293;
log 33). -/
def tellUncorrectable (u n : Nat) (s : State) : State :=
  let harm := (unitOf s u).harm
  let s := raiseLimited 0x4008 2 u (ticksS 1) 1 (fun k => [word u, word n, word k, word harm]) s
  if (tget {} s.log.rates (0x4008 * 2 ^ 32 + u)).owed = 0 then modUnit u (fun x => { x with harm := 0 }) s else s

/-- A codeword that the decoder cannot correct (R265, R266, R293). -/
def uncorrectable (u n : Nat) (s : State) : State :=
  let s := modLane (laneKey u n) (fun l => { l with badAt := some s.clk }) s
  if (laneOf s (laneKey u n)).svc ≠ .inService then s
  else
    let s := tellUncorrectable u n (bump u 3 1 s)
    if u < 6 then requestReplay u s else s

/-- A codeword that is good after correction. -/
def goodFrame (u n : Nat) (cw : Codeword) (s : State) : State :=
  let kind := field cw.header 41 3
  let l := laneOf s (laneKey u n)
  let s := if cw.symErrs = 0 then s
    else raiseLimited 0x4007 1 u (ticksS 10) 1 (fun k => [word u, word k]) (bump u 2 1 s)
  let s := bump u 1 1 s
  if kind = 3 then hello u n cw.body s
  else if kind < 3 && l.svc = .inService then
    sequenced u n ⟨BitVec.ofNat 16 (field cw.header 0 16), cw.header, cw.body⟩ s
  else s

/-- FRAME_RECEIVE (R260, R261). The module ignores what a lane out of service receives (R267). -/
def frameReceive (u n : Nat) (cw : Codeword) (s : State) : State :=
  let l := laneOf s (laneKey u n)
  if !hasLane u n s then s
  else if 16 < cw.symErrs then uncorrectable u n s
  else if l.svc = .out && !l.tried then s
  else goodFrame u n cw s

def execFrameReceive (unit : Fin 22) (lane : Fin 32) (cw : Codeword) (s : State) :
    Host.Outcome State Fault Refusal :=
  if cw.body.length ≠ 505 then .fault .illFormed else fed (frameReceive unit lane cw) s

/-- REPLAY_REQUEST_RECEIVE: the request is a frame received (R265, R292). -/
def execReplayRequestReceive (port : Fin 6) (ack : BitVec 16) (s : State) : Host.Outcome State Fault Refusal :=
  fed (fun s => replay port ack (bump port 1 1 s)) s

/-- EYELET_SEQ_GAP_TIMEOUT (R266). -/
def eyeletSeqGapTimeout (e : Nat) (s : State) : State :=
  match (unitOf s (6 + e)).gapAt with
  | some t => if ticksUs 10 ≤ since t s then closeGap (6 + e) s else s
  | none => s

def execEyeletSeqGapTimeout (eyelet : Fin 16) (s : State) : Host.Outcome State Fault Refusal :=
  fed (eyeletSeqGapTimeout eyelet) s

/-! The link arbiter (R278 to R283). -/

/-- The requester of a queued packet: the buffer it came from, or the class formed here (log 33). -/
def requester (p : Pkt) : Nat := if p.src0 < 22 then 8 * p.src0 + p.buf0 else 176 + p.cls

/-- The requesters of a unit's output. -/
def unitRequesters : Nat := 180

/-- The head packet of each requester, oldest first. -/
def heads (q : List Pkt) : List Pkt :=
  q.foldl (fun l p => if l.any (fun h => requester h = requester p) then l else l ++ [p]) []

/-- Bytes of the Mirror class that a unit may carry in 10 µs, on the lanes that it can deal to (R264, R282). -/
def mirrorCap (u : Nat) (s : State) : Nat :=
  (if u < 6 then 25992 else 23207)
    * ((unitLanes u s).filter (fun n => (laneOf s (laneKey u n)).svc = .inService && !(laneOf s (laneKey u n)).deaf)).length

/-- The Mirror cap admits a packet now (R282). -/
def mirrorOk (u : Nat) (p : Pkt) (s : State) : Bool :=
  p.cls ≠ 2 || ((((unitOf s u).mirror.filter (fun m => since m.1 s < ticksUs 10)).map (·.2)).sum
    + 12 + p.bytes.length ≤ mirrorCap u s)

/-- The head requests that can be taken now (R269, R278, R282). -/
def eligible (u : Nat) (s : State) : List Pkt :=
  (heads (unitOf s u).txq).filter (fun p => pktUnits p ≤ credits u (pktBuf u p) s && mirrorOk u p s)

/-- The ledger slots of a torus port: job_tags in transit (R242, R283). -/
def ledgerOf (port : Nat) (s : State) : List Word :=
  (s.place.ledger.filter (fun e => e.1 = port)).map (·.2)

/-- A packet qualifies by the floor of its job (R283); counts are in eighths of a unit. -/
def qualifies (u : Nat) (p : Pkt) (s : State) : Bool :=
  u < 6 && p.cls < 2 && (ledgerOf u s).contains p.tag
    && 8 * pktUnits p ≤ tget 0 (unitOf s u).floors (2 * p.tag.toNat + p.cls)

/-- The requests that can be taken now as the arbiter sees them (R278, R283). -/
def unitClaims (u : Nat) (s : State) : List Claim :=
  (eligible u s).map (fun p => { req := requester p, cls := p.cls, units := pktUnits p, first := qualifies u p s })

/-- The floor counts after a grant of a class: a job_tag that has left the ledger has none (R283). -/
def floorsAfter (u : Nat) (p : Pkt) (hs : List Pkt) (s : State) : Tbl Nat :=
  if 6 ≤ u || 2 ≤ p.cls then (unitOf s u).floors
  else
    let n := pktUnits p
    let won := qualifies u p s
    let l := ledgerOf u s
    l.foldl (fun t g =>
      let k := 2 * g.toNat + p.cls
      let v := if hs.any (fun h => h.tag = g) then tget 0 t k + n else 0
      tset 0 t k (if won && g = p.tag then v - 8 * n else v))
      ((unitOf s u).floors.filter (fun e => l.contains (word (e.1 / 2))))

/-- One grant of a unit's link arbiter: the packet, and what the grant changes besides (R278, R281 to R283). -/
def unitGrant (u : Nat) (s : State) : Option (Pkt × State) :=
  let x := unitOf s u
  let recent := x.mirror.filter (fun m => since m.1 s < ticksUs 10)
  match x.arb.grant s.clk s.fabric.ptr0 unitRequesters (nth 1 x.weights) (unitClaims u s) with
  | none => none
  | some (w, a) => ((eligible u s).find? (fun p => requester p = w.req)).map (fun p => (p, setUnit u { x with
      arb := a, floors := floorsAfter u p (heads x.txq) s,
      mirror := if p.cls = 2 then recent ++ [(s.clk, 12 + p.bytes.length)] else recent } s))

/-- The packet stream goes out in frames, as far as whole frames are there; `flush` sends the rest with it, filled with
zeros (R261, R263; log 33). -/
def sendStream (u : Nat) (flush : Bool) : Nat → State → State
  | 0, s => s
  | n + 1, s =>
    let x := unitOf s u
    if x.part.isEmpty || (x.part.length < 505 && !flush) then s
    else match dealLane u true s with
      | some l => sendStream u flush n (sendFrame u l x.partPtr 0 (padTo 0 505 (x.part.take 505))
          (setUnit u { x with part := x.part.drop 505, partPtr := 511 } s))
      | none => s

/-- The bytes of a packet follow the packet stream (R263). -/
def appendStream (u : Nat) (bytes : List Byte) (s : State) : State :=
  modUnit u (fun x => { x with
    part := x.part ++ bytes, partPtr := if x.partPtr = 511 then x.part.length else x.partPtr }) s

/-- A packet is sent whole on a unit, end to end with the one before; when no other can follow it, its last frame is
filled (R263, R269). -/
def sendPacket (u : Nat) (p : Pkt) (s : State) : State :=
  let buf := pktBuf u p
  let bytes := routeWord p ++ p.bytes
  let s := modUnit u (fun x => { x with
    txq := x.txq.erase p, sentTot := tset 0 x.sentTot buf (tget 0 x.sentTot buf + word (pktUnits p)),
    bytesSent := x.bytesSent + p.bytes.length }) s
  let s := appendStream u bytes s
  freeBuffer p (sendStream u (eligible u s).isEmpty bytes.length s)

/-- PACKET_SEND: one grant of a unit's link arbiter among the packets that have come over the mesh (R269, R278).
Nothing is sent while no lane can be dealt to or no request is eligible; what comes for a unit that is down is dropped
(R275). -/
def packetSend (u : Nat) (s : State) : State :=
  let s := meshSettle s
  if !unitCarries u s then flushQueue u s
  else if (dealLane u true s).isNone then s
  else match unitGrant u s with
    | some (p, s) => sendPacket u p s
    | none => s

def execPacketSend (unit : Fin 22) (s : State) : Host.Outcome State Fault Refusal := fed (packetSend unit) s

/-- Every arbiter of a unit, a mesh link and a front end looks at its requesters once a cycle (R278). -/
def lookAll (s : State) : State :=
  let s := meshLookAll s
  let s := forAll s.fabric.units (fun x s => modUnit x.1 (fun y => { y with arb := y.arb.look s.clk (unitClaims x.1 s) }) s) s
  forAll s.fabric.fronts (fun x s => setFront x.1
    { frontOf x.1 s with arb := (frontOf x.1 s).arb.look s.clk ((frontEligible x.1 s).map frontClaim) } s) s

/-! Forwarding (R271, R274, R275). -/

/-- The Response-class credit for the answer to a request is held, after the responses that wait at the unit or are on
their way to it over the mesh and those owed to requests already taken (R183). -/
def answerCredit (p : Pkt) (s : State) : Bool :=
  match openRoute (answerPkt p s) s with
  | some (q, h) => match hopUnit h with
    | some u =>
      let mine := fun (t : Pkt) => match openRoute t s with
        | some (r, k) => hopUnit k = some u && pktBuf u r = pktBuf u q
        | none => false
      let coming := (s.fabric.mesh.bufs.flatMap (fun b => b.2)).filterMap (fun m => if m.goal = atUnit u then some m.pkt else none)
      let queued := ((((unitOf s u).txq ++ coming).filter (fun t => pktBuf u t = pktBuf u q)).map pktUnits).sum
      let owed := ((((unanswered s).map (fun r => answerPkt r s)).filter mine).map pktUnits).sum
      queued + owed + pktUnits q ≤ credits u (pktBuf u q) s
    | none => true
  | none => true

/-- Take the head packet of a receive buffer. -/
def popBuffer (u buf : Nat) (s : State) : State :=
  modUnit u (fun x => { x with rxq := tset [] x.rxq buf (tget [] x.rxq buf).tail }) s

/-- What becomes of a packet held in a receive buffer: the unit that it leaves by, delivery, or the unit and
cause of its drop (R271, R274, R275). -/
inductive Fate where
  | send (u : Nat) (p : Pkt)
  | deliver
  | drop (unit cause : Nat)
deriving DecidableEq, Repr

/-- The fate of a held packet. -/
def fateOf (u : Nat) (p : Pkt) (s : State) : Fate :=
  let own := s.glb.moduleId.toNat
  if 6 ≤ u then (if p.dest = own then .deliver else .drop u 4)
  else if outside (p.tx, p.ty, p.tz) s then .drop u 5
  else match nextHop p s with
    | .port q vc => if unitCarries q s then .send q { p with vc := vc } else .drop q 1
    | .eyelet e =>
      if !unitCarries (6 + e) s then .drop (6 + e) 2
      else if (eyeletOf s e).map (·.farModule) ≠ some p.dest then .drop (6 + e) 3
      else .send (6 + e) p
    | .deliver => if p.dest = own then .deliver else .drop u 6

/-- PACKET_FORWARD: the head packet of a receive buffer goes on (R271, R274, R275). A request is delivered
only when the credit for its answer is held (R183). -/
def packetForward (u buf : Nat) (s : State) : State :=
  match tget [] (unitOf s u).rxq buf with
  | [] => s
  | p :: _ =>
    match fateOf u p s with
    | .send q p => queuePacket (atUnit u) q p (popBuffer u buf s)
    | .deliver =>
      if p.cls = 1 || answerCredit p s then freeBuffer p (deliverLocal (atUnit u) p (popBuffer u buf s)) else s
    | .drop unit cause => freeBuffer p (dropPacket unit cause p (popBuffer u buf s))

def execPacketForward (unit : Fin 22) (buf : Fin 8) (s : State) : Host.Outcome State Fault Refusal :=
  fed (packetForward unit buf) s

/-! Lane service (R267, R285, R288). -/

/-- LANE_LOCK_TIMEOUT: no lock for 1 ms while another lane of the unit has it, or a far end deaf for 1 ms
(R267); a lane of a relace is given 5 ms from its instant (R288). -/
def laneLockTimeout (u n : Nat) (deaf : Bool) (s : State) : State :=
  let l := laneOf s (laneKey u n)
  let relacing := match l.quiet with
    | some t => siteDiff (siteNow s) t < 5000000
    | none => false
  if !hasLane u n s || !laneLive u n s || l.svc = .out || relacing then s
  else if deaf then (if l.svc = .inService && !l.heard && !l.deaf then sendingOut u n s else s)
  else if (unitLanes u s).any (fun k => k ≠ n && (laneOf s (laneKey u k)).lock) then
    laneOutOfService u n 1 (modLane (laneKey u n) (fun l => { l with lock := false, hello := false }) s)
  else if l.quiet.isSome then
    laneOutOfService u n 1 (modLane (laneKey u n) (fun l => { l with lock := false, hello := false }) s)
  else evalUnit 0x4005 u (modLane (laneKey u n) (fun l => { l with lock := false, hello := false }) s)

def execLaneLockTimeout (unit : Fin 22) (lane : Fin 32) (deaf : Bool) (s : State) :
    Host.Outcome State Fault Refusal := fed (laneLockTimeout unit lane deaf) s

/-- LANE_ERROR_CHECK (R267). -/
def laneErrorCheck (u n unc corr recv : Nat) (s : State) : State :=
  let l := laneOf s (laneKey u n)
  let s := if unc ≠ 0 && hasLane u n s then
      setLane (laneKey u n) { l with badAt := some s.clk } s else s
  if !hasLane u n s || l.svc ≠ .inService then s
  else if 16 < unc then laneOutOfService u n 2 s
  else if recv < 10000 * corr then laneOutOfService u n 3 s
  else s

def execLaneErrorCheck (unit : Fin 22) (lane : Fin 32) (uncorrectable corrected received : Nat) (s : State) :
    Host.Outcome State Fault Refusal := fed (laneErrorCheck unit lane uncorrectable corrected received) s

/-- LANE_RETRY: every 10 s (R267). -/
def laneRetry (u n : Nat) (s : State) : State :=
  let l := laneOf s (laneKey u n)
  if hasLane u n s && (l.svc = .out || l.deaf) && ticksS 10 ≤ since l.outAt s then
    setLane (laneKey u n) { l with tried := true, outAt := s.clk } s
  else s

def execLaneRetry (unit : Fin 22) (lane : Fin 32) (s : State) : Host.Outcome State Fault Refusal :=
  fed (laneRetry unit lane) s

/-- LANE_RETURN: one second with lock and no uncorrectable codeword (R267). A relace that is past holds the lane no
longer (R288). -/
def laneReturn (u n : Nat) (s : State) : State :=
  let l := laneOf s (laneKey u n)
  let clean := match l.badAt with
    | some t => decide (ticksS 1 ≤ since t s)
    | none => true
  if hasLane u n s && (l.svc = .out || l.deaf) && l.tried && l.lock && ticksS 1 ≤ since l.lockAt s && clean then
    let quiet := match l.quiet with
      | some t => if reached t s then none else some t
      | none => none
    let s := setLane (laneKey u n) { l with svc := .inService, deaf := false, tried := false, quiet := quiet } s
    evalUnit 0x4006 u (raise 0x4006 1 [word u, word n] s)
  else s

def execLaneReturn (unit : Fin 22) (lane : Fin 32) (s : State) : Host.Outcome State Fault Refusal :=
  fed (laneReturn unit lane) s

/-- LANE_LOCK_GAINED: a live lane that is not out enters service (R267, R288); an optical lane of no eyelet
only has lock (R259). -/
def laneLockGained (u n : Nat) (s : State) : State :=
  let l := laneOf s (laneKey u n)
  if hasLane u n s then
    let s := if 6 ≤ u && l.locked && !l.lock then bump u 5 1 s else s
    evalUnit 0x4001 u (setLane (laneKey u n) { l with
      lock := true, locked := true, lockAt := if l.lock then l.lockAt else s.clk,
      svc := if l.svc = .idle && laneLive u n s then .inService else l.svc } s)
  else if 6 ≤ u then setLane (laneKey u n) { l with lock := true, locked := true, lockAt := s.clk } s
  else s

def execLaneLockGained (unit : Fin 22) (lane : Fin 32) (s : State) : Host.Outcome State Fault Refusal :=
  fed (laneLockGained unit lane) s

/-- UNIT_MISSING: 1 ms in state 2 or 3, after the 200 ms of grace (R287). -/
def unitMissing (u : Nat) (s : State) : State :=
  let x := unitOf s u
  match x.badSince with
  | some t =>
    if !x.missing && ticksMs 1 ≤ since t s && x.graceEnd ≤ s.clk then
      reevaluate 0x4002 (raise 0x4002 2 [word u, word x.state, word x.seenModule]
        (setUnit u { x with missing := true } s))
    else s
  | none => s

def execUnitMissing (unit : Fin 22) (s : State) : Host.Outcome State Fault Refusal := fed (unitMissing unit) s

/-- LINK_TRAINING_COMPLETE (R265, R285). -/
def linkTrainingComplete (p : Nat) (ok : Bool) (s : State) : State :=
  let x := unitOf s p
  let lanes := fun (f : Lane → Lane) (s : State) => forAll (List.range 8) (fun n s => modLane (8 * p + n) f s) s
  match x.retrainAt, ok with
  | some t, true =>
    let s := lanes (fun l => { l with lock := true, lockAt := s.clk }) (setUnit p { x with retrainAt := none } s)
    let s := evalUnit 0x400A p (raise 0x400A 1 [word p, 1, word (since t s / 500)] s)
    match x.replay with
    | some (ack, _) => resend p ack s
    | none => s
  | none, true =>
    let s := setUnit p { x with trained := true } s
    let s := lanes (fun _ => { lock := true, lockAt := s.clk, svc := .inService }) s
    evalUnit 0x4001 p (linkFresh p s)
  | _, false =>
    evalUnit 0x4005 p (lanes (fun _ => {}) (setUnit p { x with trained := false, retrainAt := none } s))

def execLinkTrainingComplete (port : Fin 6) (ok : Bool) (s : State) : Host.Outcome State Fault Refusal :=
  fed (linkTrainingComplete port ok) s

/-! The relace at the lanes (R288). -/

/-- RELACE_QUIESCE: from T − 100 µs the lanes of the shadow bank's touched list take no data frames (R288). -/
def relaceQuiesce (seq : BitVec 16) (s : State) : State :=
  match s.sched.entries.find? (fun e => e.2.st = .armed && e.2.action = 1 && e.2.seq = seq && !e.2.quiesced) with
  | some (i, e) =>
    if -100000 ≤ siteDiff (siteNow s) e.instant then
      let s := setSched i { e with quiesced := true } s
      forAll s.welt.shadowLanes (fun n s => modLane (48 + n) (fun l => { l with quiet := some e.instant }) s) s
    else s
  | none => s

def execRelaceQuiesce (seq : BitVec 16) (s : State) : Host.Outcome State Fault Refusal := fed (relaceQuiesce seq) s

/-- LANE_DEAL_RESUME: the far end's heard mask shows the relocked lane (R288). -/
def laneDealResume (n : Nat) (s : State) : State :=
  let l := laneOf s (48 + n)
  match l.quiet with
  | some t => if l.lock && l.heard && reached t s then clearQuiet n s else s
  | none => s

def execLaneDealResume (lane : Fin 32) (s : State) : Host.Outcome State Fault Refusal := fed (laneDealResume lane) s

/-- The lane of OLn keeps its eyelet up through a relace: it is quiesced for it, laced and now good (R288). -/
def keepsUp (n : Nat) (s : State) : Bool :=
  (laneOf s (48 + n)).quiet.isSome && lanesLaced n s && (match eyeletWith n s with
    | some e => laneReceives (6 + e) n s && laneSends (6 + e) n s
    | none => false)

/-- Light breaks on lanes, in a relace or not: lock, hellos and the far end's report are gone, and a lane that is
not laced any more leaves service (R267, R288, R299). -/
def lightBreaks (relace : Bool) (cause : BitVec 16) (lanes : List Nat) (s : State) : State :=
  let s := forAll lanes (fun n s => modLane (48 + n) (fun l => { l with
    lock := false, heard := false, hello := false, lastSeq := none, kept := relace && keepsUp n s,
    svc := if lanesLaced n s then l.svc else .idle }) s) s
  let s := forAll (lanes.filter (fun n => !lanesLaced n s)) (fun n => endQuiet n false) s
  forAll (List.range 16) (fun e => evalUnit cause (6 + e)) s

/-- The lanes whose light a commit made at an instant broke (R307). -/
def brokenAt (t : BitVec 48) (s : State) : List Nat :=
  match s.welt.commitWas with
  | some x => if s.welt.lastT = t.setWidth 32 && since x.tick s < ticksS 1 then touchedLanes x.bank s.welt.active else []
  | none => []

/-- The lanes quiesced for an instant resume dealing, but for those whose light another commit of that instant broke
(R288, R307). -/
def resumeLanes (t : BitVec 48) (s : State) : State :=
  let broken := brokenAt t s
  forAll ((List.range 32).filter (fun n => !broken.contains n)) (fun n s =>
    if (laneOf s (48 + n)).quiet = some t then clearQuiet n s else s) s

/-- Heater power is removed: every lace is broken and every transmitter dark (R299, R315, R316). -/
def weltDark (cause : Nat) (s : State) : State :=
  if s.welt.powered then lightBreaks false (powerCause cause) (List.range 32) (weltDown cause s) else s

/-! WELT_POWER (R316). -/

/-- WELT_POWER. In hold-up, when the Welt cannot be powered, on answers WRONG_STATE as in R55 (R457; log 51). -/
def weltPowerCmd : Cmd where
  op := 0x0504
  len := (· = 3)
  unadmitted := []
  object := fun r s => need (!((s.glb.weltKilled || s.power.failing) && rb r 2 0)) .wrongState
  args := fun r _ => need (zeroFrom r 2 1) .badArg
  run := fun r s => .ok (if rb r 2 0 then weltOn 0 s else weltDark 0 s)

def execWeltPower (r : Req) (s : State) : Host.Outcome State Fault Refusal := .next (runCmd weltPowerCmd r s)

end Sys2Proof.Machine
end

