-- ==== Sys2Proof/Machine/Firmware.lean ====
section
/-! DEFINITION. Firmware delivery and activation, identity, attestation, the service port's sessions and the
test unlock (R422 to R445). -/

namespace Sys2Proof.Machine

/-! The image and its checks (R423 to R431). -/

/-- SHAKE256 with a 512-bit output (R425). -/
def shake512 (m : List Byte) : List Byte := (List.range 64).map (Config.shakeByte m)

/-- A signature by an ML-DSA-65 key over SHAKE256 of bytes (R425, R440, R444). -/
def signedBy (key msg sig : List Byte) : Bool := Config.mldsaVerify key (shake512 msg) sig

/-- Bytes `a` to `a + n - 1`. -/
def slice (a n : Nat) (bs : List Byte) : List Byte := (bs.drop a).take n

/-- Word `i` of a header (R424). -/
def hdrWord (h : List Byte) (i : Nat) : Nat := leNat (slice (4 * i) 4 h)

def hdrSvn (h : List Byte) : Nat := hdrWord h 2 % 128
def hdrVersion (h : List Byte) : Word := word (hdrWord h 3)
def hdrBytes (h : List Byte) : Nat := hdrWord h 4
def hdrBlocks (h : List Byte) : Nat := hdrWord h 5 % 512
def hdrCal (h : List Byte) : Nat := hdrWord h 6 % 65536
def hdrLog (h : List Byte) : Nat := hdrWord h 6 / 65536

/-- H of a header (R425). -/
def hdrH (h : List Byte) : List Byte := shake512 (slice 0 256 h)

/-- image_digest of a header (R424). -/
def hdrDigest (h : List Byte) : List Byte := slice 80 64 h

/-- Bytes that R424 makes zero. -/
def allZero (bs : List Byte) : Bool := bs.all (· = 0)

/-- Reason 4 of R429: sizes and reserved fields. -/
def sizesOk (h : List Byte) : Bool :=
  1 ≤ hdrBytes h && hdrBytes h ≤ 33488896 && hdrBlocks h = (hdrBytes h + 65535) / 65536
    && hdrWord h 2 / 128 = 0 && hdrWord h 5 / 512 = 0 && hdrWord h 7 = 0
    && allZero (slice 144 112 h) && allZero (slice 3565 531 h)

/-- Reasons 1 to 5 of R429 against a fused security version, the first that fails. -/
def headerRefused (h : List Byte) (svn : Nat) : Option Nat :=
  if hdrWord h 0 ≠ 0x46573234 then some 1
  else if hdrWord h 1 ≠ 0x24600001 then some 2
  else if hdrSvn h < svn then some 3
  else if !sizesOk h then some 4
  else if !signedBy Config.imageKey (slice 0 256 h) (slice 256 3309 h) then some 5
  else none

/-- The wrapped key of a header (R424). -/
def wrapped (h : List Byte) : List Byte := slice 32 40 h

/-- The refusal reason of FW_BEGIN (R429). -/
def deliveryRefused (h : List Byte) (s : State) : Option Nat :=
  match headerRefused h s.glb.svn.toNat with
  | some n => some n
  | none =>
    if hdrCal h < s.fw.calVersion || hdrLog h < s.fw.logVersion then some 6
    else if (Config.unwrapKey (wrapped h)).isNone then some 7
    else none

/-- The status of a refusal reason (R429). -/
def reasonStatus (n : Nat) : Status := if n = 3 || n = 5 || n = 7 then .authFail else .badArg

/-- The plaintext of block `i`, none when its tag fails (R426). -/
def openBlock (h : List Byte) (i : Nat) (ct tag : List Byte) : Option (List Byte) :=
  match Config.unwrapKey (wrapped h) with
  | none => none
  | some key => Config.gcmOpen key (slice 72 8 h ++ leBytes i 4) (hdrH h ++ leBytes i 4) ct tag

/-- The first block of an image whose tag fails, 0x1FF when only the digest fails, none when the image
verifies (R431). -/
def verifyImage (x : Image) : Option Nat :=
  let blocks := (List.range (hdrBlocks x.header)).map (fun i =>
    openBlock x.header i (tget [] x.blocks i) (tget [] x.tags i))
  match blocks.findIdx? (·.isNone) with
  | some i => some i
  | none =>
    let plain := (blocks.flatMap (·.getD [])).take (hdrBytes x.header)
    if shake512 plain = hdrDigest x.header then none else some 0x1FF

/-- The first block that is not stored (FW_VERIFY). -/
def firstMissing (s : State) : Option Nat :=
  (List.range (hdrBlocks s.fw.staged.header)).find? (fun i => !s.fw.stored.contains i)

/-! Delivery (R428 to R431). -/

/-- The service port sends the request. -/
def bySvc (r : Req) : Bool := r.via = .service

/-- The delivery belongs to the other agent (R428). -/
def otherAgent (r : Req) (s : State) : Bool := bySvc r != s.fw.bySvc

/-- FW_BEGIN. -/
def fwBeginCmd : Cmd where
  op := 0x0B01
  len := (· = 6)
  unadmitted := []
  badHeader := [0]
  object := fun _ s => need (s.fw.staging ≠ .armed) .wrongState
  args := fun r s =>
    if !(bulkOk r 2 && bulkLen r 2 = 4096) then some (.badArg, [0])
    else need (!(otherAgent r s && (s.fw.staging = .receiving || s.fw.staging = .verifying))) .busy
  run := fun r s =>
    if !dmaGood r 0 then dmaFailed 0x0B01 r 2 [0] s
    else
      let h := bulkBytes r 0 2
      match deliveryRefused h s with
      | some n =>
        .of (reasonStatus n) [word n] (raise 0x9001 2 [word (b2n (bySvc r)), word n, word (hdrSvn h), hdrVersion h]
          { s with fw.reason := n })
      | none =>
        if !r.env.mediaOk then .of .mediaFail [] s
        else .ok { s with fw.staging := .receiving, fw.bySvc := bySvc r, fw.stored := [],
                          fw.staged := { header := h, tags := [], blocks := s.fw.staged.blocks } }

def execFwBegin (r : Req) (s : State) : Host.Outcome State Fault Refusal := .next (runCmd fwBeginCmd r s)

/-- FW_BLOCK. -/
def fwBlockCmd : Cmd where
  op := 0x0B02
  len := (· = 11)
  unadmitted := []
  object := fun _ s => need (s.fw.staging = .receiving) .wrongState
  args := fun r s => firstOf [
    need (zeroFrom r 2 9 && rf r 2 0 9 < hdrBlocks s.fw.staged.header) .badArg,
    need (bulkOk r 7 && bulkLen r 7 = 65536) .badArg,
    need (!otherAgent r s) .busy]
  run := fun r s =>
    let i := rf r 2 0 9
    if !dmaGood r 0 then dmaFailed 0x0B02 r 7 [] s
    else
      let ct := bulkBytes r 0 7
      let tag := wordsBytes [rw r 3, rw r 4, rw r 5, rw r 6]
      if (openBlock s.fw.staged.header i ct tag).isNone then
        .of .authFail [] (raise 0x9002 2 [word (b2n (bySvc r)), word i]
          { s with fw.reason := 8, fw.failBlock := i })
      else if !r.env.mediaOk then .of .mediaFail [] s
      else
        let stored := if s.fw.stored.contains i then s.fw.stored else s.fw.stored ++ [i]
        let staged := { s.fw.staged with tags := tset [] s.fw.staged.tags i tag,
                                         blocks := tset [] s.fw.staged.blocks i ct }
        .of .ok [word (hdrBlocks staged.header - stored.length)]
          { s with fw.stored := stored, fw.staged := staged }

def execFwBlock (r : Req) (s : State) : Host.Outcome State Fault Refusal := .next (runCmd fwBlockCmd r s)

/-- FW_VERIFY. Word 2 of WRONG_STATE names the first missing block; with none missing it is a free value
(log 17). -/
def fwVerifyCmd : Cmd where
  op := 0x0B03
  len := (· = 2)
  unadmitted := [0]
  object := fun _ _ => none
  args := fun _ _ => none
  run := fun r s =>
    match (if s.fw.staging = .receiving then firstMissing s else some ((firstMissing s).getD 512)) with
    | some i =>
      if i < 512 then .of .wrongState [word i] s
      else .of .wrongState [word (Config.freeNat s.fresh % 512)] (useFresh 1 s)
    | none =>
      if otherAgent r s then .of .busy [] s
      else if !r.env.mediaOk then .of .mediaFail [] s
      else
        let v := hdrVersion s.fw.staged.header
        match verifyImage s.fw.staged with
        | none => .ok (raise 0x9003 1 [0, v, 0] { s with fw.staging := .verified })
        | some i => .of .authFail [word i] (raise 0x9003 1 [1, v, word i]
            { s with fw.staging := .failed, fw.reason := 9, fw.failBlock := i })

def execFwVerify (r : Req) (s : State) : Host.Outcome State Fault Refusal := .next (runCmd fwVerifyCmd r s)

/-! Activation (R432, FW_ARM, FW_ABORT). -/

/-- Event 0x9004 of an entry (R445). -/
def activationEvent (i : Nat) (armed : Bool) (s : State) : State :=
  let e := schedOf s i
  raise 0x9004 1 [e.seq.setWidth 32, e.instant.setWidth 32, hdrVersion s.fw.staged.header, word (b2n armed)] s

/-- FW_ARM. -/
def fwArmCmd : Cmd where
  op := 0x0B04
  len := (· = 3)
  unadmitted := []
  object := fun _ s => need (s.fw.staging = .verified) .wrongState
  args := fun r s => need (!(bySvc r && !s.fw.bySvc)) .busy
  run := fun r s =>
    match armWith 4 100000000 (rw r 2) false 0 0 s with
    | .error st => .of st [] s
    | .ok (i, s) =>
      .of .accepted [(schedOf s i).seq.setWidth 32]
        (activationEvent i true { s with fw.staging := .armed, fw.armedEntry := some i })

def execFwArm (r : Req) (s : State) : Host.Outcome State Fault Refusal := .next (runCmd fwArmCmd r s)

/-- An armed activation is disarmed: fw_armed clears and the staging state changes (FW_ARM). -/
def fwDisarmed (i : Nat) (next : Staging) (s : State) : State :=
  activationEvent i false { s with fw.staging := next, fw.armedEntry := none }

/-- An Armed entry becomes Disarmed, with event 0x7012 (R370, R377). -/
def disarmEntry (i : Nat) (s : State) : State :=
  let e := schedOf s i
  raise 0x7012 1 [e.seq.setWidth 32, word e.action] (setSched i { e with st := .disarmed } s)

/-- An activation entry is Armed. -/
def activationArmed (s : State) : Bool :=
  match s.fw.armedEntry with
  | some i => (schedOf s i).st = .armed
  | none => false

/-- An activation entry is Firing, which it is until the module restarts (R372, R432). -/
def activationFiring (s : State) : Bool := s.sched.entries.any (fun e => e.2.action = 4 && e.2.st = .firing)

/-- FW_ABORT. -/
def fwAbortCmd : Cmd where
  op := 0x0B06
  len := (· = 2)
  unadmitted := []
  object := fun _ _ => none
  args := fun r s => firstOf [need (!activationFiring s) .busy,
    need (!(bySvc r && !s.fw.bySvc && s.fw.staging ≠ .empty)) .busy]
  run := fun _ s =>
    let s := match s.fw.armedEntry with
      | some i => fwDisarmed i .empty (disarmEntry i s)
      | none => s
    .ok { s with fw.staging := .empty, fw.stored := [] }

def execFwAbort (r : Req) (s : State) : Host.Outcome State Fault Refusal := .next (runCmd fwAbortCmd r s)

/-- The value of a staging state (R428). -/
def stagingCode : Staging → Nat
  | .empty => 0 | .receiving => 1 | .verifying => 2 | .verified => 3 | .armed => 4 | .failed => 5

/-- FW_STATUS. With staging Empty there is no staged header and its fields are 0 (log 18). -/
def fwStatusCmd : Cmd where
  op := 0x0B05
  len := (· = 2)
  unadmitted := []
  object := fun _ _ => none
  args := fun _ _ => none
  run := fun _ s =>
    let h := if s.fw.staging = .empty then [] else s.fw.staged.header
    let e := s.fw.armedEntry.map (schedOf s)
    .of .ok
      [word (stagingCode s.fw.staging + 8 * b2n s.fw.bySvc + 16 * b2n s.fw.session.isSome),
       word (s.fw.stored.length + 65536 * hdrBlocks h), hdrVersion h,
       word (hdrSvn h + 256 * (64 - s.glb.svn.toNat)),
       match e with
         | some x => x.seq.setWidth 32
         | none => 0,
       match e with
         | some x => x.instant.setWidth 32
         | none => 0,
       word (s.fw.reason + 65536 * s.fw.failBlock)] s

def execFwStatus (r : Req) (s : State) : Host.Outcome State Fault Refusal := .next (runCmd fwStatusCmd r s)

/-! Identity (R442, R443). -/

/-- The seed of the identity key: SHAKE256 of the fused secret and the ASCII bytes "DPN-ID", with a 256-bit output
(R442). -/
def identitySeed : List Byte :=
  let m := (List.range 32).map Config.fusedSecret ++ [0x44, 0x50, 0x4E, 0x2D, 0x49, 0x44]
  (List.range 32).map (Config.shakeByte m)

/-- The identity key that the boot ROM derives: public key and private key (R442). -/
def identityKey : List Byte × List Byte := Config.mldsaKeyGen identitySeed

/-- The certificates of the identity area: the device-CA's, or the module's, which names the identity public key and the
serial number and which the device-CA has signed (R442). -/
def certificate (ca : Bool) (serial : DWord) : List Byte :=
  if ca then Config.caCertificate else Config.moduleCertificate identityKey.1 serial

/-- ID_CERT_READ. -/
def idCertReadCmd : Cmd where
  op := 0x0C01
  len := (· = 7)
  unadmitted := []
  object := fun _ _ => none
  args := fun r _ => need (zeroFrom r 2 1 && bulkOk r 3 && 8192 ≤ bulkLen r 3) .badArg
  run := fun r s =>
    let cert := certificate (rb r 2 0) s.glb.serial
    if !r.env.mediaOk then .of .mediaFail [] s
    else if !dmaGood r 0 then dmaFailed 0x0C01 r 3 [] s
    else .reply .ok [word cert.length] [(bulkAddr r 3, cert)] s

def execIdCertRead (r : Req) (s : State) : Host.Outcome State Fault Refusal := .next (runCmd idCertReadCmd r s)

/-- GLB_ID (R27). -/
def glbId (s : State) : Word := word (0x2460 + 2 ^ 16 * s.glb.dieRev.toNat + 2 ^ 24 * s.glb.boardRev.toNat)

/-- Bytes 0 to 383 of an attestation report over a nonce (R443). -/
def reportBody (nonce : List Byte) (s : State) : List Byte :=
  let staged := s.fw.staging = .verified || s.fw.staging = .armed
  leBytes 0x41545331 4 ++ leBytes 1 2 ++ leBytes 3693 2 ++ leBytes s.glb.serial.toNat 8
    ++ wordBytes (glbId s) ++ leBytes s.glb.svn.toNat 1
    ++ leBytes (bitsNat [s.fw.unlocked, s.glb.maint, s.fw.staging = .verified, s.fw.staging = .armed]) 1
    ++ leBytes (stateCode s.glb.state) 1 ++ [0] ++ wordBytes s.glb.fwVer
    ++ leBytes s.glb.pcycle.toNat 4 ++ wordBytes s.glb.opsec ++ wordBytes s.tmu.ns ++ wordBytes s.tmu.sec
    ++ leBytes 0 4 ++ padTo 0 64 nonce ++ shake512 Config.bootRom ++ hdrH s.fw.area.header
    ++ padTo 0 64 (hdrDigest s.fw.area.header)
    ++ (if staged then hdrH s.fw.staged.header else List.replicate 64 0) ++ List.replicate 16 0

/-- An attestation report: its body and the signature of its digest (R443). -/
def report (nonce : List Byte) (s : State) : List Byte :=
  let b := reportBody nonce s
  b ++ (List.range 3309).map (Config.mldsaSign identityKey.2 (shake512 b))

/-- ATTEST_REPORT. -/
def attestReportCmd : Cmd where
  op := 0x0C02
  len := (· = 22)
  unadmitted := []
  object := fun _ _ => none
  args := fun r _ => need (bulkOk r 18 && 3696 ≤ bulkLen r 18) .badArg
  run := fun r s =>
    if !dmaGood r 0 then dmaFailed 0x0C02 r 18 [] s
    else .reply .ok [3693] [(bulkAddr r 18, report (wordsBytes ((List.range 16).map (fun i => rw r (2 + i)))) s)] s

def execAttestReport (r : Req) (s : State) : Host.Outcome State Fault Refusal :=
  .next (runCmd attestReportCmd r s)

/-! The service port (R438 to R441). -/

/-- The session closes for a cause (R438, R445). -/
def closeSession (cause : Nat) (s : State) : State :=
  match s.fw.session with
  | none => s
  | some x => raise 0x9012 1 (dwords x.tokenId.toNat ++ [word cause]) { s with fw.session := none }

/-- SVC_TOKEN_KEY. -/
def svcTokenKeyCmd : Cmd where
  op := 0x0C03
  len := (· = 7)
  unadmitted := []
  object := fun _ _ => none
  args := fun r _ => firstOf [need (zeroFrom r 2 2) .badArg,
    need (if rb r 2 1 then zeroWords r 3 6 else bulkOk r 3 && bulkLen r 3 = 1952) .badArg]
  run := fun r s =>
    let slot := rf r 2 0 1
    let clear := rb r 2 1
    if !clear && !dmaGood r 0 then dmaFailed 0x0C03 r 3 [] s
    else
      let key := if clear then none else some (bulkBytes r 0 3)
      .ok (closeSession 4 (raise 0x9013 1 [word slot, word (b2n !clear)]
        { s with fw.keys := tset none s.fw.keys slot key }))

def execSvcTokenKey (r : Req) (s : State) : Host.Outcome State Fault Refusal :=
  .next (runCmd svcTokenKeyCmd r s)

/-- The installed token keys. -/
def tokenKeys (s : State) : List (List Byte) := s.fw.keys.filterMap (·.2)

/-- Why a token is refused, as event 0x9011 names it (R440, R445, log 19). -/
def tokenRefused (t : List Byte) (s : State) : Option Nat :=
  let nb := leNat (slice 12 4 t)
  let na := leNat (slice 16 4 t)
  if !(t.length = 3341 && leNat (slice 0 4 t) = 0x544B4E31 && leNat (slice 4 8 t) = s.glb.serial.toNat) then some 1
  else if (tokenKeys s).isEmpty then some 4
  else if !(tokenKeys s).any (fun k => signedBy k (slice 0 32 t) (slice 32 3309 t)) then some 2
  else if !(nb ≤ s.tmu.sec.toNat && s.tmu.sec.toNat ≤ na && na ≤ nb + 604800) then some 3
  else none

/-- What the service port is on its network: IPv4 address and prefix, IPv6 link-local address, TCP port (R438). The
link-local address is formed from the fused MAC address as RFC 4291 gives it, PRESUMED (log 74). -/
structure SvcAddress where
  ipv4 : List Byte
  ipv4Prefix : Nat
  ipv6 : List Byte
  tcpPort : Nat
deriving DecidableEq, Repr

/-- The address of the service port (R438). -/
def svcAddress : SvcAddress :=
  let m := fun i => nth 0 (leBytes Config.macAddress.toNat 6) i
  { ipv4 := [169, 254, 24, 60], ipv4Prefix := 16, tcpPort := 2460
    ipv6 := [0xFE, 0x80, 0, 0, 0, 0, 0, 0, m 0 ^^^ 2, m 1, m 2, 0xFF, 0xFE, m 3, m 4, m 5] }

/-- A message comes on the service port, which so has a link and shows activity (R470; log 75). -/
def svcSeen (s : State) : State := { s with fw := { s.fw with svcLink := true, svcAt := some s.clk } }

/-- The first message of a session: its token is accepted or refused (R439, R440). -/
def sessionOpen (token : List Byte) (peer : DWord) (s : State) : State :=
  let tid := leNat (slice 24 8 token)
  match tokenRefused token s with
  | some c => raise 0x9011 2 (word c :: dwords tid) (svcSend [word (statusCode .authFail)] [] s)
  | none =>
    let rights := leNat (slice 20 1 token)
    raise 0x9010 1 (dwords tid ++ [word rights] ++ dwords peer.toNat)
      (svcSend [word (statusCode .ok)] []
        { s with fw.session := some { rights := BitVec.ofNat 8 rights, tokenId := BitVec.ofNat 64 tid,
                                      lastMsg := s.clk } })

/-- SVC_SESSION_OPEN: one session at a time (R438, R440). -/
def execSvcSessionOpen (token : List Byte) (peer : DWord) (s : State) : Host.Outcome State Fault Refusal :=
  .next (if serving s then (if s.fw.session.isNone then sessionOpen token peer (svcSeen s) else svcSeen s) else s)

/-- A session closes after 300 s without a message (R438). -/
def sessionIdle (s : State) : State :=
  match s.fw.session with
  | some x => if ticksS 300 ≤ since x.lastMsg s then closeSession 1 s else s
  | none => s

/-- SVC_SESSION_IDLE_TIMEOUT (R438). -/
def execSvcSessionIdleTimeout (s : State) : Host.Outcome State Fault Refusal := live sessionIdle s

/-- SVC_SESSION_CLOSE: by the peer (R438). -/
def execSvcSessionClose (s : State) : Host.Outcome State Fault Refusal := live (closeSession 2) s

/-! The test unlock (R444). -/

/-- The challenge nonce, while it is valid (R444). -/
def validNonce (s : State) : Option (List Byte) :=
  match s.fw.nonce with
  | some (n, t) => if since t s < ticksS 60 then some n else none
  | none => none

/-- A grant for a nonce: serial, nonce and signature (R444). -/
def grantOk (g nonce : List Byte) (s : State) : Bool :=
  leNat (slice 0 8 g) = s.glb.serial.toNat && slice 8 64 g = nonce
    && signedBy Config.imageKey (slice 0 72 g) (slice 72 3309 g)

/-- TEST_UNLOCK. The grant's buffer is 3,384 bytes, the multiple of 4 that R33 asks for (log 20). -/
def testUnlockCmd : Cmd where
  op := 0x0C04
  len := (· = 7)
  unadmitted := []
  object := fun r s => firstOf [need s.glb.maint .wrongState,
    need (!rb r 2 0 || (validNonce s).isSome) .wrongState]
  args := fun r _ => firstOf [need (zeroFrom r 2 1 && bulkOk r 3) .badArg,
    need (if rb r 2 0 then bulkLen r 3 = 3384 else 64 ≤ bulkLen r 3) .badArg]
  run := fun r s =>
    if !dmaGood r 0 then dmaFailed 0x0C04 r 3 [] s
    else match rb r 2 0, validNonce s with
      | true, some n =>
        let s := { s with fw.nonce := none }
        if grantOk (bulkBytes r 0 3) n s then
          .ok (raise 0x9014 2 (dwords s.glb.serial.toNat) { s with fw.unlocked := true })
        else .of .authFail [] (raise 0x9015 2 [word (Config.freeNat s.fresh)] (useFresh 1 s))
      | _, _ =>
        let n := (List.range 64).map (Config.nonceByte s.fresh)
        .reply .ok [] [(bulkAddr r 3, n)] (useFresh 1 { s with fw.nonce := some (n, s.clk) })

def execTestUnlock (r : Req) (s : State) : Host.Outcome State Fault Refusal := .next (runCmd testUnlockCmd r s)

/-- A nonce expires 60 s after its issue (R444). -/
def nonceExpiry (s : State) : State :=
  if s.fw.nonce.isSome && (validNonce s).isNone then { s with fw.nonce := none } else s

/-- TEST_NONCE_EXPIRY (R444). -/
def execTestNonceExpiry (s : State) : Host.Outcome State Fault Refusal := live nonceExpiry s

end Sys2Proof.Machine
end

