-- ==== Sys2Proof/Machine/JobCore.lean ====
section
/-! DEFINITION. What several commands do to jobs: status changes, tallies, stopping roles, faults and the
end of a stop (R118, R141 to R148, R151, R154). -/

namespace Sys2Proof.Machine

/-- The tiles that a job holds (R249). -/
def tilesOf (j : Nat) (s : State) : List Nat := tileNos.filter (fun t => (tileOf s t).job = some j)

/-- The tiles bound to a role of a job. -/
def roleTiles (j : Nat) (s : State) : List Nat := (tilesOf j s).filter (fun t => (tileOf s t).role.isSome)

/-- The role of a tile, 0 for a storage tile. -/
def roleOf (t : Nat) (s : State) : Nat := (tileOf s t).role.getD 0

/-- The tiles whose role of a job runs. -/
def runningTiles (j : Nat) (s : State) : List Nat :=
  (tilesOf j s).filter (fun t => (tileOf s t).run = .running)

/-- The Pattern that serves a role (JOB_LOAD_PATTERN). -/
def patternOf (x : Job) (role : Nat) : Option Pattern :=
  x.patterns.findSome? (fun p => match p.2 with
    | some q => if q.first ≤ role && role ≤ q.last then some q else none
    | none => none)

/-- A change of a job's status sets its cause bit (R145). -/
def changeStatus (j : Nat) (new : JobStatus) (s : State) : State :=
  if (jobOf s j).status = new then s
  else setJobCause j (modJob j (fun x => { x with status := new }) s)

/-- Add one to a tally (R118). -/
def bumpTally (t n : Nat) (s : State) : State :=
  modTile t (fun x => { x with tallies := tset 0 x.tallies n (tget 0 x.tallies n + 1) }) s

/-- Free values over ranges of a tile's SRAM: output that a step left unfinished (R151; log 10). -/
def freeRanges (t : Nat) (l : List (Nat × Nat)) (s : State) : State :=
  forAll l (fun r s => useFresh 1 (sramWrite t r.1 ((List.range r.2).map (Config.freeByte s.fresh)) s)) s

/-- The entries of the stitch table in use, by number. -/
def usedEntries (s : State) : List (Nat × SEntry) := s.stitch.table.filter (fun p => p.2.cond ≠ .free)

/-- An entry's operation has not completed. -/
def incomplete (x : SEntry) : Bool := x.cond = .held || x.cond = .waiting

/-- The incomplete entries of a tile (R139). -/
def tileOps (t : Nat) (s : State) : List (Nat × SEntry) :=
  s.stitch.table.filter (fun p => incomplete p.2 && p.2.owner = t)

/-- An entry becomes free; its generation stays (R187, R188). -/
def freeEntry (e : Nat) (s : State) : State := modEntry e (fun x => { gen := x.gen }) s

/-- Abandon the operations of a tile that are held and have sent nothing (R151). -/
def abandonHeld (t : Nat) (s : State) : State :=
  forAll ((tileOps t s).filter (fun p => p.2.cond = .held && p.2.sent.isEmpty)) (fun p => freeEntry p.1) s

/-- Stop the role of a tile: no further step, its units' steps abandoned, its held operations too (R151). -/
def stopTile (t : Nat) (s : State) : State :=
  let x := tileOf s t
  let outs := (match x.matrixOp with | some o => o.outs | none => [])
    ++ (match x.vectorOp with | some o => o.outs | none => [])
  let s := modTile t (fun x => { x with run := .idle, hold := .none, matrixOp := none, vectorOp := none }) s
  let s := { s with stitch.waitList := s.stitch.waitList.filter (·.who ≠ t) }
  let s := abandonHeld t (freeRanges t outs s)
  forAll (tileOps t s) (fun p => modEntry p.1 (fun x => { x with orphan := true })) s

/-- Stop every local role of a job that runs (R151). -/
def stopRoles (j : Nat) (s : State) : State := forAll (runningTiles j s) stopTile s

/-- No Stitch operation of the job's tiles is incomplete (R151). -/
def jobQuiet (j : Nat) (s : State) : Bool := (tilesOf j s).all (fun t => (tileOps t s).isEmpty)

/-- The job number of a JOB_STOP request. -/
def stopsJob (j : Nat) (r : Req) : Bool := rf r 2 0 4 = j

/-- The stops that have waited only for operations end: Stopped, event 0x3013, and JOB_STOP answers
(R145, R151, R154). -/
def settleStops (s : State) : State :=
  forAll jobNos (fun j s => match (jobOf s j).stopping with
    | none => s
    | some n =>
      if jobQuiet j s then
        let s := modJob j (fun x => { x with stopping := none }) s
        let s := if (jobOf s j).status = .running then
            reevaluate 0x3013 (raise 0x3013 1 [word j, (jobOf s j).tag, word n] (changeStatus j .stopped s))
          else s
        finish 0x0204 (stopsJob j) .ok [] s
      else s) s

/-- A job becomes Faulted with a recorded fault (R143, R148, R154), at once: R143 names no wait for the Stitch operations
that have sent packets, as R151 does for Stopped (log 40). -/
def faultJob (j : Nat) (f : JobFault) (s : State) : State :=
  let s := stopRoles j s
  let s := modJob j (fun x => { x with fault := some f }) s
  let s := changeStatus j .faulted s
  let s := raise 0x3012 2
    [word j, (jobOf s j).tag, word f.role, word f.tile, word f.step, word f.code] s
  settleStops (reevaluate 0x3012 s)

/-- The role of a tile faults at a step (R141, R143). -/
def roleFault (t code step : Nat) (s : State) : State :=
  match (tileOf s t).job with
  | some j =>
    if (jobOf s j).status = .running && (tileOf s t).run = .running then
      faultJob j { code := code, tile := t, step := step, role := roleOf t s } s
    else s
  | none => s

/-- A job becomes Done when its last local role has ended (R147, R154). -/
def jobDone (j : Nat) (s : State) : State :=
  if (jobOf s j).status = .running && (runningTiles j s).isEmpty && (jobOf s j).stopping.isNone then
    let s := changeStatus j .done s
    reevaluate 0x3011 (raise 0x3011 1 [word j, (jobOf s j).tag, word (jobOf s j).exitCode] s)
  else s

/-- A run of a job ends: its Stitch operations that are still incomplete keep whether their tile has raised 0x4083 in it
(R198). -/
def endRun (j : Nat) (s : State) : State :=
  let mine := fun (x : SEntry) => incomplete x && x.desc.source = 0 && x.desc.job = j && x.past.isNone
  { s with stitch.table := s.stitch.table.map (fun p =>
      (p.1, if mine p.2 then { p.2 with past := some (bit (tileOf s p.2.desc.tile).told 4) } else p.2)) }

/-- An event that a tile raises once per run: bit `b` of `told` (R104, R137, R198). -/
def tellOnce (t b : Nat) (f : State → State) (s : State) : State :=
  if bit (tileOf s t).told b then s
  else f (modTile t (fun x => { x with told := x.told ||| BitVec.ofNat 5 (2 ^ b) }) s)

end Sys2Proof.Machine
end

