-- ==== Sys2Proof/Machine/Steps.lean ====
section
/-! DEFINITION. The fields of a Pattern step, advances, ranges of tile SRAM and what a step reads and
writes there (R73, R114 to R117, R122, R123, R141). -/

namespace Sys2Proof.Machine

/-- Word `n` of a step, 0 to 7 (R122). -/
def stepWord (st : BitVec 256) (n : Nat) : Word := st.extractLsb' (32 * n) 32

/-- A field of word `n` of a step. -/
def sf (st : BitVec 256) (n lo len : Nat) : Nat := field (stepWord st n) lo len

/-- A bit of word `n` of a step. -/
def sb (st : BitVec 256) (n i : Nat) : Bool := bit (stepWord st n) i

/-- The kind of a step (R122). -/
def kindOf (st : BitVec 256) : Nat := sf st 0 0 4

/-- What the advances add to a field that mask bit `k` selects, in strides' units (R123). -/
def nextStep (x : Tile) (st : BitVec 256) (k : Nat) : Int :=
  let one := fun (mask level lo : Nat) =>
    if sb st 0 mask then ((tget 0 x.loops (sf st 0 level 2) : Nat) : Int) * signed 16 (sf st 1 lo 16) else 0
  one (16 + k) 12 0 + one (21 + k) 14 16

/-- A line field after advances, as a byte offset (R123). -/
def lineOff (x : Tile) (st : BitVec 256) (n k : Nat) : Int := 64 * ((sf st n 0 17 : Int) + nextStep x st k)

/-- A footprint lies within tile SRAM (R141). -/
def inSram (off : Int) (n : Nat) : Bool := 0 ≤ off && off + n ≤ sramSize

/-- Rows: `count` ranges of `len` bytes, `pitch` bytes apart. -/
def rows (off pitch count len : Nat) : List (Nat × Nat) :=
  (List.range count).map (fun i => (off + i * pitch, len))

/-- A byte lies in one of some ranges. -/
def inRanges (l : List (Nat × Nat)) (i : Nat) : Bool := l.any (fun r => r.1 ≤ i && i < r.1 + r.2)

/-- Bytes of tile SRAM from local_off that an operation reads or writes (R159). -/
def footprint (op len : Nat) : Nat :=
  if op = 5 then 0 else if op = 0x34 || op = 0x35 then 8 + len else len

/-- The tile SRAM range that an operation reads or writes at its initiator, if a tile started it (R117). -/
def localRange (d : Desc) : Option (Nat × Nat) :=
  if d.source = 0 && d.op ≠ 5 then some (d.localOff, footprint d.op d.len) else none

/-- The ranges whose bytes a step that reads them finds undefined: what earlier detached steps write, and
what incomplete Stitch operations of the tile read or write (R117). -/
def hazards (t : Nat) (s : State) : List (Nat × Nat) :=
  let x := tileOf s t
  (match x.matrixOp with | some o => o.outs | none => [])
    ++ (match x.vectorOp with | some o => o.outs | none => [])
    ++ (tileOps t s).filterMap (fun p => localRange p.2.desc)

/-- The bytes of a range as a step reads them: free where R117 leaves them undefined. -/
def stepBytes (t off n : Nat) (s : State) : List Byte :=
  let hz := hazards t s
  (sramBytes t off n s).mapIdx (fun i b => if inRanges hz (off + i) then Config.freeByte s.fresh (off + i) else b)

/-- The bits of a range as a step reads them, as a number. -/
def stepBits (t off n : Nat) (s : State) : Nat := leNat (stepBytes t off n s)

/-- Words that a step reads: corrections and events (R202, R204). -/
def stepTouch (t : Nat) (l : List (Nat × Nat)) (s : State) : State :=
  useFresh 1 (forAll l (fun r => sramTouch t readerStep r.1 r.2) s)

/-- Write a step's output; bytes that lie in an input range are undefined (R73). -/
def stepWrite (t off : Nat) (ins : List (Nat × Nat)) (bs : List Byte) (s : State) : State :=
  sramWrite t off (bs.mapIdx (fun i b => if inRanges ins (off + i) then Config.freeByte s.fresh (off + i) else b)) s

/-- The step that a running tile is to issue, when nothing holds it and it is of a kind (R114). -/
def toIssue (kind t : Nat) (s : State) : Option (BitVec 256) :=
  let x := tileOf s t
  if x.run = .running && x.hold = .none then
    match x.prog[x.pc]? with
    | some st => if kindOf st = kind then some st else none
    | none => none
  else none

/-- A running tile has run past its last step (RUN_OFF of R141). -/
def ranOff (t : Nat) (s : State) : Bool :=
  let x := tileOf s t
  x.run = .running && x.hold = .none && x.prog.length ≤ x.pc

/-- Issue a step of a kind: what the step does, the fault of a tile that ran off its Pattern, or nothing
when no such step is due (R114, R141). -/
def issue (kind t : Nat) (f : BitVec 256 → State → State) (s : State) : State :=
  match toIssue kind t s with
  | some st => f st s
  | none => if ranOff t s then roleFault t 0x0B ((tileOf s t).prog.length - 1) s else s

/-- The sequencer goes on to the next step. -/
def goOn (t : Nat) (s : State) : State := modTile t (fun x => { x with pc := x.pc + 1, hold := .none }) s

/-- A fault of the step that the tile issues. -/
def stepFault (t code : Nat) (s : State) : State := roleFault t code (tileOf s t).pc s

/-- A MATRIX or VECTOR step finishes: its unit is free, its done tally rises, and a sequencer that it held
goes on (R115, R116, R118). -/
def unitDone (t : Nat) (o : UnitOp) (s : State) : State :=
  let s := match o.done with
    | some n => bumpTally t n s
    | none => s
  if o.detach then s else goOn t s

/-! What the arithmetic of a step leaves behind (R102 to R104). -/

/-- The LFSR and the flags while a step runs. -/
structure Arith where
  lfsr : Word
  nan : Bool := false
  ovf : Bool := false
  ternInv : Option Nat := none

/-- Take the flags of a step into the tile and raise each flag's event once per run (R103, R104). -/
def keepArithAt (t step : Nat) (a : Arith) (s : State) : State :=
  let x := tileOf s t
  let j := x.job.getD 0
  let items := [word j, word t, word step]
  let s := modTile t (fun x => { x with lfsr := a.lfsr, nan := x.nan || a.nan, ovf := x.ovf || a.ovf,
                                        ternInv := x.ternInv || a.ternInv.isSome }) s
  let s := if a.nan && !x.nan then tellOnce t 0 (raise 0x3001 1 items) s else s
  let s := if a.ovf && !x.ovf then tellOnce t 1 (raise 0x3002 1 items) s else s
  match a.ternInv with
  | some off => if x.ternInv then s else tellOnce t 2 (raise 0x3003 2 (items ++ [word off])) s
  | none => s

/-- The flags of the step that the tile issues. -/
def keepArith (t : Nat) (a : Arith) (s : State) : State := keepArithAt t (tileOf s t).pc a s

/-! A step that still runs when a Stitch operation takes its input (R117). -/

/-- A range meets one of some ranges. -/
def rangesMeet (l : List (Nat × Nat)) (r : Nat × Nat) : Bool := l.any (fun q => q.1 < r.1 + r.2 && r.1 < q.1 + q.2)

/-- A running step has read undefined data: its output bytes, the accumulator entries or register words that it writes and
its flags are free values (R117; log 10). -/
def spoilOp (matrix : Bool) (t : Nat) (o : UnitOp) (s : State) : State :=
  let s := freeRanges t o.outs s
  let n := s.fresh
  let count := o.words.2
  let free := fun (g : Tbl Word) => (List.range count).foldl (fun g i =>
    tset 0 g (o.words.1 + i) (word (Config.freeNat (n + i)))) g
  let flag := fun (k : Nat) => decide (Config.freeNat (n + count + k) % 2 = 1)
  let s := modTile t (fun x => if matrix then { x with acc := free x.acc } else { x with vregs := free x.vregs }) s
  keepArithAt t o.step { lfsr := (tileOf s t).lfsr, nan := flag 0, ovf := flag 1,
                         ternInv := if o.tern && flag 2 then some (Config.freeNat (n + count + 3)) else none }
    (useFresh (count + 4) s)

/-- A Stitch operation of a tile that is not complete reads or fills a range: the steps that still run on it have read
undefined data (R117). -/
def spoilUnits (t : Nat) (d : Desc) (s : State) : State :=
  match localRange d with
  | none => s
  | some r =>
    let one := fun (matrix : Bool) (o : Option UnitOp) (s : State) => match o with
      | some o => if rangesMeet o.ins r then spoilOp matrix t o s else s
      | none => s
    one false (tileOf s t).vectorOp (one true (tileOf s t).matrixOp s)

/-- Convert one element to a format code of 0 to 10, drawing when it rounds stochastically (R99 to R102). -/
def convElem (fmt : Nat) (stoch : Bool) (v : Val) (a : Arith) : Nat × Arith :=
  let d := draw16 a.lfsr
  let use := stoch && 3 ≤ fmt && fmt ≤ 10
  let r : Rnd := if use then .stoch d.1 else .even
  let c := if fmt = 8 then convI 8 r v else if fmt = 9 then convI 4 r v
    else if fmt = 10 then convLog r (rne v) else convF (fmtOf fmt) r v
  (c.bits, { a with lfsr := if use then d.2 else a.lfsr, nan := a.nan || c.nan, ovf := a.ovf || c.ovf })

/-- Convert a list of elements in turn. -/
def convElems (fmt : Nat) (stoch : Bool) : List Val → Arith → List Nat × Arith
  | [], a => ([], a)
  | v :: vs, a =>
    let c := convElem fmt stoch v a
    let r := convElems fmt stoch vs c.2
    (c.1 :: r.1, r.2)

/-- Elements of `w` bits packed as a bit string, element 0 lowest, as bytes; unused bits are zero (R82). -/
def packBits (w : Nat) (l : List Nat) : List Byte :=
  leBytes (l.foldr (fun x acc => x % 2 ^ w + 2 ^ w * acc) 0) ((l.length * w + 7) / 8)

end Sys2Proof.Machine
end

