-- ==== Sys2Proof/Machine/Matrix.lean ====
section
/-! DEFINITION. The matrix array and the MATRIX step (R74 to R99, R115, R116, R124 to R127). -/

namespace Sys2Proof.Machine

/-! Operand pairs (R75, R90, R94). -/

/-- FP8 by its code. -/
def isFp8 (f : Nat) : Bool := f = 3 || f = 4

/-- FP6 by its code. -/
def isFp6 (f : Nat) : Bool := f = 5 || f = 6

/-- K_block of an operand pair and scaling mode that R75 lists; 0 for one that it does not list. -/
def kBlock (wf af mode : Nat) : Nat :=
  if wf = 11 then (if mode = 0 && (isFp8 af || af = 8) then 512 else 0)
  else if wf = 9 then (if mode ≠ 0 then 0 else if af = 8 then 128 else if af = 9 then 256 else 0)
  else if wf = 10 then (if mode = 0 && af = 10 then 256 else 0)
  else if wf ≤ 2 then (if mode = 0 && af = wf then 128 else 0)
  else if 3 ≤ mode then 0
  else if wf = 8 then (if af = 8 then 128 else 0)
  else if isFp8 af && wf ≤ 7 then 128
  else if isFp6 wf && isFp6 af then 256
  else if wf = 7 && af = 7 then 256
  else 0

/-- Elements of a block of a scaling mode (R90). -/
def blockSize (mode : Nat) : Nat := if mode = 1 then 32 else 16

/-- Group size in k (R94). -/
def groupSize (wf mode : Nat) : Nat := if wf = 11 then 128 else if wf ≤ 2 then 1 else if mode = 1 then 32 else 16

/-- The accumulator holds INT32 (R79). -/
def isIntPair (wf af mode : Nat) : Bool := mode = 0 && (wf = 8 || wf = 9) && (af = 8 || af = 9)

/-- Bytes of a row of K elements (R82, R88, R125). -/
def rowBytes (fmt K : Nat) : Nat := if fmt = 11 then K / 128 * 32 else (K * widthOf fmt + 7) / 8

/-- The fields of a MATRIX step (R124). -/
structure MatStep where
  af : Nat
  wf : Nat
  outFmt : Nat
  mode : Nat
  K : Nat
  M : Nat
  aPitch : Nat
  wPitch : Nat
  oPitch : Nat
  sPitch : Nat
  stoch : Bool
  clear : Bool
  emit : Bool
  param : Nat

/-- Read the fields (R124); pitches and lines in bytes. -/
def matStep (st : BitVec 256) : MatStep where
  af := sf st 2 28 4
  wf := sf st 3 28 4
  outFmt := sf st 4 28 4
  mode := sf st 5 25 2
  K := sf st 6 17 14 + 1
  M := sf st 7 17 8 + 1
  aPitch := 64 * sf st 2 17 11
  wPitch := 64 * sf st 3 17 11
  oPitch := 64 * sf st 4 17 11
  sPitch := 64 * sf st 5 17 8
  stoch := sb st 5 27
  clear := sb st 5 28
  emit := sb st 5 29
  param := 64 * sf st 7 0 17

/-- Blocks of a row (R90). -/
def MatStep.blocks (m : MatStep) : Nat := m.K / blockSize m.mode

/-- The row bits of the elements alone (R82). -/
def elemBits (fmt K x : Nat) : Nat := if fmt = 11 then x else x % 2 ^ (K * widthOf fmt)

/-- Element `k` of a row's bits. -/
def elemCode (fmt x k : Nat) : Nat := x / 2 ^ (k * widthOf fmt) % 2 ^ widthOf fmt

/-- Byte `i` of a number. -/
def byteAt (x i : Nat) : Nat := x / 256 ^ i % 256

/-- The trit of element `k` of a TERN row: records of 32 bytes (R87, R88). -/
def tritAt (x k : Nat) : Int := nth 0 (trits (byteAt x (k / 128 * 32 + k % 128 / 5))) (k % 128 % 5)

/-- The row scale of a TERN record (R88). -/
def ternScale (x r : Nat) : Val := decodeF (fmtOf 2) (byteAt x (32 * r + 26) + 256 * byteAt x (32 * r + 27))

/-- The value of a block scale (R90). -/
def blockScale (mode x b : Nat) : Val :=
  if mode = 1 then decodeE8 (byteAt x b) else decodeF (fmtOf 3) (byteAt x b)

/-- The exact product of elements `k` of an activation and a weight row (R83, R86, R94). -/
def elemProduct (m : MatStep) (a w k : Nat) : Val :=
  if m.wf = 11 then
    match tritAt w k with
    | 0 => .dy false 0 0
    | t => let v := decodeElem m.af (elemCode m.af a k); if t < 0 then v.neg else v
  else if m.wf = 10 then logMul (elemCode 10 a k) (elemCode 10 w k)
  else vmul (decodeElem m.af (elemCode m.af a k)) (decodeElem m.wf (elemCode m.wf w k))

/-- The group value from element `k0` on (R94); beyond K the operands are zero (R77). -/
def groupValue (m : MatStep) (a w sa sw k0 : Nat) : Val :=
  if m.K ≤ k0 then .dy false 0 0
  else
    let g := groupSize m.wf m.mode
    let sum := vsum ((List.range g).map (fun i => elemProduct m a w (k0 + i)))
    if m.wf = 11 then vmul sum (ternScale w (k0 / 128))
    else if m.mode = 0 then sum
    else
      let b := k0 / g
      let v := vmul sum (vmul (blockScale m.mode sa b) (blockScale m.mode sw b))
      if m.mode = 1 && m.wf = 8 then vmul v (.dy false 1 (-12)) else v

/-- One addition of the FP32 chain (R94, R96). -/
def chainAdd (v : Val) (p : Word × Arith) : Word × Arith :=
  let c := convF fp32 .even (vadd (valW p.1) v)
  (word c.bits, { p.2 with nan := p.2.nan || c.nan, ovf := p.2.ovf || c.ovf })

/-- One addition of an INT32 chain, saturating (R97). -/
def chainAddInt (v : Int) (p : Word × Arith) : Word × Arith :=
  let x := signed 32 p.1.toNat + v
  if 2 ^ 31 ≤ x then (0x7FFFFFFF, { p.2 with ovf := true })
  else if x < -(2 ^ 31) then (0x80000000, { p.2 with ovf := true })
  else (sword x, p.2)

/-- The exact integer sum of a group of an unscaled integer pair (R94). -/
def groupInt (m : MatStep) (a w k0 : Nat) : Int :=
  ((List.range 16).map (fun i =>
    signed (widthOf m.af) (elemCode m.af a (k0 + i)) * signed (widthOf m.wf) (elemCode m.wf w (k0 + i)))).sum

/-- The chain of one accumulator entry over all passes of a step (R74, R77, R94 to R97). An entry that a step of the other
type left is taken as the 32 bits that it is, which R79 leaves open (log 36). -/
def chain (m : MatStep) (a w sa sw : Nat) (p : Word × Arith) : Word × Arith :=
  let kb := kBlock m.wf m.af m.mode
  let g := groupSize m.wf m.mode
  (List.range ((m.K + kb - 1) / kb * kb / g)).foldl (fun p i =>
    if isIntPair m.wf m.af m.mode then chainAddInt (groupInt m a w (i * g)) p
    else chainAdd (groupValue m a w sa sw (i * g)) p) p

/-- The effective multiplier (R98). An infinity formed here sets no ovf flag, which R98 and R103 leave open (log 36). -/
def effMult (fine : Bool) (mult sa sw : Word) : Val :=
  let one : Val := .dy false 1 0
  rneV (vmul (rneV (vmul (if fine then valW sa else one) (if fine then valW sw else one))) (valW mult))

/-- The code of one output (R98, R99). -/
def outCode (m : MatStep) (mult : Val) (acc : Word) (a : Arith) : Nat × Arith :=
  if m.outFmt = 15 then (acc.toNat, a)
  else
    let x := if isIntPair m.wf m.af m.mode then rneV (.ofInt (signed 32 acc.toNat)) else valW acc
    let c := convF fp32 .even (vmul x mult)
    convElem m.outFmt m.stoch (decodeF fp32 c.bits)
      { a with nan := a.nan || c.nan, ovf := a.ovf || c.ovf }

/-- The codes of one output row. -/
def outRow (m : MatStep) (mult : Val) : List Word → Arith → List Nat × Arith
  | [], a => ([], a)
  | x :: xs, a =>
    let c := outCode m mult x a
    let r := outRow m mult xs c.2
    (c.1 :: r.1, r.2)

/-- A per-tensor scale that R93 allows: positive and normal. -/
def scaleOk (w : Word) : Bool := !bit w 31 && 1 ≤ field w 23 8 && field w 23 8 ≤ 254

/-- The first invalid TERN byte of the weight rows, as a tile SRAM offset (R87). Which of several is 'the first' the rule
leaves open: row by row from the lowest offset, a choice (R104; log 38). -/
def firstInvalid (m : MatStep) (w : Nat) (rowsBits : List Nat) : Option Nat :=
  (rowsBits.zipIdx).findSome? (fun r =>
    ((List.range (m.K / 128)).flatMap (fun q => (List.range 26).map (fun b => 32 * q + b))).findSome?
      (fun b => if 243 ≤ byteAt r.1 b then some (w + r.2 * m.wPitch + b) else none))

/-- What a MATRIX step reads and writes: offsets of activations, weights, their scales and outputs. -/
structure MatPlaces where
  a : Int
  w : Int
  sa : Int
  sw : Int
  o : Int

/-- The places of a step after its advances (R123, R124). -/
def matPlaces (x : Tile) (st : BitVec 256) : MatPlaces :=
  ⟨lineOff x st 2 0, lineOff x st 3 1, lineOff x st 5 2, lineOff x st 6 3, lineOff x st 4 4⟩

/-- Bytes of the footprint of `count` rows. -/
def rowsSpan (pitch count len : Nat) : Nat := (count - 1) * pitch + len

/-- Every footprint of a step lies within tile SRAM (R141). -/
def matInRange (m : MatStep) (p : MatPlaces) : Bool :=
  inSram p.a (rowsSpan m.aPitch m.M (rowBytes m.af m.K))
    && inSram p.w (rowsSpan m.wPitch 128 (rowBytes m.wf m.K))
    && (m.mode = 0 || (inSram p.sa (rowsSpan m.sPitch m.M m.blocks) && inSram p.sw (rowsSpan m.sPitch 128 m.blocks)))
    && (!m.emit || inSram p.o (rowsSpan m.oPitch m.M (16 * widthOf m.outFmt)))
    && inSram m.param 64

/-- The ranges that a step reads. -/
def matIns (m : MatStep) (p : MatPlaces) : List (Nat × Nat) :=
  rows p.a.toNat m.aPitch m.M (rowBytes m.af m.K) ++ rows p.w.toNat m.wPitch 128 (rowBytes m.wf m.K)
    ++ (if m.mode = 0 then [] else rows p.sa.toNat m.sPitch m.M m.blocks ++ rows p.sw.toNat m.sPitch 128 m.blocks)
    ++ [(m.param, 64)]

/-- The ranges that a step writes. -/
def matOuts (m : MatStep) (p : MatPlaces) : List (Nat × Nat) :=
  if m.emit then rows p.o.toNat m.oPitch m.M (16 * widthOf m.outFmt) else []

/-- The accumulator entries of a step: 128 per activation vector (R74, R79). -/
def matEntries (m : MatStep) (x : Tile) (acts wts sas sws : List Nat) (a : Arith) : List (Nat × Word) × Arith :=
  (List.range (128 * m.M)).foldl (fun p i =>
    let r := chain m (nth 0 acts (i / 128)) (nth 0 wts (i % 128)) (nth 0 sas (i / 128)) (nth 0 sws (i % 128))
      (if m.clear then 0 else tget 0 x.acc i, p.2)
    (p.1 ++ [(i, r.1)], r.2)) ([], a)

/-- A MATRIX step runs (R74 to R99, R126): accumulator, outputs and flags. -/
def matRun (t : Nat) (m : MatStep) (p : MatPlaces) (s : State) : State :=
  let x := tileOf s t
  let bits := fun (l : List (Nat × Nat)) => l.map (fun r => stepBits t r.1 r.2 s)
  let acts := (bits (rows p.a.toNat m.aPitch m.M (rowBytes m.af m.K))).map (elemBits m.af m.K)
  let wts := (bits (rows p.w.toNat m.wPitch 128 (rowBytes m.wf m.K))).map (elemBits m.wf m.K)
  let sas := if m.mode = 0 then [] else bits (rows p.sa.toNat m.sPitch m.M m.blocks)
  let sws := if m.mode = 0 then [] else bits (rows p.sw.toNat m.sPitch 128 m.blocks)
  let param := bytesWords (stepBytes t m.param 64 s)
  let a0 : Arith := { lfsr := x.lfsr
                      ternInv := if m.wf = 11 then firstInvalid m p.w.toNat wts else none }
  let e := matEntries m x acts wts sas sws a0
  let mult := effMult (m.mode = 2) (nth 0 param 0) (nth 0 param 1) (nth 0 param 2)
  let ins := matIns m p
  let s := stepTouch t ins s
  let s := modTile t (fun x => { x with acc := e.1.foldl (fun c q => tset 0 c q.1 q.2) x.acc }) s
  if m.emit then
    let r := (List.range m.M).foldl (fun (q : State × Arith) i =>
      let o := outRow m mult ((List.range 128).map (fun n => (nth (0, 0) e.1 (128 * i + n)).2)) q.2
      (stepWrite t (p.o.toNat + i * m.oPitch) ins (packBits (widthOf m.outFmt) o.1) q.1, o.2)) (s, e.2)
    keepArith t r.2 r.1
  else keepArith t e.2 s

/-- The UnitOp that a step leaves in its unit (R115, R122). -/
def unitOp (x : Tile) (st : BitVec 256) (ins outs : List (Nat × Nat)) (words : Nat × Nat) (tern : Bool) : UnitOp :=
  { step := x.pc, outs := outs, ins := ins, words := words, tern := tern, detach := sb st 0 4, done := if sb st 0 5 then some (sf st 0 6 6) else none }

/-- A MATRIX step issues when the matrix unit is free: it faults, or runs and occupies the unit (R115,
R116, R141). -/
def matIssue (t : Nat) (flaws : List Flaw) (st : BitVec 256) (s : State) : State :=
  let x := tileOf s t
  if x.matrixOp.isSome then s
  else
    let s := inject flaws s
    let m := matStep st
    let p := matPlaces x st
    let param := bytesWords (stepBytes t m.param 64 s)
    if !matInRange m p then stepFault t 0x06 s
    else if m.mode = 2 && !(scaleOk (nth 0 param 1) && scaleOk (nth 0 param 2)) then
      stepFault t 0x07 (stepTouch t [(m.param, 64)] s)
    else
      let s := matRun t m p s
      let o := unitOp x st (matIns m p) (matOuts m p) (0, 128 * m.M) (m.wf = 11)
      modTile t (fun x => { x with matrixOp := some o, pc := if o.detach then x.pc + 1 else x.pc
                                   hold := if o.detach then .none else .matrix }) s

/-- MATRIX, R124. -/
def execMatrix (t : Fin 64) (flaws : List Flaw) (s : State) : Host.Outcome State Fault Refusal :=
  fed (issue 1 t (matIssue t flaws)) s

/-- MATRIX_COMPLETE, R115. -/
def execMatrixComplete (t : Fin 64) (s : State) : Host.Outcome State Fault Refusal :=
  fed (fun s => match (tileOf s t).matrixOp with
    | some o => unitDone t o (modTile t (fun x => { x with matrixOp := none }) s)
    | none => s) s

end Sys2Proof.Machine
end

