-- ==== Sys2Proof/Machine/Vector.lean ====
section
/-! DEFINITION. The vector unit and the VECTOR step (R105 to R112, R115, R116, R127 to R130). -/

namespace Sys2Proof.Machine

/-! The fields of a VECTOR step (R128). -/

/-- One operand: format, selector and field word. -/
structure VecOperand where
  fmt : Nat
  sel : Nat
  off : Int

/-- A VECTOR step. -/
structure VecStep where
  op : Nat
  n : Nat
  mode : Nat
  stoch : Bool
  a : VecOperand
  b : VecOperand
  c : VecOperand
  out : VecOperand
  param : Nat

/-- An operand field, in lines after advances (R123). -/
def vecOperand (x : Tile) (st : BitVec 256) (n k : Nat) : VecOperand :=
  ⟨sf st n 17 4, sf st n 21 2, (sf st n 0 17 : Int) + nextStep x st k⟩

/-- Read the fields (R128). -/
def vecStep (x : Tile) (st : BitVec 256) : VecStep where
  op := sf st 2 0 6
  n := sf st 2 6 16 + 1
  mode := sf st 2 22 2
  stoch := sb st 2 24
  a := vecOperand x st 3 0
  b := vecOperand x st 4 1
  c := vecOperand x st 5 2
  out := vecOperand x st 6 3
  param := 64 * sf st 7 0 17

/-- Operands of an operation (R107, R129). -/
def vecArity (op : Nat) : Nat :=
  if op = 0x03 || op = 0x0B then 3
  else if op ≤ 0x05 || (0x08 ≤ op && op ≤ 0x0A) || op = 0x0D || (0x1E ≤ op && op ≤ 0x25) then 2 else 1

/-- Operations on raw words: their operands have format code 0 (R130). -/
def vecRaw (op : Nat) : Bool := (0x08 ≤ op && op ≤ 0x0B) || (0x1E ≤ op && op ≤ 0x25)

/-- RSUM, RMAX and RMIN (R109). -/
def vecReduces (op : Nat) : Bool := 0x1B ≤ op && op ≤ 0x1D

/-- QUANT_MX, QUANT_FINE and QUANT_TERN. -/
def vecQuant (op : Nat) : Bool := 0x27 ≤ op && op ≤ 0x29

/-- QUANT_MX and QUANT_FINE: scale_mode gives the mode of the output, not of an operand (R130). -/
def vecScalesOut (op : Nat) : Bool := op = 0x27 || op = 0x28

/-- Elements that a step writes (R130). -/
def VecStep.outs (v : VecStep) : Nat := if vecReduces v.op then 1 else v.n

/-- The operands that an operation uses. -/
def VecStep.operands (v : VecStep) : List VecOperand := [v.a, v.b, v.c].take (vecArity v.op)

/-- An operand from tile SRAM whose format allows block scaling (R80). -/
def VecOperand.scalable (o : VecOperand) : Bool := o.sel = 0 && 3 ≤ o.fmt && o.fmt ≤ 8

/-- An operand is the one that scale_mode scales: the only one that can be (R130; log 38). -/
def VecStep.scales (v : VecStep) (o : VecOperand) : Bool := v.mode ≠ 0 && !vecScalesOut v.op && o.scalable

/-- The step reads its parameter block (R127). -/
def VecStep.readsParam (v : VecStep) : Bool := v.mode ≠ 0 || v.op = 0x29 || v.operands.any (fun o => o.sel = 2)

/-- Bytes of `n` elements (R82, R88). -/
def vecBytes (fmt n : Nat) : Nat := if fmt = 11 then (n + 127) / 128 * 32 else (n * widthOf fmt + 7) / 8

/-- The tile SRAM footprint of an operand. -/
def VecOperand.span (o : VecOperand) (n : Nat) : Option (Int × Nat) :=
  if o.sel = 0 then some (64 * o.off, vecBytes o.fmt n) else none

/-- The block scales of a step: offset and bytes (R127, R130). -/
def VecStep.scaleSpan (v : VecStep) (param : List Word) : Option (Int × Nat) :=
  if v.mode = 0 then none
  else some (64 * (field (nth 0 param 2) 0 17 : Nat), (v.n + blockSize v.mode - 1) / blockSize v.mode)

/-- The ranges that a step reads, and those that it writes. -/
def VecStep.insSpans (v : VecStep) (param : List Word) : List (Int × Nat) :=
  v.operands.filterMap (fun o => o.span v.n)
    ++ (if vecScalesOut v.op then [] else (v.scaleSpan param).toList)
    ++ (if v.readsParam then [((v.param : Int), 64)] else [])

def VecStep.outSpans (v : VecStep) (param : List Word) : List (Int × Nat) :=
  (v.out.span v.outs).toList ++ (if vecScalesOut v.op then (v.scaleSpan param).toList else [])

/-- A span as a range. -/
def spanRange (p : Int × Nat) : Nat × Nat := (p.1.toNat, p.2)

/-! Loads (R106). -/

/-- The FP32 words of an operand (R106). A scaled element beyond the range of FP32 becomes an infinity and sets no ovf
flag, since a load is no conversion of R103 (log 36). -/
def vecLoad (t : Nat) (v : VecStep) (param : List Word) (o : VecOperand) (s : State) : List Word :=
  match o.sel with
  | 0 =>
    let x := stepBits t (64 * o.off).toNat (vecBytes o.fmt v.n) s
    let sc := match v.scaleSpan param with
      | some p => stepBits t p.1.toNat p.2 s
      | none => 0
    (List.range v.n).map (fun i =>
      if o.fmt = 0 then word (elemCode 0 x i)
      else if o.fmt = 11 then rne (vmul (.ofInt (tritAt x i)) (ternScale x (i / 128)))
      else
        let e := decodeElem o.fmt (elemCode o.fmt x i)
        if v.scales o then
          let e := if v.mode = 1 && o.fmt = 8 then vmul e (.dy false 1 (-6)) else e
          let e := vmul e (blockScale v.mode sc (i / blockSize v.mode))
          rne (if v.mode = 2 then vmul e (valW (nth 0 param 0)) else e)
        else rne e)
  | 1 => (List.range v.n).map (fun i =>
      tget 0 (tileOf s t).vregs (256 * (o.off % 32).toNat + i % 256))
  | 2 => List.replicate v.n (nth 0 param (o.off % 16).toNat)
  | _ => List.replicate v.n 0

/-- The operand is TERN data in tile SRAM. -/
def VecOperand.tern (o : VecOperand) : Bool := o.sel = 0 && o.fmt = 11

/-- The first invalid TERN byte of an operand. All 26 code bytes of each record that the load reads count as decoded,
those of the last record that hold only elements at or past n too: a choice (R103; log 38). -/
def vecInvalid (t n : Nat) (o : VecOperand) (s : State) : Option Nat :=
  if o.tern then
    let x := stepBits t (64 * o.off).toNat (vecBytes 11 n) s
    (List.range (vecBytes 11 n)).findSome? (fun b =>
      if b % 32 < 26 && 243 ≤ byteAt x b then some ((64 * o.off).toNat + b) else none)
  else none

/-! Operations on words (R107, R108, R130). -/

/-- The number by which two FP32 words that are no NaN compare. -/
def cmpKey (w : Word) : Int := sgn (bit w 31) (w.toNat % 2 ^ 31)

/-- True and false as a compare writes them (R130). -/
def maskWord (b : Bool) : Word := if b then 0xFFFFFFFF else 0

/-- A compare; with a NaN it is false (R108). -/
def compareW (p : Int → Int → Bool) (a b : Word) : Word :=
  maskWord (!isNanW a && !isNanW b && p (cmpKey a) (cmpKey b))

/-- The sum of two words, correctly rounded. -/
def addW (a b : Word) : Word := rne (vadd (valW a) (valW b))

/-- The result of an elementwise operation. Infinite operands of ADD, SUB, MUL and FMA, for which R107 and R108 give no
row, give the IEEE 754 results: a choice (log 35). -/
def elementwise (op : Nat) (a b c : Word) : Word :=
  match op with
  | 0x00 => addW a b
  | 0x01 => rne (vadd (valW a) (valW b).neg)
  | 0x02 => rne (vmul (valW a) (valW b))
  | 0x03 => rne (vadd (vmul (valW a) (valW b)) (valW c))
  | 0x04 => minMax false a b
  | 0x05 => minMax true a b
  | 0x06 => if isNanW a then nanW else a &&& 0x7FFFFFFF
  | 0x07 => if isNanW a then nanW else a ^^^ 0x80000000
  | 0x08 => compareW (fun x y => x = y) a b
  | 0x09 => compareW (fun x y => x < y) a b
  | 0x0A => compareW (fun x y => x ≤ y) a b
  | 0x0B => if c ≠ 0 then a else b
  | 0x0D => divide a b
  | 0x1E => a + b
  | 0x1F => a - b
  | 0x20 => a * b
  | 0x21 => a <<< (b.toNat % 32)
  | 0x22 => a.sshiftRight (b.toNat % 32)
  | 0x23 => a &&& b
  | 0x24 => a ||| b
  | 0x25 => a ^^^ b
  | 0x26 => if isNanW a then nanW else a
  | _ => unary op a

/-- How a reduction combines two lanes. -/
def combine (op : Nat) (a b : Word) : Word :=
  if op = 0x1B then addW a b else minMax (op = 0x1C) a b

/-- One level of the tree: lanes 2 i and 2 i + 1; a lane without a neighbour goes on (R109; log 38). -/
def treeLevel (op : Nat) : List Word → List Word
  | a :: b :: l => combine op a b :: treeLevel op l
  | l => l

/-- Eight levels over at most 256 lanes. -/
def treeOf (op : Nat) : Nat → List Word → List Word
  | 0, l => l
  | n + 1, l => treeOf op n (treeLevel op l)

/-- A NaN as the canonical one (R99, R108). -/
def canonical (w : Word) : Word := if isNanW w then nanW else w

/-- A reduction over chunks of 256 elements (R109); that of one NaN is the canonical NaN (R108). -/
def reduce (op : Nat) (l : List Word) : Word :=
  let chunks := (List.range ((l.length + 255) / 256)).map (fun i =>
    nth 0 (treeOf op 8 ((l.drop (256 * i)).take 256)) 0)
  match chunks with
  | [] => 0
  | x :: xs => canonical (xs.foldl (combine op) x)

/-! Quantisation (R110 to R112). -/

/-- Largest finite magnitude of a list, as a word. -/
def amax (l : List Word) : Word :=
  l.foldl (fun m w =>
    let x := w &&& 0x7FFFFFFF
    if x.toNat < 0x7F800000 && m.toNat < x.toNat then x else m) 0

/-- e_max of a target of QUANT_MX (R110). -/
def eMax : Nat → Int
  | 3 => 8 | 4 => 15 | 5 => 4 | 6 => 2 | 7 => 2 | _ => 0

/-- floor(log2) of a positive finite word. -/
def floorLog2 (w : Word) : Int :=
  match valW w with
  | .fin _ n d e => log2Floor n d + e
  | _ => 0

/-- One block of QUANT_MX: scale code and element codes (R110). An infinity converts by the row of R99: to the infinity of
E5M2, to the largest value of a format that has none (log 38). -/
def quantMxBlock (fmt : Nat) (stoch : Bool) (l : List Word) (a : Arith) : Nat × List Nat × Arith :=
  let m := amax l
  if l.any isNanW then (0xFF, l.map (fun _ => 0), { a with nan := true })
  else if m = 0 then (0, l.map (fun _ => 0), a)
  else
    let e := max (-127) (min 127 (floorLog2 m - eMax fmt))
    let k : Int := if fmt = 8 then 6 - e else -e
    let r := convElems fmt stoch (l.map (fun w => vmul (valW w) (.dy false 1 k))) a
    ((e + 127).toNat, r.1, r.2)

/-- V_max of a target of QUANT_FINE (R111). -/
def vMax (fmt : Nat) : Val := if fmt = 8 then .ofInt 127 else decodeF (fmtOf fmt) (fmtOf fmt).maxBits

/-- The least E4M3 code at or above a positive value, if one is (R111). -/
def leastE4m3 (v : Val) : Option Nat :=
  (List.range 0x7F).find? (fun c => match v, decodeF (fmtOf 3) c with
    | .fin _ n d e, .fin _ m k g => magLe n d e m k g
    | _, _ => false)

/-- One block of QUANT_FINE: scale code and element codes (R111). -/
def quantFineBlock (fmt : Nat) (stoch : Bool) (S : Word) (l : List Word) (a : Arith) :
    Nat × List Nat × Arith :=
  let m := amax l
  let a := { a with nan := a.nan || l.any isNanW }
  if m = 0 then (0, l.map (fun _ => 0), a)
  else
    let c := leastE4m3 (vdiv (valW m) (vmul (vMax fmt) (valW S)))
    let s := c.getD 0x7E
    let a := { a with ovf := a.ovf || c.isNone }
    let d := vmul (decodeF (fmtOf 3) s) (valW S)
    let r := convElems fmt stoch (l.map (fun w => vdiv (valW w) d)) a
    (s, r.1, r.2)

/-- One record of QUANT_TERN (R112). A threshold below 0 or a NaN, for which R112 gives no outcome, goes through the same
compares and sets no flag of its own (log 38). -/
def quantTernRow (tau : Word) (l : List Word) (a : Arith) : List Byte × Arith :=
  let neg := tau ^^^ 0x80000000
  let ts : List Int := l.map (fun w =>
    if compareW (fun x y => x < y) tau w ≠ 0 then 1
    else if compareW (fun x y => x < y) w neg ≠ 0 then -1 else 0)
  let codes := (List.range 26).map (fun j => BitVec.ofNat 8 (tritCode ((List.range 5).map (fun i =>
    nth 0 ts (5 * j + i)))))
  let on := ((l.zip ts).filter (fun p => p.2 ≠ 0)).map (fun p => valW (p.1 &&& 0x7FFFFFFF))
  let c : Conv := if on.isEmpty then ⟨0, false, false⟩
    else convF (fmtOf 2) .even (vdiv (vsum on) (.ofInt on.length))
  (codes ++ leBytes c.bits 2 ++ leBytes 0 4,
    { a with nan := a.nan || c.nan || l.any isNanW, ovf := a.ovf || c.ovf })

/-- Consecutive pieces of a list. -/
def piecesOf {α : Type} (k : Nat) (l : List α) : List (List α) :=
  (List.range ((l.length + k - 1) / k)).map (fun i => (l.drop (k * i)).take k)

/-- Blocks quantised in turn: scale bytes and element codes. -/
def quantBlocks (f : List Word → Arith → Nat × List Nat × Arith) :
    List (List Word) → Arith → List Nat × List Nat × Arith
  | [], a => ([], [], a)
  | b :: bs, a =>
    let x := f b a
    let r := quantBlocks f bs x.2.2
    (x.1 :: r.1, x.2.1 ++ r.2.1, r.2.2)

/-- Records quantised in turn. -/
def quantRows (tau : Word) : List (List Word) → Arith → List Byte × Arith
  | [], a => ([], a)
  | b :: bs, a =>
    let x := quantTernRow tau b a
    let r := quantRows tau bs x.2
    (x.1 ++ r.1, r.2)

/-! The step. -/

/-- What an operation gives: element bytes, scale bytes, words for a register, and the arithmetic state. -/
structure VecResult where
  elems : List Byte
  scales : List Byte
  words : List Word
  arith : Arith

/-- The result of a step on its loaded operands. A NaN operand of CMPEQ, CMPLT or CMPLE sets the nan flag, one of SEL or
of an integer operation does not: a choice (R103, R130; log 38). -/
def vecResult (v : VecStep) (param : List Word) (a b c : List Word) (ar : Arith) : VecResult :=
  if v.op = 0x27 || v.op = 0x28 then
    let f := if v.op = 0x27 then quantMxBlock v.out.fmt v.stoch
      else quantFineBlock v.out.fmt v.stoch (nth 0 param 0)
    let r := quantBlocks f (piecesOf (blockSize v.mode) a) ar
    ⟨packBits (widthOf v.out.fmt) r.2.1, r.1.map (BitVec.ofNat 8), [], r.2.2⟩
  else if v.op = 0x29 then
    let r := quantRows (nth 0 param 1) (piecesOf 128 a) ar
    ⟨r.1, [], [], r.2⟩
  else
    let used := a ++ (if 2 ≤ vecArity v.op then b else []) ++ (if 3 ≤ vecArity v.op then c else [])
    let sees := !(0x1E ≤ v.op && v.op ≤ 0x25) && v.op ≠ 0x0B
    let ws := if vecReduces v.op then [reduce v.op a]
      else (a.zip (b.zip c)).map (fun p => elementwise v.op p.1 p.2.1 p.2.2)
    let ar := { ar with nan := ar.nan || (sees && (used.any isNanW || (!vecRaw v.op && ws.any isNanW))) }
    if v.out.sel = 1 || v.out.fmt = 0 then ⟨wordsBytes (if vecRaw v.op then ws else ws.map canonical), [], ws, ar⟩
    else
      let r := convElems v.out.fmt v.stoch (ws.map valW) ar
      ⟨packBits (widthOf v.out.fmt) r.1, [], ws, r.2⟩

/-- The words of the vector registers that a step writes: first and count. -/
def VecStep.outWords (v : VecStep) (r : VecResult) : Nat × Nat :=
  if v.out.sel = 1 then (256 * (v.out.off % 32).toNat, r.words.length) else (0, 0)

/-- Writes the results: bytes in place of an equal input range, else undefined where they overlap (R73). -/
def vecStore (t : Nat) (v : VecStep) (param : List Word) (r : VecResult) (s : State) : State :=
  if v.out.sel = 1 then
    modTile t (fun x => { x with vregs := (r.words.zipIdx).foldl (fun g p =>
      tset 0 g (256 * (v.out.off % 32).toNat + p.2) p.1) x.vregs }) s
  else
    let o := ((64 * v.out.off).toNat, r.elems.length)
    let ins := (v.insSpans param).map spanRange
    let ins := if vecReduces v.op || vecQuant v.op then ins else ins.filter (· ≠ o)
    let s := stepWrite t o.1 ins r.elems s
    match v.scaleSpan param with
    | some p => if vecScalesOut v.op then stepWrite t p.1.toNat ins r.scales s else s
    | none => s

/-- A VECTOR step issues when the vector unit is free: it faults, or runs and occupies the unit (R115,
R116, R128 to R130, R141). -/
def vecIssue (t : Nat) (flaws : List Flaw) (st : BitVec 256) (s : State) : State :=
  let x := tileOf s t
  if x.vectorOp.isSome then s
  else
    let s := inject flaws s
    let v := vecStep x st
    let param := if v.readsParam && inSram v.param 64 then bytesWords (stepBytes t v.param 64 s) else []
    let ins := v.insSpans param
    let outs := v.outSpans param
    if !(ins ++ outs).all (fun p => inSram p.1 p.2) then stepFault t 0x06 s
    else if v.mode = 2 && !scaleOk (nth 0 param 0) then stepFault t 0x07 (stepTouch t [(v.param, 64)] s)
    else
      let inv := v.operands.findSome? (fun o => vecInvalid t v.n o s)
      let r := vecResult v param (vecLoad t v param v.a s) (vecLoad t v param v.b s) (vecLoad t v param v.c s)
        { lfsr := x.lfsr, ternInv := inv }
      let s := keepArith t r.arith (vecStore t v param r (stepTouch t (ins.map spanRange) s))
      let o := unitOp x st (ins.map spanRange) (outs.map spanRange) (v.outWords r) (v.operands.any (·.tern))
      modTile t (fun x => { x with vectorOp := some o, pc := if o.detach then x.pc + 1 else x.pc
                                   hold := if o.detach then .none else .vector }) s

/-- VECTOR, R128. -/
def execVector (t : Fin 64) (flaws : List Flaw) (s : State) : Host.Outcome State Fault Refusal :=
  fed (issue 2 t (vecIssue t flaws)) s

/-- VECTOR_COMPLETE, R115. -/
def execVectorComplete (t : Fin 64) (s : State) : Host.Outcome State Fault Refusal :=
  fed (fun s => match (tileOf s t).vectorOp with
    | some o => unitDone t o (modTile t (fun x => { x with vectorOp := none }) s)
    | none => s) s

end Sys2Proof.Machine
end

