-- ==== Sys2Proof/Machine/LoadCheck.lean ====
section
/-! DEFINITION. The checks of a step at load: codes 0x01 to 0x05 of R141, by R142 (R122 to R140, R157,
R158). -/

namespace Sys2Proof.Machine

/-- The Stitch operations of R157 by code: what their length must be a multiple of, 0 where the length is
fixed, or none for a reserved code. -/
def stitchUnit (op : Nat) : Option Nat :=
  if op = 0x01 || op = 0x02 || op = 0x03 then some 4
  else if op = 0x05 || (0x30 ≤ op && op ≤ 0x35) then some 0
  else if op = 0x14 || (0x17 ≤ op && op ≤ 0x1B) then some 8
  else if 0x10 ≤ op && op ≤ 0x1D then some 4
  else none

/-- The length of an operation of one length (R157). -/
def stitchFixed (op : Nat) : Nat := if op = 0x31 || op = 0x33 || op = 0x35 then 8 else 4

/-- PUT_SIGNAL and SIGNAL (R157). -/
def isSignalOp (op : Nat) : Bool := op = 0x02 || op = 0x05

/-- Plain and fetching atomics (R157). -/
def isPlainAtomic (op : Nat) : Bool := 0x10 ≤ op && op ≤ 0x1D
def isFetching (op : Nat) : Bool := 0x30 ≤ op && op ≤ 0x35

/-- The length keeps R157. -/
def lengthOk (op n : Nat) : Bool :=
  match stitchUnit op with
  | some 0 => n = stitchFixed op
  | some k => n % k = 0
  | none => false

/-- A test and the code that its failure gives. -/
def failsWith (b : Bool) (code : Nat) : Option Nat := if b then none else some code

/-- The first failure of a list of tests. -/
def firstFail : List (Option Nat) → Option Nat
  | [] => none
  | some c :: _ => some c
  | none :: l => firstFail l

/-- Reserved bits of word 0 by kind, and of words 2 to 7 (R122 to R140). -/
def reservedMasks : Nat → Nat × List Nat
  | 0 => (0xFFFFFFF0, [0xFFFF0000, 0xFFFFFFFF, 0xFFFFFFFF, 0xFFFFFFFF, 0xFFFFFFFF, 0xFFFFFFFF])
  | 1 => (0xFC000000, [0, 0, 0, 0xC0000000, 0x80000000, 0xFE000000])
  | 2 => (0xFE100000, [0xFE000000, 0xFF800000, 0xFF800000, 0xFF800000, 0xFF800000, 0xFFFE0000])
  | 3 => (0xFF9C0FF0, [0x80000000, 0, 0xFFF00000, 0xFF800000, 0, 0xFF000000])
  | 4 => (0xFFDE0FF0, [0xFFFFFF80, 0, 0xFF000000, 0xFFFFFFFF, 0xFFFFFFFF, 0xFFFFFFFF])
  | 5 => (0xFFFFFFF0, [0xFFFFC000, 0xFFFF0000, 0xFFFFFFFF, 0xFFFFFFFF, 0xFFFFFFFF, 0xFFFFFFFF])
  | 6 => (0xFFFFFFF0, [0xFFFFFFE0, 0xFFFE0000, 0xFFFFFFFF, 0xFFFFFFFF, 0xFFFFFFFF, 0xFFFFFFFF])
  | _ => (0xFFFFFFF0, [0xFFFFFFF8, 0, 0, 0xFFFFFFFF, 0xFFFFFFFF, 0xFFFFFFFF])

/-- Reserved kinds, reserved bits, and word 1 where a kind has no advance (R122, R123). -/
def reservedOk (st : BitVec 256) : Bool :=
  let k := kindOf st
  let m := reservedMasks k
  k < 8 && stepWord st 0 &&& word m.1 = 0
    && ((1 ≤ k && k ≤ 4) || stepWord st 1 = 0)
    && (m.2.zipIdx).all (fun p => stepWord st (p.2 + 2) &&& word p.1 = 0)

/-- done_tally is zero when done_en is 0 (R122, R141; log 39). -/
def doneOk (st : BitVec 256) : Bool := sb st 0 5 || sf st 0 6 6 = 0

/-- MATRIX (R75 to R77, R124, R125, R141). -/
def checkMatrix (st : BitVec 256) : Option Nat :=
  let m := matStep st
  firstFail [
    failsWith (doneOk st) 1,
    failsWith (m.mode ≠ 0 || (sf st 5 0 25 = 0 && sf st 6 0 17 = 0)) 1,
    failsWith (m.emit || (stepWord st 4 = 0 && !m.stoch)) 1,
    failsWith (m.mode < 3 && kBlock m.wf m.af m.mode ≠ 0) 2,
    failsWith (!m.emit || m.outFmt ≤ 10 || m.outFmt = 15) 2,
    failsWith (m.mode = 0 || m.K % blockSize m.mode = 0) 3,
    failsWith (m.wf ≠ 11 || m.K % 128 = 0) 3,
    failsWith (rowBytes m.af m.K ≤ m.aPitch && rowBytes m.wf m.K ≤ m.wPitch) 3,
    failsWith (m.mode = 0 || m.blocks ≤ m.sPitch) 3,
    failsWith (!m.emit || 16 * widthOf m.outFmt ≤ m.oPitch) 3]

/-- An operand of VECTOR that is used (R129, R130). -/
def operandOk (raw : Bool) (st : BitVec 256) (n : Nat) : Option Nat :=
  let fmt := sf st n 17 4
  let line := sf st n 0 17
  match sf st n 21 2 with
  | 0 => failsWith (fmt ≤ 11 && (!raw || fmt = 0)) 2
  | 1 => firstFail [failsWith (fmt = 0) 1, failsWith (line < 32) 2]
  | 2 => firstFail [failsWith (fmt = 0) 1, failsWith (4 ≤ line && line ≤ 15) 2]
  | _ => some 2

/-- An operand that is not used is none, with its fields zero (R129). -/
def noOperand (st : BitVec 256) (n : Nat) : Option Nat :=
  firstFail [failsWith (sf st n 21 2 = 3) 2, failsWith (sf st n 0 21 = 0) 1]

/-- The output of VECTOR (R128 to R130). -/
def outputOk (st : BitVec 256) : Option Nat :=
  let op := sf st 2 0 6
  let fmt := sf st 6 17 4
  let sel := sf st 6 21 2
  firstFail [
    failsWith (sel < 2) 2,
    failsWith (sel = 0 || (fmt = 0 && sf st 6 0 17 < 32 && !vecQuant op)) 2,
    failsWith (if op = 0x29 then fmt = 11 else if vecQuant op then 3 ≤ fmt && fmt ≤ 8
      else if vecRaw op then fmt = 0 else fmt ≤ 10) 2]

/-- VECTOR (R76, R107, R128 to R130, R141). -/
def checkVector (st : BitVec 256) : Option Nat :=
  let v := vecStep {} st
  let k := vecArity v.op
  let raw := vecRaw v.op
  firstFail [
    failsWith (doneOk st) 1,
    failsWith (v.op ≤ 0x29) 2,
    failsWith (v.mode < 3) 2,
    operandOk raw st 3,
    if 2 ≤ k then operandOk raw st 4 else noOperand st 4,
    if 3 ≤ k then operandOk raw st 5 else noOperand st 5,
    outputOk st,
    failsWith (if v.op = 0x27 then v.mode = 1 else if v.op = 0x28 then v.mode = 2
      else v.mode = 0 || (v.operands.filter (·.scalable)).length = 1) 2,
    failsWith (v.readsParam || v.param = 0) 1,
    failsWith (if v.op = 0x27 then v.n % 32 = 0 else if v.op = 0x28 then v.n % 16 = 0
      else if v.op = 0x29 then v.n % 128 = 0 else true) 3,
    failsWith (v.out.sel = 0 || v.n ≤ 256) 3]

/-- STITCH (R131, R132, R157, R158, R141, R142). A role number is checked here and a region number at issue, where the
Region Map is read; the advance fields of a SIGNAL are not looked at (log 39). -/
def checkStitch (roles : Nat) (st : BitVec 256) : Option Nat :=
  let op := sf st 2 0 6
  let rgm := sf st 2 6 2
  let rlm := sf st 4 18 2
  let role := sf st 4 0 18
  let uses := isSignalOp op || rgm = 1
  firstFail [
    failsWith (stitchUnit op).isSome 2,
    failsWith (rgm ≠ 3 && rlm ≠ 3) 2,
    failsWith (lengthOk op (sf st 7 8 16 + 1)) 1,
    failsWith (isSignalOp op || sf st 2 8 6 = 0) 1,
    failsWith (if uses then rlm ≠ 2 || role = 0 else role = 0 && rlm = 0) 1,
    failsWith (sb st 2 14 || sf st 2 15 6 = 0) 1,
    failsWith (sb st 2 21 || (sf st 2 22 9 = 0 && sf st 3 16 16 = 0)) 1,
    failsWith (op ≠ 5 || (rgm = 0 && !sb st 2 21 && sf st 3 0 16 = 0 && stepWord st 5 = 0 && stepWord st 6 = 0
      && sf st 7 0 8 = 0)) 1,
    failsWith (!(uses && rlm = 0) || role < roles) 5]

/-- LOOP at an index (R138). -/
def checkLoop (steps : List (BitVec 256)) (i : Nat) (st : BitVec 256) : Option Nat :=
  let t := sf st 2 0 12
  let same := fun (q : BitVec 256) => kindOf q = 5 && sf q 2 12 2 = sf st 2 12 2
  failsWith (t ≤ i && !(((steps.drop t).take (i - t)).any same)) 4

/-- The fault code that a step at an index gives at load, if any (R142). -/
def checkStep (roles : Nat) (steps : List (BitVec 256)) (i : Nat) (st : BitVec 256) : Option Nat :=
  if !reservedOk st then some 1
  else match kindOf st with
    | 1 => checkMatrix st
    | 2 => checkVector st
    | 3 => checkStitch roles st
    | 5 => checkLoop steps i st
    | 6 => failsWith (sb st 2 3 || sf st 3 0 17 = 0) 1
    | 7 => failsWith (sf st 2 0 2 ≠ 3) 2
    | _ => none

/-- The first step refused at load, with its code (R142). -/
def checkSteps (roles : Nat) (steps : List (BitVec 256)) : Option (Nat × Nat) :=
  (steps.zipIdx).findSome? (fun p => (checkStep roles steps p.2 p.1).map (fun c => (p.2, c)))

end Sys2Proof.Machine
end

