-- ==== Sys2Proof/Machine/FabricPlan.lean ====
section
/-! DEFINITION. The commands of the fabric (R285 to R292). -/

namespace Sys2Proof.Machine

/-- Some job is defined. -/
def anyDefined (s : State) : Bool := s.jobs.any (fun p => p.2.status ≠ .free)

/-! FABRIC_PLAN_LOAD (R289). -/

def planSize (r : Req) : Coords := (rf r 3 0 2 + 1, rf r 3 2 2 + 1, rf r 3 4 1 + 1)
def planCoords (r : Req) : Coords := (rf r 3 5 2, rf r 3 7 2, rf r 3 9 1)

/-- The neighbour that a plan names on a port. -/
def planNb (r : Req) (p : Nat) : Nat := rf r (4 + p / 2) (16 * (p % 2)) 16

/-- A timeout that a plan may give. -/
def timeoutOk (v : Nat) : Bool := v = 0 || (100 ≤ v && v ≤ 100000)

/-- A port of a plan is named as R289 allows. -/
def planPortOk (r : Req) (p : Nat) : Bool :=
  if rb r 3 (10 + p) then
    axis (planSize r) (p / 2) ≠ 1 && planNb r p ≠ 0xFFFF && planNb r p ≠ rf r 2 0 16
  else planNb r p = 0

/-- Every argument of a plan is as R289 allows. -/
def planOk (r : Req) : Bool :=
  zeroFrom r 2 16 && zeroFrom r 3 16 && zeroFrom r 7 17 && zeroFrom r 8 17 && rf r 2 0 16 ≠ 0xFFFF
    && (List.range 3).all (fun a => axis (planCoords r) a < axis (planSize r) a)
    && (List.range 6).all (planPortOk r) && timeoutOk (rf r 7 0 17) && timeoutOk (rf r 8 0 17)

/-- Discovery compares again, with 200 ms of grace (R287, R289). -/
def regrace (us : List Nat) (s : State) : State :=
  forAll us (fun u s => modUnit u (fun x => { x with
    graceEnd := s.clk + ticksMs 200, badSince := none, missing := false }) s) s

/-- FABRIC_PLAN_LOAD. -/
def fabricPlanLoadCmd : Cmd where
  op := 0x0401
  len := (· = 9)
  unadmitted := []
  object := fun r s => need (!(operating s && anyDefined s
    && (rf r 2 0 16 ≠ s.glb.moduleId.toNat || planSize r ≠ s.fabric.size || planCoords r ≠ s.fabric.coords))) .wrongState
  args := fun r _ => need (planOk r) .badArg
  run := fun r s =>
    let t := rf r 7 0 17
    let e := rf r 8 0 17
    let s := { s with
      glb.moduleId := BitVec.ofNat 16 (rf r 2 0 16), glb.moduleIdValid := true,
      fabric.planLoaded := true, fabric.size := planSize r, fabric.coords := planCoords r,
      fabric.planned := BitVec.ofNat 6 (rf r 3 10 6),
      fabric.nb := (List.range 6).foldl (fun t p => tset 0 t p (planNb r p)) [],
      fabric.torusUs := if t = 0 then 2000 else t, fabric.eyeletUs := if e = 0 then 20000 else e }
    .ok (evalUnits 0 (regrace (List.range 22) s))

def execFabricPlanLoad (r : Req) (s : State) : Host.Outcome State Fault Refusal :=
  .next (runCmd fabricPlanLoadCmd r s)

/-! ROUTE_LOAD (R273, R290). -/

/-- An entry that R290 accepts by itself. -/
def routeOk (e : DWord) (s : State) : Bool :=
  field e 29 3 = 0 && field e 42 22 = 0 && (!reValid e ||
    (let own := s.fabric.coords
     let mine := reModule e = s.glb.moduleId.toNat
     (List.range 3).all (fun a => reDir e a ≠ 3 && (reDir e a = 0 || axis s.fabric.size a ≠ 1))
       && (reInTorus e || reBypass e) && !(reInTorus e && outside (reCoords e) s)
       && !(reBypass e && outside (reGateway e) s)
       && (!mine || (reInTorus e && reCoords e = own && !reBypass e))
       && !(reInTorus e && !mine && reCoords e = own)))

/-- Two valid entries clash: one module twice, or one set of coordinates twice (R290). -/
def routeClash (a b : DWord) : Bool :=
  reValid a && reValid b && (reModule a = reModule b || (reInTorus a && reInTorus b && reCoords a = reCoords b))

/-- The entries of a load with their indices. -/
def loadEntries (first : Nat) : List Word → List (Nat × DWord)
  | w0 :: w1 :: ws => (first, w1 ++ w0) :: loadEntries (first + 1) ws
  | _ => []

/-- The first entry that a load refuses: one not accepted by itself, else the first that clashes in the table
that would result (R290, log 34). -/
def firstRefused (new : List (Nat × DWord)) (table : Tbl DWord) (s : State) : Option Nat :=
  ((new.find? (fun e => !routeOk e.2 s)).or
    (new.find? (fun e => table.any (fun x => x.1 ≠ e.1 && routeClash e.2 x.2)))).map (·.1)

/-- ROUTE_LOAD. -/
def routeLoadCmd : Cmd where
  op := 0x0403
  len := (· = 7)
  unadmitted := []
  object := fun _ s => need s.fabric.planLoaded .wrongState
  args := fun r _ => need (zeroFrom r 2 25 && 1 ≤ rf r 2 12 13 && rf r 2 12 13 ≤ 4096
    && rf r 2 0 12 + rf r 2 12 13 ≤ 4096 && bulkOk r 3 && bulkLen r 3 = 8 * rf r 2 12 13) .badArg
  run := fun r s =>
    if !dmaGood r 0 then dmaFailed 0x0403 r 3 [] s
    else
      let new := loadEntries (rf r 2 0 12) (bytesWords (bulkBytes r 0 3))
      let table := new.foldl (fun t e => tset 0 t e.1 e.2) s.fabric.routes
      match firstRefused new table s with
      | some i => .of .badArg [word i] s
      | none => .ok { s with fabric.routes := table }

def execRouteLoad (r : Req) (s : State) : Host.Outcome State Fault Refusal := .next (runCmd routeLoadCmd r s)

/-! EYELET_DEFINE (R259, R291). -/

/-- Lanes of a mask. -/
def maskLanes (m : Word) : List Nat := (List.range 32).filter (fun n => bit m n)

/-- A lane of another eyelet (R259). -/
def laneTaken (e n : Nat) (s : State) : Bool :=
  (List.range 16).any (fun k => k ≠ e && match eyeletOf s k with
    | some x => bit x.lanes n
    | none => false)

/-- The arguments of EYELET_DEFINE. -/
def eyeletOk (r : Req) (s : State) : Bool :=
  zeroFrom r 2 5 && (if rb r 2 4 then rw r 3 = 0 && rw r 4 = 0
    else
      zeroFrom r 4 20 && 1 ≤ (maskLanes (rw r 3)).length && (maskLanes (rw r 3)).length ≤ 16
        && !(maskLanes (rw r 3)).any (fun n => laneTaken (rf r 2 0 4) n s)
        && rf r 4 0 16 ≠ 0xFFFF && rf r 4 0 16 ≠ s.glb.moduleId.toNat)

/-- Lanes that leave an eyelet keep their lock and carry nothing; laced lanes with lock that join serve
(R259, R267, R291). -/
def moveLanes (old new : Word) (s : State) : State :=
  let s := forAll ((maskLanes old).filter (fun n => !bit new n)) (fun n s =>
    modLane (48 + n) (fun l => { lock := l.lock, lockAt := l.lockAt }) s) s
  forAll ((maskLanes new).filter (fun n => !bit old n)) (fun n s =>
    modLane (48 + n) (fun l => { l with svc := if l.lock && lanesLaced n s then .inService else .idle }) s) s

/-- EYELET_DEFINE. The 100 µs for which R291 quiesces lanes that are removed pass within the command
(log 34). -/
def eyeletDefineCmd : Cmd where
  op := 0x0404
  len := (· = 5)
  unadmitted := []
  object := fun _ s => need s.fabric.planLoaded .wrongState
  args := fun r s => need (eyeletOk r s) .badArg
  run := fun r s =>
    let e := rf r 2 0 4
    let old := eyeletOf s e
    let new := if rb r 2 4 then none else
      some { lanes := rw r 3, farModule := rf r 4 0 16, farEyelet := rf r 4 16 4 : Eyelet }
    let drop := old.isSome && old.map (fun x => (x.farModule, x.farEyelet)) ≠ new.map (fun x => (x.farModule, x.farEyelet))
    let s := if drop then flushQueue (6 + e) s else s
    let s := { s with fabric.eyelets := tset none s.fabric.eyelets e new }
    let mask := fun (x : Option Eyelet) => (x.map (·.lanes)).getD 0
    .ok (evalUnit 0 (6 + e) (regrace [6 + e] (moveLanes (mask old) (mask new) s)))

def execEyeletDefine (r : Req) (s : State) : Host.Outcome State Fault Refusal := .next (runCmd eyeletDefineCmd r s)

/-! CLASS_WEIGHTS (R281). -/

/-- The weights of a request. -/
def weightsOf (r : Req) : List Nat := [rf r 3 0 8, rf r 3 8 8, rf r 3 16 8, rf r 3 24 8]

/-- CLASS_WEIGHTS. -/
def classWeightsCmd : Cmd where
  op := 0x0405
  len := (· = 4)
  unadmitted := []
  object := fun _ _ => none
  args := fun r _ => need (zeroFrom r 2 5 && (rf r 2 0 5 < 22 || rf r 2 0 5 = 31)
    && (weightsOf r).all (fun w => w ≠ 0) && rf r 3 0 8 ≤ rf r 3 8 8) .badArg
  run := fun r s =>
    let us := if rf r 2 0 5 = 31 then List.range 22 else [rf r 2 0 5]
    .ok (forAll us (fun u s => modUnit u (fun x => { x with weights := weightsOf r }) s) s)

def execClassWeights (r : Req) (s : State) : Host.Outcome State Fault Refusal := .next (runCmd classWeightsCmd r s)

/-! FABRIC_STATUS and FABRIC_COUNTERS (R285, R292). -/

/-- A unit hears a far end. -/
def unitHears (u : Nat) (s : State) : Bool :=
  (unitLanes u s).any (fun n => (laneOf s (laneKey u n)).lock && (laneOf s (laneKey u n)).hello)

/-- The module ID that a unit hears, 0xFFFF when none. -/
def seenId (u : Nat) (s : State) : Nat := if unitHears u s then (unitOf s u).seenModule else 0xFFFF

/-- FABRIC_STATUS. -/
def fabricStatusCmd : Cmd where
  op := 0x0402
  len := (· = 2)
  unadmitted := []
  object := fun _ _ => none
  args := fun _ _ => none
  run := fun _ s =>
    let f := s.fabric
    let head := word (b2n f.planLoaded + 2 * b2n (f.units.any (fun x => x.2.missing)) + 4 * b2n (laneOut s)
      + 8 * bitsNat ((List.range 6).map (fun p => (unitOf s p).state = 1)))
    let ports := (List.range 6).map (fun p => word ((unitOf s p).state + 16 * lanesInService p s
      + 2 ^ 12 * (ledgerOf p s).length + 65536 * seenId p s))
    let eyes := (List.range 16).flatMap (fun e =>
      let u := 6 + e
      let far := if unitHears u s then ((unitOf s u).seenUnit + 10) % 16 else 0
      [word ((unitOf s u).state + 8 * far + 65536 * seenId u s), word (lanesInService u s)])
    let ledgers := (List.range 6).flatMap (fun p => padTo 0 4 (ledgerOf p s))
    .of .ok (head :: (ports ++ eyes ++ ledgers)) s

def execFabricStatus (r : Req) (s : State) : Host.Outcome State Fault Refusal := .next (runCmd fabricStatusCmd r s)

/-- Shared-pool entries held now (FABRIC_COUNTERS). -/
def sharedHeld (s : State) : Nat :=
  (s.stitch.table.filter (fun e => 8192 ≤ e.1 && e.2.cond ≠ .free)).length

/-- FABRIC_COUNTERS. -/
def fabricCountersCmd : Cmd where
  op := 0x0406
  len := (· = 3)
  unadmitted := []
  object := fun _ _ => none
  args := fun r _ => need (zeroFrom r 2 6 && rf r 2 0 5 ≤ 22) .badArg
  run := fun r s =>
    let u := rf r 2 0 5
    if u = 22 then
      .of .ok ([0, 1, 2, 3, 4, 17, 18, 19, 20].map (fun k => tget 0 s.stitch.counts k) ++ [word s.stitch.peak])
        (if rb r 2 5 then { s with stitch.peak := sharedHeld s } else s)
    else
      let x := unitOf s u
      .of .ok ((List.range 7).map (fun k => tget 0 x.counts k) ++ [word (x.bytesSent / 1048576)]) s

def execFabricCounters (r : Req) (s : State) : Host.Outcome State Fault Refusal :=
  .next (runCmd fabricCountersCmd r s)

end Sys2Proof.Machine
end

