-- ==== Sys2Proof/Machine/RegionMap.lean ====
section
/-! DEFINITION. The Region Map, the role table and physical global addresses (R168, R170, R235, R245 to
R249). -/

namespace Sys2Proof.Machine

/-! Physical global addresses (R168). -/

/-- This module's ID. -/
def ownId (s : State) : Nat := s.glb.moduleId.toNat

/-- An address from its parts. -/
def pga (module space off : Nat) : Nat := module * 2 ^ 48 + space * 2 ^ 45 + off

def pgaModule (a : Nat) : Nat := a / 2 ^ 48 % 65536
def pgaSpace (a : Nat) : Nat := a / 2 ^ 45 % 8
def pgaOff (a : Nat) : Nat := a % 2 ^ 45

/-- The tile and the tile SRAM offset of a space-1 offset. -/
def pgaTile (off : Nat) : Nat := off / 2 ^ 23 % 64
def pgaSram (off : Nat) : Nat := off % 2 ^ 23

/-! The Region Map (R245 to R248). -/

/-- The number of a region's entry, when it lies in the job's directory (R245). -/
def rmIndex (j r : Nat) (s : State) : Option Nat :=
  if r < (jobOf s j).dirLen then some ((jobOf s j).dirBase + r) else none

/-- The valid entry of a region (R247). -/
def rmLookup (j r : Nat) (s : State) : Option RmEntry :=
  match rmIndex j r s with
  | some i => if (rmOf s i).valid then some (rmOf s i) else none
  | none => none

/-- A change of an entry raises map_gen (R246). -/
def rmSet (i : Nat) (e : RmEntry) (s : State) : State :=
  { s with place.rmap := tset {} s.place.rmap i { e with gen := ((rmOf s i).gen + 1) % 65536 } }

/-- Change a region's entry. -/
def rmMod (j r : Nat) (f : RmEntry → RmEntry) (s : State) : State :=
  match rmIndex j r s with
  | some i => rmSet i (f (rmOf s i)) s
  | none => s

/-- A region moves: its write-type operations are held (R251). -/
def draining (j r : Nat) (s : State) : Bool :=
  match rmLookup j r s with
  | some e => e.move = 2
  | none => false

/-! Roles (R235, R237). -/

/-- The declared home of a role, the newest declaration first (ROLE_DECLARE). -/
def homeOf (x : Job) (role : Nat) : Option Nat :=
  (x.homes.find? (fun h => h.1 ≤ role && role ≤ h.2.1)).map (·.2.2)

def roleEnt (x : Job) (role : Nat) : RoleEnt := tget {} x.roles role

/-- The module and tile of a role: the role table's entry (R170). -/
def roleTarget (j role : Nat) (s : State) : Option (Nat × Nat) :=
  let x := jobOf s j
  match homeOf x role with
  | none => none
  | some h =>
    if h = ownId s then (roleEnt x role).bound.map (fun t => (h, t))
    else (roleEnt x role).pin.map (fun t => (h, t))

/-! Write-type operations (R251). -/

/-- Puts, the data of PUT_SIGNAL, plain and fetching atomics. -/
def isWriteOp (op : Nat) : Bool := op = 1 || op = 2 || (0x10 ≤ op && op ≤ 0x1D) || (0x30 ≤ op && op ≤ 0x35)

/-- The job on this module whose job_tag a packet carries (R194). -/
def jobOfTag (tag : Word) (s : State) : Option Nat :=
  jobNos.find? (fun j => (jobOf s j).status ≠ .free && (jobOf s j).tag = tag)

/-! Moves of this module (R250). -/

/-- The move tracker's granule: the least power of two of at least 4 KiB that divides the region into no
more than 524,288 granules (R250). -/
def trackGranule (size : Nat) : Nat :=
  2 ^ (((List.range 40).find? (fun k => (size + 2 ^ (12 + k) - 1) / 2 ^ (12 + k) ≤ 524288)).getD 0 + 12)

/-- The tracker marks the granules that a write to a range of physical offsets reaches (R250). -/
def trackWrite (pa n : Nat) (s : State) : State :=
  match s.place.move with
  | none => s
  | some m =>
    let size := match rmLookup m.job m.region s with
      | some e => e.size
      | none => 0
    let g := trackGranule size
    if n = 0 || pa + n ≤ m.oldBase || m.oldBase + size ≤ pa then s
    else
      let lo := (max pa m.oldBase - m.oldBase) / g
      let hi := (min (pa + n) (m.oldBase + size) - 1 - m.oldBase) / g
      let new := ((List.range (hi + 1 - lo)).map (· + lo)).filter (fun k => !m.marked.contains k)
      { s with place.move := some { m with marked := m.marked ++ new } }

end Sys2Proof.Machine
end

