-- ==== Sys2Proof/Machine/Target.lean ====
section
/-! DEFINITION. A module as the target of Stitch requests (R160 to R166, R174 to R180, R194, R196 to R199,
R380, R381). -/

namespace Sys2Proof.Machine

/-! Packets (R174 to R179). -/

/-- A request packet's header and payload (R175). -/
structure Request where
  op : Nat
  cls : Nat
  signal : Bool
  seq : Nat
  srcModule : Nat
  srcTile : Nat
  source : Nat
  job : Nat
  n : Nat
  dest : Nat
  payload : List Byte
  /-- the header's reserved bits are zero. -/
  clean : Bool

/-- The fold prefix (R179). -/
def foldPrefix (module seq tail : Nat) : List Byte :=
  leBytes module 2 ++ leBytes 0 2 ++ leBytes seq 4 ++ leBytes tail 8

/-- A packet with its check word (R178). -/
def withCheck (pre bytes : List Byte) : List Byte := bytes ++ leBytes (checkWord pre bytes) 4

/-- The check word of a received packet is good. -/
def checkGood (pre bytes : List Byte) : Bool :=
  let n := bytes.length - 4
  4 ≤ bytes.length && leNat (bytes.drop n) = checkWord pre (bytes.take n)

/-- Bytes `lo` to `lo` + `n` of a packet as a number. -/
def bytesAt (b : List Byte) (lo n : Nat) : Nat := leNat ((b.drop lo).take n)

/-- A field of a number. -/
def nf (x lo len : Nat) : Nat := x / 2 ^ lo % 2 ^ len

/-- Read a request packet (R175). -/
def readRequest (b : List Byte) : Request :=
  let w0 := bytesAt b 0 4
  let w2 := bytesAt b 8 4
  let w3 := bytesAt b 12 4
  { op := nf w0 0 6, cls := nf w0 6 2, signal := nf w0 12 1 = 1, seq := bytesAt b 4 4,
    srcModule := nf w2 0 16, srcTile := nf w2 16 6, source := nf w2 22 2, job := nf w2 24 4,
    n := nf w3 0 12 + 1, dest := bytesAt b 16 8, payload := (b.drop 24).take (b.length - 28),
    clean := nf w0 13 19 = 0 && nf w2 28 4 = 0 && nf w3 12 20 = 0 && nf (bytesAt b 4 4) 24 8 = 0
      && nf (bytesAt b 4 4) 22 1 = 0 }

/-- The bytes of a response packet (R176, R179). -/
def responseBytes (own : Nat) (q : Request) (status : Nat) (payload : List Byte) : List Byte :=
  let seq := q.seq % 2 ^ 22 + 2 ^ 22 + q.seq / 2 ^ 23 * 2 ^ 23
  let n := payload.length
  withCheck (foldPrefix q.srcModule seq q.op)
    (leBytes (status + 256 * q.op) 4 ++ leBytes seq 4 ++ leBytes own 4
      ++ leBytes (if n = 0 then 0 else n - 1 + 4096) 4 ++ payload)

/-- A packet formed here, at a unit of the mesh, leaves by its route, reaches this module's own memory or initiator, or
is dropped: unit 0xFF names it as formed here (R271, R274, R275, R293). -/
def sendOut (src : Nat) (p : Pkt) (s : State) : State :=
  match sourceRoute p s with
  | none => s
  | some (q, h) =>
    if q.dest ≠ ownId s && outside (q.tx, q.ty, q.tz) s then dropPacket 0xFF 5 q s
    else match hopUnit h with
      | none => if q.dest = ownId s then deliverLocal src q s else dropPacket 0xFF 6 q s
      | some u =>
        if !unitCarries u s then dropPacket u (if u < 6 then 1 else 2) q s
        else if 6 ≤ u && (eyeletOf s (u - 6)).map (·.farModule) ≠ some q.dest then dropPacket u 3 q s
        else queuePacket src u q s

/-- Answer a request from the unit of the mesh that it went to (R176). -/
def respond (p : Pkt) (q : Request) (status : Nat) (payload : List Byte) (s : State) : State :=
  sendOut (reqGoal p s)
    { cls := 1, dest := q.srcModule, src := ownId s, tag := p.tag,
      bytes := responseBytes (ownId s) q status payload } s

/-! Atomics (R163 to R165). -/

/-- Bytes of an element of an operation; 0 for one without elements (R157). -/
def elemSize (op : Nat) : Nat :=
  if op = 0x11 || op = 0x12 then 2
  else if op = 0x14 || (0x17 ≤ op && op ≤ 0x1B) || op = 0x31 || op = 0x33 || op = 0x35 then 8
  else if (0x10 ≤ op && op ≤ 0x1D) || (0x30 ≤ op && op ≤ 0x34) then 4 else 0

/-- A sum in a 16-bit floating format (R165). -/
def addNarrow (fmt x y : Nat) : Nat :=
  (convF (fmtOf fmt) .even (rneV (vadd (decodeF (fmtOf fmt) x) (decodeF (fmtOf fmt) y)))).bits

/-- The lesser, or greater, of two numbers as two's complement. -/
def pickSigned (bits : Nat) (max : Bool) (x y : Nat) : Nat :=
  if (signed bits x ≤ signed bits y) ≠ max then x else y

/-- The new value of an element of a plain atomic (R157, R165). -/
def plainAtomic (op x y : Nat) : Nat :=
  match op with
  | 0x10 => (rne (vadd (valW (word x)) (valW (word y)))).toNat
  | 0x11 => addNarrow 1 x y
  | 0x12 => addNarrow 2 x y
  | 0x13 => (x + y) % 2 ^ 32
  | 0x14 => (x + y) % 2 ^ 64
  | 0x15 => pickSigned 32 false x y
  | 0x16 => pickSigned 32 true x y
  | 0x17 => pickSigned 64 false x y
  | 0x18 => pickSigned 64 true x y
  | 0x19 => x &&& y
  | 0x1A => x ||| y
  | 0x1B => x ^^^ y
  | 0x1C => (minMax false (word x) (word y)).toNat
  | _ => (minMax true (word x) (word y)).toNat

/-- The new value of the element of a fetching atomic: its old value, operands A and B (R157, R165). -/
def fetchingAtomic (op old a b : Nat) : Nat :=
  match op with
  | 0x30 => (old + a) % 2 ^ 32
  | 0x31 => (old + a) % 2 ^ 64
  | 0x32 => a
  | 0x33 => a
  | _ => if old = a then b else old

/-- The bytes that a plain atomic leaves, element by element. -/
def atomicBytes (op k : Nat) : Nat → List Byte → List Byte → List Byte
  | 0, _, _ => []
  | n + 1, old, new =>
    leBytes (plainAtomic op (leNat (old.take k)) (leNat (new.take k))) k
      ++ atomicBytes op k n (old.drop k) (new.drop k)

/-! The memory that a request names. -/

/-- What a request's address names: pieces of MRDIMM, a range of a tile's SRAM, or a tally (R168). -/
inductive Place0 where
  | dram (pieces : List (Nat × Nat × Nat))
  | sram (tile off : Nat)
  | tally (tile n : Nat)
  | yarler (off : Nat)
deriving DecidableEq, Repr

/-- The number under which the ownership map records the pages of a store (R381). -/
def storeOwner (k : Nat) : Nat := 16 + k

/-- A read of the memory of a request meets an uncorrectable word or line. -/
def placeUe (q : Request) (p : Place0) (s : State) : Bool :=
  match p with
  | .dram l => piecesUe l s
  | .sram t off => sramUe t off q.n s
  | _ => false

def placeTouch (q : Request) (p : Place0) (s : State) : State :=
  match p with
  | .dram l => piecesTouch readerAnswer l s
  | .sram t off => sramTouch t readerAnswer off q.n s
  | _ => s

def placeBytes (q : Request) (p : Place0) (s : State) : List Byte :=
  match p with
  | .dram l => piecesBytes l s
  | .sram t off => sramBytes t off q.n s
  | .yarler off => (List.range q.n).map (fun i =>
      (tget none s.stitch.yarler (off + i)).getD (Config.freeByte (2 ^ 32 + off + i) 0))
  | _ => []

/-- Bytes written to Yarler's memory (R168). -/
def yarlerWrite (off : Nat) (bs : List Byte) (s : State) : State :=
  { s with stitch.yarler := bs.zipIdx.foldl (fun t b => tset none t (off + b.2) (some b.1)) s.stitch.yarler }

def placeWrite (q : Request) (p : Place0) (bs : List Byte) (s : State) : State :=
  match p with
  | .dram l => piecesWrite (q.cls ≠ 2) readerAnswer l bs s
  | .sram t off => sramWrite t off bs s
  | .yarler off => yarlerWrite off bs s
  | _ => s

/-- A header with a reserved operation or class, another reserved value, or an operation that its space does
not allow (BAD_SPACE of R193). -/
def badSpace (q : Request) : Bool :=
  let sp := pgaSpace q.dest
  let sig := q.op = 5 || q.signal
  let data := if isPlainAtomic q.op || ((q.op = 1 || q.op = 2) && !q.signal) then q.n
    else if q.op = 0x34 || q.op = 0x35 then 2 * elemSize q.op
    else if isFetching q.op then elemSize q.op else 0
  !q.clean || (stitchUnit q.op).isNone || q.cls = 1 || q.source = 3 || (q.signal && q.op ≠ 2)
    || q.payload.length ≠ data
    || (isFetching q.op && q.n ≠ elemSize q.op) || (isPlainAtomic q.op && q.n % elemSize q.op ≠ 0)
    || (match sp with
        | 0 => sig
        | 1 => sig || nf (pgaOff q.dest) 29 16 ≠ 0
        | 2 => !sig || nf (pgaOff q.dest) 12 33 ≠ 0
        | 3 => (q.op ≠ 1 && q.op ≠ 3) || q.source ≠ 2 || q.cls = 0 || nf (pgaOff q.dest) 32 13 ≠ 0
        | _ => true)

/-- The job of a request (R194): the initiating tile's own on this module, else the one of its job_tag. -/
def requestJob (p : Pkt) (q : Request) (s : State) : Option Nat :=
  if p.src0 = 255 && q.srcModule = ownId s then (tileOf s q.srcTile).job else jobOfTag p.tag s

/-- The place of a request that the ownership map admits; none is NOT_BOUND (R194, R249, R381). -/
def boundPlace (p : Pkt) (q : Request) (s : State) : Option Place0 :=
  let off := pgaOff q.dest
  match pgaSpace q.dest with
  | 0 => match spans off q.n s with
    | none => none
    | some l =>
      let owners := (piecePages l).map (fun c => pageOwner c.1 c.2 s)
      let ok := if q.cls = 3 then true
        else if q.cls = 2 then
          (List.range 4).any (fun k => ((tget none s.resil.stores k).map (·.source)) = some q.srcModule
            && owners.all (· = some (storeOwner k)))
        else match requestJob p q s with
          | some j => owners.all (· = some j)
          | none => false
      if ok then some (.dram l) else none
  | 1 =>
    let t := pgaTile off
    let o := pgaSram off
    if sramSize < o + q.n || q.cls = 2 then none
    else if q.cls = 3 || ((requestJob p q s).isSome && (tileOf s t).job = requestJob p q s) then some (.sram t o)
    else none
  | 2 =>
    let t := nf off 6 6
    if q.cls = 3 || (q.cls ≠ 2 && (requestJob p q s).isSome && (tileOf s t).job = requestJob p q s) then
      some (.tally t (off % 64))
    else none
  | _ => if q.cls = 3 then some (.yarler off) else none

/-- Count and report a refusal (R198, R199). -/
def refuse (p : Pkt) (q : Request) (code : Nat) (s : State) : State :=
  let s := { s with stitch.counts := tset 0 s.stitch.counts (16 + code) (tget 0 s.stitch.counts (16 + code) + 1) }
  let s := raiseLimited 0x4084 1 q.srcModule (ticksMs 100) 1
    (fun n => [word q.srcModule, word q.job, word code] ++ dwords q.dest ++ [word n]) s
  respond p q code [] s

/-- A Management-class put that Yarler would take by a row of its own, refused in Halted: the address of a moving
region's change is not stated, a free value (R197, R198; log 42). -/
def refuseHalted (m dest : Nat) (s : State) : State :=
  let s := { s with stitch.counts := tset 0 s.stitch.counts 19 (tget 0 s.stitch.counts 19 + 1) }
  raiseLimited 0x4084 1 m (ticksMs 100) 1 (fun n => [word m, 0, 3] ++ dwords dest ++ [word n]) s

/-- A page of a request waits for the mirror engine (R380). -/
def pageWaits (q : Request) (pl : Place0) (s : State) : Option Nat :=
  match pl, s.resil.copy with
  | .dram l, some c =>
    if isWriteOp q.op && q.cls ≠ 2 then
      (piecePages l).findSome? (fun x => let k := x.1 * 2 ^ 22 + x.2; if c.todo.contains k then some k else none)
    else none
  | _, _ => none

/-- A Mirror-class write reaches the seal of a store's header (R382, R384). -/
def sawSeal (q : Request) (s : State) : State :=
  if q.cls ≠ 2 then s
  else forAll (List.range 4) (fun k s => match tget none s.resil.stores k with
    | some x =>
      let base := 2 ^ 42 * x.view + x.base % 2 ^ 42
      if x.source = q.srcModule && pgaOff q.dest = base + 20 then
        { s with resil.stores := tset none s.resil.stores k (some { x with sealAt := some s.clk }) }
      else s
    | none => s) s

/-- Apply a request to its place and answer it (R160, R163 to R165, R220). -/
def applyRequest (p : Pkt) (q : Request) (pl : Place0) (s : State) : State :=
  let k := elemSize q.op
  let write := fun (bs : List Byte) (s : State) => placeWrite q pl bs (trackWrite q.dest q.n s)
  match pl with
  | .tally t n => respond p q 0 [] (bumpTally t n s)
  | _ =>
    if q.op = 1 || q.op = 2 then respond p q 0 [] (sawSeal q (write q.payload s))
    else if placeUe q pl s then refuse p q 2 (placeTouch q pl s)
    else
      let old := placeBytes q pl s
      let s := placeTouch q pl s
      if q.op = 3 then respond p q 0 old s
      else if isPlainAtomic q.op then
        respond p q 0 [] (write (atomicBytes q.op k (q.n / k) old q.payload) s)
      else
        let new := fetchingAtomic q.op (leNat old) (leNat (q.payload.take k)) (leNat (q.payload.drop k))
        respond p q 0 old (write (leBytes new k) s)

/-- A write has waited for a page since a tick: the longest hold, and event 0x8005 above 100 µs (R380, R392). -/
def holdEnded (page at0 : Nat) (s : State) : State :=
  let ns := 2 * since at0 s
  let s := { s with resil.heldMax := max s.resil.heldMax (min ns 0xFFFFFFFF) }
  if 100000 < ns then
    raiseLimited 0x8005 2 0 (ticksS 10) 0 (fun _ => [word (page / 2 ^ 22), word (page % 2 ^ 22), word ns]) s
  else s

/-- The pieces of a request for MRDIMM, each with its offset in the segment. -/
def pieceOffsets : Nat → List (Nat × Nat × Nat) → List (Nat × Nat × Nat × Nat)
  | _, [] => []
  | k, p :: l => (k, p) :: pieceOffsets (k + p.2.2) l

/-- The page of a piece. -/
def piecePage (p : Nat × Nat × Nat × Nat) : Nat := p.2.1 * 2 ^ 22 + p.2.2.1 / 65536

/-- A piece waits for the mirror engine (R380). -/
def pieceWaits (p : Nat × Nat × Nat × Nat) (s : State) : Bool :=
  match s.resil.copy with
  | some c => c.todo.contains (piecePage p)
  | none => false

/-- One piece of a put or a plain atomic is performed by its controller (R212). -/
def applyPiece (q : Request) (p : Nat × Nat × Nat × Nat) (s : State) : State :=
  let k := elemSize q.op
  let bs := (q.payload.drop p.1).take p.2.2.2
  let s := trackWrite (q.dest + p.1) p.2.2.2 s
  if isPlainAtomic q.op then
    let old := piecesBytes [p.2] s
    piecesWrite (q.cls ≠ 2) readerAnswer [p.2] (atomicBytes q.op k (p.2.2.2 / k) old bs) (piecesTouch readerAnswer [p.2] s)
  else piecesWrite (q.cls ≠ 2) readerAnswer [p.2] bs s

/-- A write takes its place among the held ones, by the order in which they were first held (R212). -/
def holdAt (h : HeldWrite) (s : State) : State :=
  { s with resil.held := s.resil.held.filter (fun x => x.no < h.no) ++ h :: s.resil.held.filter (fun x => h.no ≤ x.no) }

/-- The pages that a held write waits for, one for each piece not performed (R380). -/
def heldPages (h : HeldWrite) (s : State) : List Nat :=
  match boundPlace h.pkt (readRequest h.pkt.bytes) s with
  | some (.dram l) => h.left.filterMap (fun i => ((pieceOffsets 0 l)[i]?).map piecePage)
  | _ => [h.page]

/-- The pieces of a held write that wait no longer are performed, the others go on waiting; one response answers them
all (R212, R380). -/
def performPieces (p : Pkt) (q : Request) (l : List (Nat × Nat × Nat)) (left : List Nat) (at0 no : Nat)
    (s : State) : State :=
  let all := pieceOffsets 0 l
  let mine := left.filterMap (fun i => (all[i]?).map (fun x => (i, x)))
  let wait := mine.filter (fun x => pieceWaits x.2 s)
  let go := mine.filter (fun x => !pieceWaits x.2 s)
  let s := forAll go (fun x => holdEnded (piecePage x.2) at0) s
  if wait.isEmpty && left.length = l.length then applyRequest p q (.dram l) s
  else if !(q.op = 1 || q.op = 2) && piecesUe (mine.map (·.2.2)) s then
    refuse p q 2 (piecesTouch readerAnswer (mine.map (·.2.2)) s)
  else
    let s := forAll go (fun x => applyPiece q x.2) s
    match wait with
    | [] => respond p q 0 [] s
    | x :: _ => holdAt { page := piecePage x.2, at0 := at0, pkt := p, left := wait.map (·.1), no := no } s

/-- A write that waits for the mirror engine is held (R380). -/
def holdRequest (p : Pkt) (q : Request) (pl : Place0) (s : State) : State :=
  match pl with
  | .dram l => performPieces p q l (List.range l.length) s.clk (s.bar2.writes + 1)
      { s with bar2.writes := s.bar2.writes + 1 }
  | _ => s

/-- A request whose check word is good: checked, held, applied or refused, and answered (R194, R197,
R380). -/
def serveRequest (p : Pkt) (s : State) : State :=
  let q := readRequest p.bytes
  if s.glb.state = .halted then refuse p q 3 s
  else if badSpace q then refuse p q 4 s
  else match boundPlace p q s with
    | none => refuse p q 1 s
    | some pl => match pageWaits q pl s with
      | some _ => holdRequest p q pl s
      | none => applyRequest p q pl s

/-- The next request is taken: a bad check word drops it (R180). -/
def requestReceive (flaws : List Flaw) (s : State) : State :=
  let s := nextRequest s
  match s.fabric.inReq with
  | [] => s
  | p :: rest =>
    let s := inject flaws { s with fabric.inReq := rest }
    let q := readRequest p.bytes
    if 28 ≤ p.bytes.length && checkGood (foldPrefix (ownId s) q.seq q.dest) p.bytes then serveRequest p s
    else
      let s := { s with stitch.counts := tset 0 s.stitch.counts 1 (tget 0 s.stitch.counts 1 + 1) }
      raiseLimited 0x4081 2 p.src (ticksMs 100) 1 (fun n => [word p.src, word p.cls, word n]) s

/-- STITCH_REQUEST_RECEIVE, R194. -/
def execStitchRequestReceive (flaws : List Flaw) (s : State) : Host.Outcome State Fault Refusal :=
  fed (fun s => if serving s then requestReceive flaws s else s) s

/-- A held write goes on (R380). -/
def releaseHit (h : HeldWrite) (s : State) : State :=
  let q := readRequest h.pkt.bytes
  if s.glb.state = .halted then refuse h.pkt q 3 s
  else match boundPlace h.pkt q s with
    | some (.dram l) => performPieces h.pkt q l h.left h.at0 h.no s
    | _ => refuse h.pkt q 1 s

/-- The controller has accepted a request: its check word is good and the ownership map admits it (R222). -/
def accepted (p : Pkt) (s : State) : Bool :=
  let q := readRequest p.bytes
  28 ≤ p.bytes.length && checkGood (foldPrefix (ownId s) q.seq q.dest) p.bytes && !badSpace q && (boundPlace p q s).isSome

/-- The requests at a channel that leaves service: those accepted are answered MEM_UE, in Halted TARGET_HALTED as every
request, the others are still to be looked at (R197, R222). -/
def refuseChannel (c : Nat) (s : State) : State :=
  let code := if s.glb.state = .halted then 3 else 2
  let onChan := fun (p : Pkt) => match boundPlace p (readRequest p.bytes) s with
    | some (.dram l) => l.any (fun x => x.1 = c)
    | _ => false
  let there := s.fabric.fronts.flatMap (fun f => f.2.q.map (·.pkt))
  let mine := (there ++ s.fabric.inReq).filter (fun p => accepted p s && onChan p)
  let held := s.resil.held.filter (fun h => onChan h.pkt)
  let stay := fun (l : List Pkt) => l.filter (fun p => !mine.contains p)
  let s' := forAll s.fabric.fronts (fun f => setFront f.1
    (if f.1 = c then {} else { f.2 with q := f.2.q.filter (fun w => !mine.contains w.pkt) })) s
  let s := { s' with
    fabric.inReq := stay s.fabric.inReq ++ stay ((frontOf c s).q.map (·.pkt))
    resil.held := s.resil.held.filter (fun h => !held.contains h) }
  forAll (mine ++ held.map (·.pkt)) (fun p => refuse p (readRequest p.bytes) code) s

end Sys2Proof.Machine
end

