-- ==== Sys2Proof/Machine/Bar2.lean ====
section
/-! DEFINITION. The BAR2 windows (R26, R59 to R63, R251, R380). -/

namespace Sys2Proof.Machine

/-! MAP_WINDOW. -/

/-- The offset of a MAP_WINDOW request. -/
def winOffset (r : Req) : Nat := (rw r 4).toNat + 2 ^ 32 * rf r 5 0 8

/-- The request unmaps its page. -/
def winUnmaps (r : Req) : Bool := !rb r 2 16 && !rb r 2 17

/-- The region is bound to memory of this module. -/
def boundHere (j region : Nat) (s : State) : Bool :=
  match rmLookup j region s with
  | some e => !e.remote
  | none => false

/-- MAP_WINDOW's checks of a mapping. -/
def winOk (r : Req) (s : State) : Bool :=
  let j := rf r 3 16 4
  let k := rf r 3 0 16
  zeroFrom r 3 20 && zeroFrom r 5 8 && winOffset r % 65536 = 0 && (jobOf s j).status ≠ .free
    && (match tget none (jobOf s j).regions k with
        | some x => winOffset r < x.size
        | none => false)
    && boundHere j k s

/-- MAP_WINDOW. -/
def mapWindowCmd : Cmd where
  op := 0x0120
  len := (· = 6)
  unadmitted := []
  object := fun r s => need (operating s || winUnmaps r) .wrongState
  args := fun r s => firstOf [need (rf r 2 10 6 = 0 && zeroFrom r 2 18) .badArg,
    need (if winUnmaps r then zeroWords r 3 5 else winOk r s) .badArg]
  run := fun r s =>
    .ok (setPage (rf r 2 0 10) (if winUnmaps r then {} else
      { cond := .mapped, rd := rb r 2 16, wr := rb r 2 17, job := rf r 3 16 4, region := rf r 3 0 16,
        offset := winOffset r }) s)

def execMapWindow (r : Req) (s : State) : Host.Outcome State Fault Refusal := .next (runCmd mapWindowCmd r s)

/-- Pages of the regions that meet a test are suspended (R61). -/
def suspendPages (p : Nat → Nat → Bool) (s : State) : State :=
  forAll (s.bar2.pages.filter (fun w => w.2.cond = .mapped && p w.2.job w.2.region)) (fun w s =>
    raise 0xB005 1 [word w.1, word w.2.region] (setPage w.1 { w.2 with cond := .suspended } s)) s

/-! Accesses. -/

/-- What an access to a page reaches: a place and its physical global address, or the cause of event 0xB004
(R60, R64). -/
inductive WinHit where
  | at (p : Place0) (pa : Nat) (region : Nat × Nat)
  | no (cause : Nat)

/-- The memory of `n` bytes from a physical global address of this module that a job holds (R60, R249). -/
def heldPlace (j pa n : Nat) (s : State) : Option Place0 :=
  let off := pgaOff pa
  if pgaSpace pa = 0 then
    match spans off n s with
    | some l => if (piecePages l).all (fun c => pageOwner c.1 c.2 s = some j) then some (.dram l) else none
    | none => none
  else if pgaSpace pa = 1 && pgaSram off + n ≤ sramSize && (tileOf s (pgaTile off)).job = some j then
    some (.sram (pgaTile off) (pgaSram off))
  else none

/-- Translate an access through a mapping: the causes in the order of R60. An access that begins inside the region and
runs past its end is refused whole with cause 1, which R60 does not state (log 41). -/
def mapHit (w : Window) (off n : Nat) (write : Bool) (s : State) : WinHit :=
  if w.cond ≠ .mapped then .no 0
  else match rmLookup w.job w.region s with
    | none => .no 3
    | some e =>
      if e.size < w.offset + off + n then .no 1
      else if !(if write then w.wr else w.rd) then .no 2
      else if e.lost || e.remote then .no 3
      else match heldPlace w.job (e.base + w.offset + off) n s with
        | some p => .at p (e.base + w.offset + off) (w.job, w.region)
        | none => .no 3

/-- Translate an access that comes now. -/
def winHit (page off n : Nat) (write : Bool) (s : State) : WinHit := mapHit (pageOf s page) off n write s

/-- Event 0xB004, at most once per page per second (R60, R64); its third item is 0 for a read and 1 for a write, a
code that R64 does not give (log 41). -/
def winMiss (page off : Nat) (write : Bool) (cause : Nat) (s : State) : State :=
  raiseLimited 0xB004 2 page (ticksS 1) 0 (fun _ => [word page, word off, word (b2n write), word cause]) s

def hitUe (p : Place0) (n : Nat) (s : State) : Bool :=
  match p with
  | .dram l => piecesUe l s
  | .sram t off => sramUe t off n s
  | _ => false

def hitBytes (p : Place0) (n : Nat) (s : State) : List Byte :=
  match p with
  | .dram l => piecesBytes l s
  | .sram t off => sramBytes t off n s
  | _ => []

def hitTouch (p : Place0) (n : Nat) (s : State) : State :=
  match p with
  | .dram l => piecesTouch readerBar2 l (chargePieces atHost 0 l s)
  | .sram t off => sramTouch t readerBar2 off n s
  | _ => s

/-- The bytes of a read that completes without effect (R60). -/
def allOnes (n : Nat) : List Byte := List.replicate n 0xFF

/-- A read of a page (R59, R60). -/
def winRead (page off n : Nat) (s : State) : State :=
  match winHit page off n false s with
  | .no c => emit (.bar2Data (allOnes n)) (winMiss page off false c s)
  | .at p _ _ =>
    if hitUe p n s then emit (.bar2Data (allOnes n)) (winMiss page off false 4 (hitTouch p n s))
    else emit (.bar2Data (hitBytes p n s)) (hitTouch p n s)

/-- BAR2_READ: all ones in Boot and Dead (R26), ignored in D3hot (R20). -/
def execBar2Read (addr : BitVec 34) (len : Nat) (flaws : List Flaw) (s : State) :
    Host.Outcome State Fault Refusal :=
  let a := addr.toNat
  if 4096 < a % 4096 + len then .fault .illFormed
  else .next (if len = 0 || !answersBar s then s
    else if !serving s then emit (.bar2Data (allOnes len)) s
    else winRead (a / 2 ^ 24) (a % 2 ^ 24) len (inject flaws s))

/-- The first page of a place that waits for the mirror engine (R380). -/
def waitPage (p : Place0) (s : State) : Option Nat :=
  match p, s.resil.copy with
  | .dram l, some c => ((piecePages l).map (fun x => x.1 * 2 ^ 22 + x.2)).find? (fun k => c.todo.contains k)
  | _, _ => none

/-- A page of a place waits for the mirror engine (R380). -/
def hitWaits (p : Place0) (s : State) : Bool := (waitPage p s).isSome

/-- The bytes of a write reach its place. -/
def hitWrite (p : Place0) (bs : List Byte) (s : State) : State :=
  match p with
  | .dram l => piecesWrite true readerBar2 l bs (chargePieces atHost 0 l s)
  | .sram t off => sramWrite t off bs s
  | _ => s

/-- A write to a page goes by the mapping that it met (R62): held while its region drains or its page waits, dropped
where R60 and R63 say (R59, R251, R380). The cause that a write to a mapped page gives in Halted is not stated (log 41). -/
def winWrite (w : HeldBar2) (s : State) : State :=
  match mapHit w.map w.off w.bytes.length true s with
    | .no c => winMiss w.page w.off true c s
    | .at p pa (j, k) =>
      if s.glb.state = .halted then
        useFresh 1 (winMiss w.page w.off true (Config.freeNat s.fresh % 5) s)
      else if draining j k s || hitWaits p s then
        let wait := w.wait.or ((waitPage p s).map (fun k => (k, s.clk)))
        let no := if w.no = 0 then s.bar2.writes + 1 else w.no
        { s with bar2.held := s.bar2.held ++ [{ w with wait := wait, no := no }],
                 bar2.writes := max s.bar2.writes no }
      else
        let s := match w.wait with
          | some (k, t) => holdEnded k t s
          | none => s
        hitWrite p w.bytes (trackWrite pa w.bytes.length s)

/-- BAR2_WRITE (R59, R60). -/
def execBar2Write (addr : BitVec 34) (bytes : List Byte) (flaws : List Flaw) (s : State) :
    Host.Outcome State Fault Refusal :=
  let a := addr.toNat
  if 4096 < a % 4096 + bytes.length then .fault .illFormed
  else .next (if bytes = [] || !reachable s then s
    else winWrite { page := a / 2 ^ 24, map := pageOf s (a / 2 ^ 24), off := a % 2 ^ 24, bytes := bytes } (inject flaws s))

/-- The page that a held BAR2 write waits for now (R380). -/
def barPage (w : HeldBar2) (s : State) : Option Nat :=
  match mapHit w.map w.off w.bytes.length true s with
  | .at p _ _ => waitPage p s
  | .no _ => none

/-- Held writes that meet a test go on in order; those that still must wait are held again (R251, R380). -/
def retryWhere (p : HeldBar2 → Bool) (s : State) : State :=
  forAll s.bar2.held (fun w s => if p w then winWrite w s else { s with bar2.held := s.bar2.held ++ [w] })
    { s with bar2.held := [] }

/-- The held writes go on in order. -/
def retryWindows (s : State) : State := forAll s.bar2.held winWrite { s with bar2.held := [] }

/-- The writes held on a page go on in the order in which they were held, whether they came from Stitch requests or
through BAR2 (R212, R380). -/
def releasePage (page : Nat) (s : State) : State :=
  let hit := s.resil.held.filter (fun h => (heldPages h s).contains page)
  let s := { s with resil.held := s.resil.held.filter (fun h => !hit.contains h) }
  forAll hit (fun h s => releaseHit h (retryWhere (fun w => w.no < h.no) s)) s

end Sys2Proof.Machine
end

