-- ==== Sys2Proof/Machine/Stitch.lean ====
section
/-! DEFINITION. Stitch operations at their initiator: descriptors, entries, segments, responses, errors,
timeouts (R131 to R133, R155 to R162, R164, R167 to R199, R385). -/

namespace Sys2Proof.Machine

/-! The copy that fails (R385). -/

/-- A copy ends unsealed: its pages stay pending, its operations are no longer waited for (R385). -/
def clearCopy (c : Copy) (s : State) : State :=
  let mine := fun (p : Nat) => 1 ≤ p && p ≤ 3
  { s with
    resil.copy := none
    resil.carried := s.resil.carried ++ c.pages.filter (fun p => !s.resil.carried.contains p)
    stitch.table := s.stitch.table.map (fun e => (e.1, if mine e.2.purpose then { e.2 with purpose := 0 } else e.2))
    stitch.waitList := s.stitch.waitList.filter (fun w => !mine w.purpose) }

/-- Every write held for the mirror engine goes on (R385). -/
def releaseHeld (s : State) : State := retryWindows (forAll (s.resil.held.map (·.page)).eraseDups releasePage s)

/-- A copy of an image fails, with event 0x8003 (R385). Causes: 1 an operation's error, 2 more granules than J,
3 buddy changed or cleared, 4 buddy lost (log 42). -/
def copyFail (cause err : Nat) (s : State) : State :=
  match s.resil.copy with
  | none => s
  | some c => releaseHeld (raise 0x8003 3 [c.index, word cause, word err] (clearCopy c s))

/-- The mirror engine reads a pending page that Yarler or the Lastmaker is about to write, into the staging buffer; writes
held on it go on first (R380). -/
def stagePage (k : Nat) (s : State) : State :=
  match s.resil.copy with
  | none => s
  | some c =>
    let l := [(k / 2 ^ 22, k % 2 ^ 22 * 65536, 65536)]
    if !c.todo.contains k then s
    else if !(chanOf s (k / 2 ^ 22)).inService then copyFail 1 1 s
    else if piecesUe l s then copyFail 1 0x13 (piecesTouch readerMirror l s)
    else retryWindows (releasePage k (piecesTouch readerMirror l { s with
      resil.copy := some { c with todo := c.todo.filter (· ≠ k), staged := c.staged ++ [(k, piecesBytes l s)] } }))

/-- The seal of an image has been written: the store's indices move on, and the regions that the image gave
whole have been sealed (R384, event 0x8001). -/
def sealDone (d : Desc) (s : State) : State :=
  match s.resil.copy with
  | none => s
  | some c =>
    let t : BitVec 48 := BitVec.ofNat 48 (leNat ((d.data.drop 12).take 6))
    let s := { s with
      resil.copy := none
      resil.sealedOld := s.resil.sealedNew
      resil.sealedNew := c.index
      resil.halfNew := c.half
      resil.sealT := t
      resil.image := s.resil.image.map (fun r =>
        if r.since.isNone && c.fullRegions.contains (r.job, r.region) then { r with since := some c.index } else r) }
    raiseLimited 0x8001 0 0 (ticksS 10) 1
      (fun n => [c.index, word c.pages.length, word (since c.startAt s / 500), word n]) s

/-! Forming a descriptor (R131 to R133). -/

/-- The role that a step refers to (R132). -/
def stepRole (g own : Nat) (st : BitVec 256) : Nat :=
  let raw := sf st 4 0 18
  match sf st 4 18 2 with
  | 0 => raw
  | 1 => own - own % g + unsignedMod ((own % g : Nat) + signed 18 raw) g
  | _ => own
where
  /-- A signed number modulo a positive one. -/
  unsignedMod (x : Int) (n : Nat) : Nat := (x % n).toNat

/-- The operation names a role: a signal, or region_mode 1 (R158). -/
def usesRole (st : BitVec 256) : Bool := isSignalOp (sf st 2 0 6) || sf st 2 6 2 = 1

/-- The region that a step refers to (R132). -/
def stepRegion (g own role : Nat) (st : BitVec 256) : Nat :=
  let r := sf st 3 0 16
  match sf st 2 6 2 with
  | 1 => r + role % g
  | 2 => r + own % g
  | _ => r

/-- What the rotation adds to local_off and remote_off (R133). -/
def rotation (x : Tile) (own : Nat) (st : BitVec 256) : Int :=
  if !sb st 2 21 then 0
  else
    let c : Int := (tget 0 x.loops (sf st 2 22 2) : Nat)
    let q := ((own % x.group : Nat) + (sf st 2 25 6 : Nat) + (if sb st 2 24 then -c else c)) % (x.group : Int)
    q * (64 * (sf st 3 16 16 : Int))

/-- local_off and remote_off after advances and rotation (R123, R133). -/
def stepLocal (x : Tile) (own : Nat) (st : BitVec 256) : Int :=
  sf st 5 0 23 + 64 * nextStep x st 0 + rotation x own st
def stepRemote (x : Tile) (own : Nat) (st : BitVec 256) : Int :=
  ((stepWord st 6).toNat + 2 ^ 32 * sf st 7 0 8 : Nat) + 64 * nextStep x st 1 + rotation x own st

/-- The descriptor of a STITCH step, or the code of its fault at issue (R131 to R133, R141, R159, R172). -/
def formDesc (t : Nat) (st : BitVec 256) (s : State) : Except Nat Desc :=
  let x := tileOf s t
  let own := x.role.getD 0
  let j := x.job.getD 0
  let op := sf st 2 0 6
  let len := sf st 7 8 16 + 1
  let role := stepRole x.group own st
  let region := stepRegion x.group own role st
  let off := stepLocal x own st
  if usesRole st && (jobOf s j).nRoles ≤ role then .error 5
  else if op ≠ 5 && (rmLookup j region s).isNone then .error 5
  else if op ≠ 5 && !inSram off (footprint op len) then .error 6
  else
    let k := elemSize op
    let a := if isFetching op then stepBits t off.toNat k s else 0
    let b := if op = 0x34 || op = 0x35 then stepBits t (off.toNat + 8) k s else 0
    .ok { op := op, cmpl := if sb st 2 14 then some (sf st 2 15 6) else none, sigTally := sf st 2 8 6,
          tile := t, job := j, role := if usesRole st then role else 0, len := len,
          localOff := if op = 5 then 0 else off.toNat, region := if op = 5 then 0 else region,
          target := if op = 5 then 0 else stepRemote x own st,
          opA := BitVec.ofNat 64 a, opB := BitVec.ofNat 64 b }

/-! Entries (R184 to R188). -/

/-- The first free entry of a range. -/
def freeIn (lo n : Nat) (s : State) : Option Nat :=
  ((List.range n).map (· + lo)).find? (fun e => (entryOf s e).cond = .free)

/-- Shared entries that an initiator holds, quarantined ones among them (R186, R187). -/
def sharedOf (who : Nat) (s : State) : Nat :=
  (s.stitch.table.filter (fun p => 8192 ≤ p.1 && p.2.cond ≠ .free && p.2.owner = who)).length

/-- The cap of an initiator on the shared pool (R186). -/
def sharedCap (who : Nat) : Nat := if who = 65 then 256 else 1024

/-- Older operations of the same tile whose target ranges overlap an operation's (R181). -/
def overlaps (d e : Desc) : Bool :=
  (d.op ≠ 5 && e.op ≠ 5 && d.region = e.region && d.target < e.target + e.len && e.target < d.target + d.len)
    || (isSignalOp d.op && isSignalOp e.op && d.role = e.role && d.sigTally = e.sigTally)

/-- An operation waits for an earlier one or for a move (R181, R251). -/
def mustHold (e : Nat) (s : State) : Bool :=
  let x := entryOf s e
  x.desc.source = 0
    && ((tileOps x.desc.tile s).any (fun p => p.1 ≠ e && p.2.order < x.order && overlaps x.desc p.2.desc)
      || (isWriteOp x.desc.op && draining x.desc.job x.desc.region s))

/-- Data segments of an operation (R173). -/
def segments (d : Desc) : Nat := (d.len + 4095) / 4096

/-- The parts of an operation: its data segments, and 16 for the signal of a PUT_SIGNAL (R173). -/
def partsOf (d : Desc) : List Nat := List.range (segments d) ++ (if d.op = 2 then [16] else [])

/-- Bytes of a data segment (R173). -/
def segLen (d : Desc) (k : Nat) : Nat := min 4096 (d.len - 4096 * k)

/-- The module that an operation's target names, as far as it is known. -/
def targetModule (d : Desc) (s : State) : Option Nat :=
  if d.phys then some (pgaModule d.target.toNat)
  else if d.op = 5 then (roleTarget d.job d.role s).map (·.1)
  else (rmLookup d.job d.region s).map (fun e => pgaModule e.base)

/-- A tile has raised 0x4083 for a run that has ended. -/
def tellPast (t : Nat) (tag : Word) (s : State) : State :=
  let mine := fun (x : SEntry) => x.desc.source = 0 && x.desc.tile = t && x.jobTag = tag && x.past = some false
  { s with stitch.table := s.stitch.table.map (fun p => (p.1, if mine p.2 then { p.2 with past := some true } else p.2)) }

/-- Event 0x4083, for tiles, once per tile per job run, the run that issued the operation (R198). -/
def opFailed (x : SEntry) (err : Nat) (s : State) : State :=
  let d := x.desc
  let tell := raise 0x4083 2 ([word d.job, x.jobTag, word d.tile, word d.op, word err, word x.module, word d.region]
    ++ dwords (unsignedOf 64 d.target))
  if d.source ≠ 0 then s
  else match x.past with
    | none => tellOnce d.tile 4 tell s
    | some true => s
    | some false => tell (tellPast d.tile x.jobTag s)

/-- A write-type operation to a region that has been translated, in part at least, is incomplete (R250). -/
def writesInFlight (j region : Nat) (s : State) : Bool :=
  s.stitch.table.any (fun p => incomplete p.2 && p.2.desc.source = 0 && !p.2.desc.phys && p.2.desc.job = j
    && p.2.desc.region = region && isWriteOp p.2.desc.op && p.2.sent.any (fun q => q.1 < 16)
    && !((List.range (segments p.2.desc)).all (fun k => p.2.done.contains k)))

/-- The mirror engine or Yarler asks the shared pool (R185). -/
def askPool (who purpose : Nat) (d : Desc) (s : State) : State :=
  { s with stitch.waitList := s.stitch.waitList ++ [{ who := who, at0 := s.clk, desc := d, purpose := purpose }] }

/-! Yarler's operations for a move (R155, R250). -/

/-- The Management-class put that carries an update or acknowledgement of a move to another Yarler: its place in the
management space, its length and its bytes are free values (R155, R250; log 42). -/
def moveNote (m : Nat) (tag : Word) (k phase base newBase : Nat) (s : State) : State :=
  let n := s.fresh
  let bs := (List.range (4 * (Config.freeNat n % 16384 + 1))).map (fun i =>
    Config.moveByte (tag, k, phase, base, newBase) i)
  askPool 65 6 { op := 1, phys := true, cls := 3, source := 2, len := bs.length,
                 target := pga m 3 (Config.freeNat (n + 1) % 2 ^ 32), localPa := Config.stagingPa s.stitch.issued m,
                 data := bs } (useFresh 2 s)

/-- An acknowledgement of a drain, phase 2, or of a flip, phase 0, goes to the home of a region (R250). -/
def sendAck (home : Nat) (tag : Word) (k phase : Nat) (s : State) : State :=
  moveNote home tag k (4 + phase) 0 0 (emit (.moveAck home tag k phase) s)

/-- Yarler asks for the next operation of the copy of a move: a Management-class put of at most 64 KiB, read at its
local address as each segment is sent (R155, R172, R185, R250; log 44). -/
def copyAsk (s : State) : State :=
  match s.place.move with
  | none => s
  | some m => match m.todo with
    | [] => s
    | (off, n) :: l =>
      let left := if n ≤ 65536 then l else (off + 65536, n - 65536) :: l
      askPool 65 5 { op := 1, phys := true, cls := 3, source := 2, len := min n 65536, target := (m.newBase + off : Nat),
                     localPa := m.oldBase + off } { s with place.move := some { m with todo := left } }

/-- Bytes of the copy that an ended operation did not carry are copied by another (R250; log 44). -/
def copyAgain (d : Desc) (s : State) : State :=
  match s.place.move with
  | none => s
  | some m =>
    let s' := { s with place.move := some { m with todo := m.todo ++ [(d.localPa - m.oldBase, d.len)] } }
    if s.stitch.waitList.any (fun w => w.purpose = 5) then s' else copyAsk s'

/-- Every byte of the copy of a move has been copied: its operations have completed (R250). -/
def copyDone (m : Move) (s : State) : Bool :=
  m.todo.isEmpty && !s.stitch.waitList.any (fun w => w.purpose = 5)
    && !s.stitch.table.any (fun p => p.2.purpose = 5 && incomplete p.2)

/-- The copy of a move that aborts: what has not been sent is not; an operation of which a segment is on its way ends
with its responses, its segments unsent (R252; log 44). -/
def dropCopy (s : State) : State :=
  let stop := fun (x : SEntry) => if x.purpose ≠ 5 then x
    else if x.sent.isEmpty then { gen := x.gen } else { x with purpose := 0, error := if x.error = 0 then 2 else x.error }
  { s with stitch.waitList := s.stitch.waitList.filter (fun w => w.purpose ≠ 5)
           stitch.table := s.stitch.table.map (fun p => (p.1, stop p.2)) }

/-- Yarler asks for the next read of a restore, in the Management class (R155, R390). -/
def restoreAsk (s : State) : State :=
  match s.resil.restore with
  | none => s
  | some x => match x.todo with
    | [] => s
    | (off, pa, n) :: l =>
      askPool 65 7 { op := 3, phys := true, cls := 3, source := 2, len := n,
                     target := pga (s.resil.buddy.getD 0) 0 (s.resil.storeBase + off), localPa := pa }
        { s with resil.restore := some { x with todo := l } }

/-- Drain acknowledgements that nothing keeps any more are sent (R250). -/
def sendAcks (s : State) : State :=
  let quiet := fun (a : Nat × Word × Nat) => match jobOfTag a.2.1 s with
    | some j => !writesInFlight j a.2.2 s
    | none => true
  let s' := { s with place.owedAcks := s.place.owedAcks.filter (fun a => !quiet a) }
  forAll (s.place.owedAcks.filter quiet) (fun a => sendAck a.1 a.2.1 a.2.2 2) s'

/-- Destination bytes of segments that were sent and never accepted are undefined (R196; log 10). -/
def freeUndelivered (x : SEntry) (s : State) : State :=
  let d := x.desc
  if d.source = 0 && (d.op = 3 || isFetching d.op) then
    freeRanges d.tile ((x.sent.filter (fun p => !x.done.contains p.1)).map
      (fun p => (d.localOff + 4096 * p.1, segLen d p.1))) s
  else s

/-- What follows when an operation has ended (R151, R250). -/
def afterOp (s : State) : State := settleStops (sendAcks s)

/-- An operation ends in an error: event, entry freed or quarantined, and the role faults or the copy fails
(R187, R190, R195, R385). `q` is the quarantine, in ticks. -/
def failOp (e : Nat) (q : Option Nat) (s : State) : State :=
  let x := entryOf s e
  let s := freeUndelivered x (opFailed x x.error s)
  let s := match q with
    | none => freeEntry e s
    | some n => modEntry e (fun x => { x with cond := .quarantine, quarantine := some (s.clk, n), purpose := 0 }) s
  let s := if 1 ≤ x.purpose && x.purpose ≤ 3 then copyFail 1 x.error s
    else if x.purpose = 5 then copyAgain x.desc s
    else if x.purpose = 7 then { s with resil.restore := s.resil.restore.map (fun r => { r with error := x.error }) }
    else if x.desc.source = 0 && !x.orphan then roleFault x.desc.tile 0x0A x.step s else s
  afterOp s

/-- An operation completes without error (R160, R161). -/
def completeOp (e : Nat) (s : State) : State :=
  let x := entryOf s e
  let s := freeEntry e s
  let s := match x.desc.cmpl with
    | some n => if x.desc.source = 0 then bumpTally x.desc.tile n s else s
    | none => s
  let s := if x.purpose = 3 then sealDone x.desc s else s
  afterOp s

/-- The initiator records the first error of an operation, which ends when nothing is awaited (R195). -/
def recordError (e code : Nat) (s : State) : State :=
  let s := modEntry e (fun x => { x with error := if x.error = 0 then code else x.error }) s
  let x := entryOf s e
  if x.sent.all (fun p => x.done.contains p.1) then failOp e none s else s

/-- The packet of an operation that goes to a module, without its bytes. -/
def opPacket (d : Desc) (dest : Nat) (s : State) : Pkt :=
  { cls := d.cls, dest := dest, src := ownId s, tag := if d.source = 0 then (jobOf s d.job).tag else 0 }

/-- A module can be reached (R275). -/
def reaches (d : Desc) (m : Nat) (s : State) : Bool := (openRoute (opPacket d m s) s).isSome

/-- The error that ends an operation before any packet leaves (R133, R159, R164, R171, R275). -/
def preError (d : Desc) (s : State) : Option Nat :=
  let k := elemSize d.op
  let range := match rmLookup d.job d.region s with
    | some e => d.target < 0 || 2 ^ 40 ≤ d.target || (e.size : Int) < d.target + d.len
    | none => false
  let route := match targetModule d s with
    | some m => !reaches d m s
    | none => false
  let sigRoute := d.op = 2 && match roleTarget d.job d.role s with
    | some m => !reaches d m.1 s
    | none => false
  if !d.phys && d.op ≠ 5 && range then some 0x11
  else if k ≠ 0 && (d.target % k ≠ 0 || d.localOff % k ≠ 0 || (isFetching d.op && d.localOff % 8 ≠ 0)) then some 0x12
  else if route || sigRoute then some 0x10
  else if isFetching d.op && sramUe d.tile d.localOff (footprint d.op d.len) s then some 0x13
  else none

/-- An operation takes an entry (R172, R181, R185, R188). -/
def takeEntry (e who step purpose : Nat) (d : Desc) (s : State) : State :=
  let x := entryOf s e
  let s := setEntry e { cond := .waiting, gen := (x.gen + 1) % 16, desc := d, owner := who, issuedNs := s.tmu.ns,
                        order := s.stitch.issued, step := step, purpose := purpose, jobTag := (jobOf s d.job).tag,
                        module := (targetModule d s).getD 0,
                        limits := (ticksUs s.fabric.torusUs, ticksUs s.fabric.eyeletUs) } s
  let s := { s with stitch.issued := s.stitch.issued + 1, stitch.peak := max s.stitch.peak (sharedHeld s) }
  match preError d s with
  | some code => recordError e code s
  | none => if mustHold e s then modEntry e (fun x => { x with cond := .held }) s else s

/-- An operation takes an entry; of a tile, it may spoil the steps that run there (R117). -/
def startOp (e who step purpose : Nat) (d : Desc) (s : State) : State :=
  let s := takeEntry e who step purpose d s
  if who < 64 && incomplete (entryOf s e) then spoilUnits who d s else s

/-! STITCH. -/

/-- A STITCH step issues: its fault, its entry, or its wait for one (R115, R131, R141, R185). -/
def stitchIssue (t : Nat) (st : BitVec 256) (s : State) : State :=
  match formDesc t st s with
  | .error c => stepFault t c s
  | .ok d =>
    let step := (tileOf s t).pc
    let s := if isFetching d.op then
        useFresh 1 (sramTouch t readerSend d.localOff (footprint d.op d.len) s) else s
    match freeIn (128 * t) 128 s with
    | some e => startOp e t step 0 d (goOn t s)
    | none =>
      { modTile t (fun x => { x with hold := .entry }) s with
        stitch.waitList := s.stitch.waitList ++ [{ who := t, at0 := s.clk, desc := d, step := step }] }

/-- STITCH, R131. -/
def execStitch (tile : Fin 64) (flaws : List Flaw) (s : State) : Host.Outcome State Fault Refusal :=
  sends (fun s => issue 3 tile (stitchIssue tile) (inject flaws s)) s

/-! STITCH_ENTRY_GRANT. -/

/-- A waiter may be served from the pool (R186). -/
def underCap (s : State) (w : Waiter) : Bool := sharedOf w.who s < sharedCap w.who

/-- The requesters of the pool, by initiator; the age of each is that of its oldest request (R185). -/
def poolClaims (l : List Waiter) : List Claim :=
  ((List.range 66).filter (fun i => l.any (fun w => w.who = i))).map (fun i => { req := i, cls := 0, units := 1 })

/-- The pool's arbiter with the ages of the requests that wait. -/
def poolArb (l : List Waiter) (s : State) : Arb :=
  { s.stitch.pool with
    heads := l.foldr (fun w t => tset none t w.who (some w.at0)) [] }

/-- A waiter leaves the list. -/
def dropWaiter (who : Nat) : List Waiter → List Waiter
  | [] => []
  | w :: l => if w.who = who then l else w :: dropWaiter who l

/-- A waiter receives an entry; a tile's sequencer goes on, and the copy of a move asks for its next operation
(R115, R185, R250). -/
def grantTo (e : Nat) (w : Waiter) (s : State) : State :=
  let s := { s with stitch.waitList := dropWaiter w.who s.stitch.waitList }
  let s := if w.who < 64 then goOn w.who s else if w.purpose = 5 then copyAsk s
    else if w.purpose = 7 then restoreAsk s else s
  startOp e w.who w.step w.purpose w.desc s

/-- A waiting tile whose own range has a free entry again takes it (R185, R186; log 42). -/
def ownGrant (s : State) : Option (Nat × Waiter) :=
  s.stitch.waitList.findSome? (fun w =>
    if w.who < 64 then (freeIn (128 * w.who) 128 s).map (fun e => (e, w)) else none)

/-- The pool serves one waiting request (R185, R186). -/
def poolGrant (s : State) : State :=
  let l := s.stitch.waitList.filter (underCap s)
  match freeIn 8192 8192 s, l with
  | some e, _ :: _ =>
    match (poolArb l s).grant s.clk s.fabric.ptr0 66 (fun _ => 1) (poolClaims l) with
    | none => s
    | some (c, a) => match l.find? (fun w => w.who = c.req) with
      | none => s
      | some w => grantTo e w { s with stitch.pool := a }
  | _, _ => s

/-- A waiting request receives an entry (R185). -/
def entryGrant (s : State) : State :=
  match ownGrant s with
  | some (e, w) => grantTo e w s
  | none => poolGrant s

/-! STITCH_SEGMENT_SEND. -/

/-- The sequence word of a packet (R177). -/
def seqWord (e gen part : Nat) : Nat :=
  e + 2 ^ 14 * gen + (if part = 16 then 2 ^ 23 else 2 ^ 18 * part)

/-- The physical global address that a part goes to; none is NOT_BOUND (R169, R170, R247, R248). -/
def partDest (d : Desc) (part : Nat) (s : State) : Option Nat :=
  if d.phys then some (d.target.toNat + 4096 * part)
  else if part = 16 || d.op = 5 then
    (roleTarget d.job d.role s).map (fun m => pga m.1 2 (64 * m.2 + d.sigTally))
  else (rmLookup d.job d.region s).map (fun e => e.base + d.target.toNat + 4096 * part)

/-- Bytes of the payload read from a segment's place at the initiator; an operation whose payload is its
operands, or that has none, reads nothing (R174). -/
def sendsData (d : Desc) (part : Nat) : Bool := part ≠ 16 && (d.op = 1 || d.op = 2 || isPlainAtomic d.op)

/-- The tile SRAM bytes of a payload: free where a detached step writes them, or another incomplete operation reads or
writes them (R117). -/
def sendBytes (e t off n : Nat) (s : State) : List Byte :=
  let x := tileOf s t
  let hz := (match x.matrixOp with | some o => o.outs | none => [])
    ++ (match x.vectorOp with | some o => o.outs | none => [])
    ++ (tileOps t s).filterMap (fun p =>
      if p.1 ≠ e then localRange p.2.desc else none)
  (sramBytes t off n s).mapIdx (fun i b => if inRanges hz (off + i) then Config.freeByte s.fresh (off + i) else b)

/-- The memory of a range of this module, by the physical global address. -/
def rangePlace (pa n : Nat) (s : State) : Option Place0 :=
  if pgaSpace pa = 0 then (spans (pgaOff pa) n s).map Place0.dram
  else some (.sram (pgaTile (pgaOff pa)) (pgaSram (pgaOff pa)))

/-- The memory that a segment of the copy of a move is read from (R250). -/
def copyPlace (d : Desc) (part : Nat) (s : State) : Option Place0 := rangePlace (d.localPa + 4096 * part) (segLen d part) s

/-- Yarler's read of a range, with its events and its share of the channel (R217, R220, R228, R230). -/
def copyTouch (p : Place0) (n : Nat) (s : State) : State :=
  match p with
  | .dram l => piecesTouch readerYarler l (chargePieces atYarler 3 l s)
  | .sram t off => sramTouch t readerYarler off n s
  | _ => s

/-- The payload of a part (R159, R174, R250). -/
def payloadOf (e : Nat) (d : Desc) (part : Nat) (s : State) : List Byte :=
  if sendsData d part then
    if d.source = 0 then sendBytes e d.tile (d.localOff + 4096 * part) (segLen d part) s
    else if (entryOf s e).purpose = 5 then match copyPlace d part s with
      | some p => hitBytes p (segLen d part) s
      | none => []
    else (d.data.drop (4096 * part)).take (segLen d part)
  else if isFetching d.op then
    leBytes d.opA.toNat (elemSize d.op)
      ++ (if d.op = 0x34 || d.op = 0x35 then leBytes d.opB.toNat (elemSize d.op) else [])
  else []

/-- The bytes of a request packet (R175, R178, R179). -/
def requestBytes (own e : Nat) (x : SEntry) (part dest : Nat) (payload : List Byte) : List Byte :=
  let d := x.desc
  let seq := seqWord e x.gen part
  let n := if part = 16 || d.op = 5 then 4 else segLen d part
  withCheck (foldPrefix (pgaModule dest) seq dest)
    (leBytes (d.op + 64 * d.cls + 256 * (segments d - 1) + 4096 * b2n (part = 16)) 4 ++ leBytes seq 4
      ++ leBytes (own + 2 ^ 16 * (if d.source = 0 then d.tile else 0) + 2 ^ 22 * d.source + 2 ^ 24 * d.job) 4
      ++ leBytes (n - 1) 4 ++ leBytes dest 8 ++ payload)

/-- Send a part whose destination is known: LOCAL_UE, NO_ROUTE, or the packet with its timer (R189, R196,
R275). -/
def sendPart (e part dest : Nat) (s : State) : State :=
  let x := entryOf s e
  let d := x.desc
  let p := opPacket d (pgaModule dest) s
  let reads := sendsData d part && d.source = 0
  let off := d.localOff + 4096 * part
  let n := segLen d part
  if reads && sramUe d.tile off n s then recordError e 0x13 (sramTouch d.tile readerSend off n s)
  else if x.sent.isEmpty && !reaches d (pgaModule dest) s then recordError e 0x10 s
  else
    let bytes := requestBytes (ownId s) e x part dest (payloadOf e d part s)
    let eye := match sourceRoute p s with
      | some (q, h) => q.exitEn || (match h with | .eyelet _ => true | _ => false)
      | none => false
    let s := if reads then useFresh 1 (sramTouch d.tile readerSend off n s)
      else match (if x.purpose = 5 then copyPlace d part s else none) with
        | some p => copyTouch p n s
        | none => s
    let s := modEntry e (fun x => { x with sent := tset none x.sent part (some (s.clk, eye)), eyelet := x.eyelet || eye,
                                           toDram := x.toDram || pgaSpace dest = 0 }) s
    sendOut (if d.source = 0 then d.tile else if d.source = 1 then atMirror else atYarler) { p with bytes := bytes } s

/-- A part of an operation is to be sent: neither sent yet nor kept by an error or, a signal, by its data (R162, R195). -/
def segmentDue (e part : Nat) (s : State) : Bool :=
  let x := entryOf s e
  x.cond = .waiting && x.error = 0 && (partsOf x.desc).contains part && tget none x.sent part = none
    && (part ≠ 16 || (List.range (segments x.desc)).all (fun k => x.done.contains k))

/-- A part of an operation is sent, or ends it in NOT_BOUND; a write-type operation of which nothing has been
translated before a drain is held (R162, R170, R173, R195, R248, R251). -/
def segmentSend (e part : Nat) (s : State) : State :=
  let x := entryOf s e
  let d := x.desc
  if !segmentDue e part s then s
  else if x.sent.isEmpty && mustHold e s then modEntry e (fun x => { x with cond := .held }) s
  else match partDest d part s with
    | none => recordError e 1 s
    | some dest => sendPart e part dest s

/-- HELD_OPERATION_RELEASE: nothing keeps a held operation any more (R181, R251). -/
def heldRelease (e : Nat) (s : State) : State :=
  if (entryOf s e).cond = .held && !mustHold e s then modEntry e (fun x => { x with cond := .waiting }) s else s

def execHeldOperationRelease (tag : Fin 16384) (s : State) : Host.Outcome State Fault Refusal :=
  sends (heldRelease tag) s

/-! STITCH_RESPONSE_RECEIVE. -/

/-- Count one of R199's numbers. -/
def countStitch (k : Nat) (s : State) : State :=
  { s with stitch.counts := tset 0 s.stitch.counts k (tget 0 s.stitch.counts k + 1) }

/-- A late response (R191, R198). -/
def lateResponse (p : Pkt) (seq : Nat) (s : State) : State :=
  raiseLimited 0x4080 2 p.src (ticksMs 100) 1 (fun n => [word p.src, word (seq % 2 ^ 18), word n]) (countStitch 0 s)

/-- The bytes of a read of the mirror engine or Yarler come: the header of the store, or what a restore reads, in its last
stage into the memory of the region (R155, R160, R384, R390). -/
def readArrives (x : SEntry) (part : Nat) (bs : List Byte) (s : State) : State :=
  if x.purpose = 1 then { s with resil.copy := s.resil.copy.map (fun c => { c with header := some bs }) }
  else if x.purpose = 7 then match s.resil.restore with
    | none => s
    | some r =>
      if r.stage ≠ 4 then { s with resil.restore := some { r with got := r.got ++ [bs] } }
      else match copyPlace x.desc part s with
        | some (.dram l) =>
          let s := forAll ((piecePages l).map (fun p => p.1 * 2 ^ 22 + p.2)) stagePage s
          piecesWrite true readerYarler l bs (chargePieces atYarler 3 l s)
        | _ => s
  else s

/-- A part is accepted: its payload is written, or its error recorded (R160, R191, R195, R196). -/
def acceptPart (e part status : Nat) (payload : List Byte) (s : State) : State :=
  let s := modEntry e (fun x => { x with done := x.done ++ [part] }) s
  let d := (entryOf s e).desc
  let off := d.localOff + 4096 * part
  let n := if isFetching d.op then elemSize d.op else segLen d part
  let fills := d.source = 0 && (d.op = 3 || isFetching d.op)
  if status ≠ 0 then
    recordError e status (if fills && status = 2 then freeRanges d.tile [(off, n)] s else s)
  else
    let s := if fills then sramWrite d.tile off (payload.take n) s
      else if d.op = 3 then readArrives (entryOf s e) part (payload.take n) s else s
    let x := entryOf s e
    if x.error ≠ 0 then recordError e x.error s
    else if (partsOf d).all (fun k => x.done.contains k) then completeOp e s
    else if d.op = 2 then segmentSend e 16 s else s

/-- The oldest response is handled in the order of R191. -/
def responseReceive (s : State) : State :=
  let s := nextResponse s
  match s.fabric.inResp with
  | [] => s
  | p :: rest =>
    let s := { s with fabric.inResp := rest }
    let seq := bytesAt p.bytes 4 4
    let e := seq % 2 ^ 14
    let x := entryOf s e
    let sig := seq / 2 ^ 23 % 2 = 1
    let part := if sig then 16 else seq / 2 ^ 18 % 16
    if x.cond ≠ .waiting || x.gen ≠ seq / 2 ^ 14 % 16 then lateResponse p seq s
    else if !(20 ≤ p.bytes.length && checkGood (foldPrefix (ownId s) (seq % 2 ^ 24) x.desc.op) p.bytes) then
      raiseLimited 0x4082 2 p.src (ticksMs 100) 1 (fun n => [word p.src, word e, word n]) (countStitch 2 s)
    else if tget none x.sent part = none || x.done.contains part then lateResponse p seq s
    else acceptPart e part (bytesAt p.bytes 0 1) ((p.bytes.drop 16).take (p.bytes.length - 20)) s

/-! Timeouts (R189, R190). -/

/-- The timeout of a path in ticks, as it was when the operation was issued (R189, R289). -/
def timeoutTicks (eye : Bool) (x : SEntry) : Nat := if eye then x.limits.2 else x.limits.1

/-- The first part of an operation whose timer has expired. -/
def expired (x : SEntry) (s : State) : Option Bool :=
  x.sent.findSome? (fun p => match p.2 with
    | some (t, eye) => if !x.done.contains p.1 && timeoutTicks eye x ≤ since t s then some eye else none
    | none => none)

/-- A response for an operation has arrived: its timer is treated as stopped (R190). -/
def answerHere (e : Nat) (s : State) : Bool :=
  s.fabric.inResp.any (fun p =>
    bytesAt p.bytes 4 2 % 2 ^ 14 = e && bytesAt p.bytes 4 4 / 2 ^ 14 % 16 = (entryOf s e).gen)

/-- A segment timer has reached its timeout (R187, R190, R199). -/
def stitchTimeout (e : Nat) (s : State) : State :=
  let x := entryOf s e
  if x.cond ≠ .waiting || answerHere e s then s
  else match expired x s with
    | none => s
    | some eye =>
      let s := countStitch (if eye then 4 else 3) s
      let s := modEntry e (fun x => { x with error := if x.error = 0 then 0x20 else x.error }) s
      failOp e (some (timeoutTicks eye x)) s

/-- QUARANTINE_END: the quarantine has lasted as long as the timeout that expired (R187). -/
def quarantineEnd (e : Nat) (s : State) : State :=
  match (entryOf s e).quarantine with
  | some (t, n) => if (entryOf s e).cond = .quarantine && n ≤ since t s then freeEntry e s else s
  | none => s

def execQuarantineEnd (tag : Fin 16384) (s : State) : Host.Outcome State Fault Refusal := fed (quarantineEnd tag) s

end Sys2Proof.Machine
end

