-- ==== Sys2Proof/Machine/Sequencer.lean ====
section
/-! DEFINITION. WAIT, TIMEWAIT, LOOP, FENCE and END, and the start of a job (R118 to R121, R134 to R140,
R144 to R147, R150, R154). -/

namespace Sys2Proof.Machine

/-! WAIT (R119, R120, R134). -/

/-- A tally meets a target (R120). -/
def tallyMeets (t v : Word) : Bool := (t - v).toNat < 2 ^ 31

/-- A wait that is met: the target is consumed where asked, and the sequencer goes on (R119, R134). -/
def passWait (t tally : Nat) (target : Word) (consume : Bool) (s : State) : State :=
  let s := if consume then
      modTile t (fun x => { x with tallies := tset 0 x.tallies tally (tget 0 x.tallies tally - target) }) s
    else s
  goOn t s

/-- The tally of a tile meets a target. -/
def metNow (t tally : Nat) (target : Word) (s : State) : Bool := tallyMeets (tget 0 (tileOf s t).tallies tally) target

/-- A WAIT step issues (R134). -/
def waitIssue (t : Nat) (st : BitVec 256) (s : State) : State :=
  let tally := sf st 2 0 6
  let target := stepWord st 3 + BitVec.ofInt 32 (nextStep (tileOf s t) st 0)
  let consume := sb st 2 6
  if metNow t tally target s then passWait t tally target consume s
  else modTile t (fun x => { x with hold := .wait tally target consume (sf st 4 0 24) (siteNow s) }) s

/-- WAIT, R134. -/
def execWait (tile : Fin 64) (s : State) : Host.Outcome State Fault Refusal :=
  fed (issue 4 tile (waitIssue tile)) s

/-- WAIT_MET: the tested tally meets the target (R120). -/
def waitMet (t : Nat) (s : State) : State :=
  match (tileOf s t).hold with
  | .wait tally target consume _ _ => if metNow t tally target s then passWait t tally target consume s else s
  | _ => s

def execWaitMet (tile : Fin 64) (s : State) : Host.Outcome State Fault Refusal := fed (waitMet tile) s

/-- WAIT_TIMEOUT: the timeout has passed, in Sitetime, and the wait is not met (R134, R141). -/
def waitTimeout (t : Nat) (s : State) : State :=
  match (tileOf s t).hold with
  | .wait tally target _ us since =>
    if us ≠ 0 && (1000 * us : Nat) ≤ siteDiff (siteNow s) since && !metNow t tally target s then stepFault t 8 s
    else s
  | _ => s

def execWaitTimeout (tile : Fin 64) (s : State) : Host.Outcome State Fault Refusal := fed (waitTimeout tile) s

/-! TIMEWAIT (R135 to R137). -/

/-- A target lies ahead of Sitetime (R136). -/
def ahead (target : Word) (s : State) : Bool := 2 ^ 31 ≤ (s.tmu.ns - target).toNat

/-- The base of a TIMEWAIT target (R135). -/
def timeBase (x : Tile) (start : Word) : Nat → Word
  | 0 => start
  | 1 => x.prevTarget
  | _ => 0

/-- A TIMEWAIT step issues: it holds, goes on, goes on late with event 0x3014, or faults (R135 to R137). -/
def timewaitIssue (t : Nat) (st : BitVec 256) (s : State) : State :=
  let x := tileOf s t
  let j := x.job.getD 0
  let target := timeBase x (jobOf s j).startNs (sf st 2 0 2) + stepWord st 3
  let by' := (s.tmu.ns - target).toNat
  let s := modTile t (fun x => { x with prevTarget := target }) s
  if ahead target s then modTile t (fun x => { x with hold := .time target }) s
  else if by' ≤ (stepWord st 4).toNat then goOn t s
  else if sb st 2 2 then stepFault t 9 s
  else goOn t (tellOnce t 3 (raise 0x3014 2 [word j, word t, word x.pc, word by']) s)

/-- TIMEWAIT, R135. -/
def execTimewait (tile : Fin 64) (s : State) : Host.Outcome State Fault Refusal :=
  fed (issue 7 tile (timewaitIssue tile)) s

/-- TIMEWAIT_RELEASE: Sitetime has reached the target (R136, R137). -/
def timewaitRelease (t : Nat) (s : State) : State :=
  match (tileOf s t).hold with
  | .time target => if ahead target s then s else goOn t s
  | _ => s

def execTimewaitRelease (tile : Fin 64) (s : State) : Host.Outcome State Fault Refusal := fed (timewaitRelease tile) s

/-! LOOP (R138). -/

/-- A LOOP step. -/
def loopIssue (t : Nat) (st : BitVec 256) (s : State) : State :=
  let level := sf st 2 12 2
  let c := tget 0 (tileOf s t).loops level
  if c = sf st 3 0 16 then goOn t (modTile t (fun x => { x with loops := tset 0 x.loops level 0 }) s)
  else modTile t (fun x => { x with loops := tset 0 x.loops level ((c + 1) % 65536), pc := sf st 2 0 12 }) s

/-- LOOP, R138. -/
def execLoop (tile : Fin 64) (s : State) : Host.Outcome State Fault Refusal :=
  fed (issue 5 tile (loopIssue tile)) s

/-! FENCE and END (R139, R140). -/

/-- What wait bits ask for is met: bit 0 Stitch operations, 1 matrix unit, 2 vector unit (R139). -/
def fenceMet (t bits : Nat) (s : State) : Bool :=
  let x := tileOf s t
  (bits % 2 = 0 || (tileOps t s).isEmpty) && (bits / 2 % 2 = 0 || x.matrixOp.isNone)
    && (bits / 4 % 2 = 0 || x.vectorOp.isNone)

/-- The flags of a tile as FENCE and JOB_STATUS give them (R139). -/
def tileFlags (x : Tile) : Nat := bitsNat [x.nan, x.ovf, x.ternInv]

/-- What a fence does after its waits: copy the flags to a line, clear them, go on (R139). -/
def fenceAct (t bits line : Nat) (s : State) : State :=
  let s := if bits / 8 % 2 = 1 then sramWrite t (64 * line) (leBytes (tileFlags (tileOf s t)) 64) s else s
  let s := if bits / 16 % 2 = 1 then modTile t (fun x => { x with nan := false, ovf := false, ternInv := false }) s else s
  goOn t s

/-- A FENCE step issues (R139, R141). -/
def fenceIssue (t : Nat) (st : BitVec 256) (s : State) : State :=
  let bits := sf st 2 0 5
  let line := sf st 3 0 17
  if sb st 2 3 && !inSram (64 * line : Nat) 64 then stepFault t 6 s
  else if fenceMet t bits s then fenceAct t bits line s
  else modTile t (fun x => { x with hold := .fence bits line }) s

/-- FENCE, R139. -/
def execFence (tile : Fin 64) (s : State) : Host.Outcome State Fault Refusal :=
  fed (issue 6 tile (fenceIssue tile)) s

/-- FENCE_RELEASE: the waits of a fence are met (R139). -/
def fenceRelease (t : Nat) (s : State) : State :=
  match (tileOf s t).hold with
  | .fence bits line => if fenceMet t bits s then fenceAct t bits line s else s
  | _ => s

def execFenceRelease (tile : Fin 64) (s : State) : Host.Outcome State Fault Refusal := fed (fenceRelease tile) s

/-- END, R140: the sequencer waits as at a fence of all three bits. -/
def execEndStep (tile : Fin 64) (s : State) : Host.Outcome State Fault Refusal :=
  fed (issue 0 tile (fun st => modTile tile (fun x => { x with hold := .ending (sf st 2 0 16) }))) s

/-- ROLE_END: the wait of an END is met; the role ends, and with the last of them the job (R140, R147). -/
def roleEnd (t : Nat) (s : State) : State :=
  match (tileOf s t).hold, (tileOf s t).job with
  | .ending code, some j =>
    if fenceMet t 7 s then
      let s := modTile t (fun x => { x with run := .ended, hold := .none, exitCode := code }) s
      jobDone j (modJob j (fun x => { x with exitCode := if x.exitCode = 0 then code else x.exitCode }) s)
    else s
  | _, _ => s

def execRoleEnd (tile : Fin 64) (s : State) : Host.Outcome State Fault Refusal := fed (roleEnd tile) s

/-! The start of a job (R67, R144 to R147, R150). -/

/-- A tile is cleared, loaded and seeded for a start at an instant, in the order of R146. -/
def prepareTile (t : Nat) (seed ns : Word) (p : Pattern) (s : State) : State :=
  let s := sramZero t 0 sramSize s
  let s := modTile t (fun x => { x with
    run := .running, pc := 0, hold := .none, tallies := [], loops := [], prevTarget := ns
    lfsr := lfsrSeed seed (x.role.getD 0), nan := false, ovf := false, ternInv := false
    matrixOp := none, vectorOp := none, acc := [], vregs := [], exitCode := 0
    prog := p.steps, group := p.group, told := 0 }) s
  if p.preload.isEmpty then s else sramWrite t p.preOff p.preload s

/-- A job starts at an instant: Running, event 0x3010; Done at once when no role is bound here (R145 to R147,
R154). -/
def startJob (j : Nat) (ns : Word) (s : State) : State :=
  let x := jobOf s j
  let s := forAll (roleTiles j s) (fun t s => match patternOf x (roleOf t s) with
    | some p => prepareTile t x.seed ns p s
    | none => s) (endRun j s)
  let s := modJob j (fun x => { x with startNs := ns, fault := none, exitCode := 0, entry := none, firing := false,
                                       stopping := none, cycles := 0, waitCycles := 0, memCycles := 0 }) s
  let s := changeStatus j .running s
  jobDone j (reevaluate 0x3010 (raise 0x3010 1 [word j, x.tag, ns] s))

/-- JOB_START_INSTANT: the start entry of a job that is Firing has come to its instant (R146, R150, R372). -/
def jobStartInstant (j : Nat) (s : State) : State :=
  let x := jobOf s j
  match x.entry with
  | some i =>
    if x.status = .armed && x.firing then
      spend i false (startJob j ((schedOf s i).instant.setWidth 32) s)
    else s
  | none => s

def execJobStartInstant (job : Fin 16) (s : State) : Host.Outcome State Fault Refusal := fed (jobStartInstant job) s

end Sys2Proof.Machine
end

