-- ==== Sys2Proof/Machine/Jobs.lean ====
section
/-! DEFINITION. The job commands but JOB_RELEASE (R142, R144, R149 to R153, R244, R388). -/

namespace Sys2Proof.Machine

/-- The job of a request. -/
def reqJob (r : Req) : Nat := rf r 2 0 4

/-- The status of the job of a request is one of a list (R30). -/
def jobIs (l : List JobStatus) (r : Req) (s : State) : Bool := l.contains (jobOf s (reqJob r)).status

/-- JOB_DEFINE. -/
def jobDefineCmd : Cmd where
  op := 0x0201
  len := (· = 6)
  unadmitted := []
  object := fun r s => need (jobIs [.free] r s) .wrongState
  args := fun r s => firstOf [need (zeroFrom r 2 4 && zeroFrom r 3 18) .badArg,
    need (jobNos.all (fun j => j = reqJob r || (jobOf s j).status = .free || (jobOf s j).tag ≠ rw r 5)) .badArg]
  run := fun r s =>
    let j := reqJob r
    let s := setJob j { nRoles := rf r 3 0 18 + 1, seed := rw r 4, tag := rw r 5 } s
    .ok (changeStatus j .defined s)

def execJobDefine (r : Req) (s : State) : Host.Outcome State Fault Refusal := .next (runCmd jobDefineCmd r s)

/-! JOB_LOAD_PATTERN. -/

/-- Steps from the bytes of a buffer (R4, R122). -/
def stepsOf : Nat → List Byte → List (BitVec 256)
  | 0, _ => []
  | n + 1, bs => BitVec.ofNat 256 (leNat (bs.take 32)) :: stepsOf n (bs.drop 32)

/-- Bytes of the Pattern store that a Pattern takes. -/
def patternBytes (p : Pattern) : Nat := 32 * p.steps.length + p.preload.length

/-- Bytes of the Pattern store in use, but for one Pattern of one job. -/
def storeUsed (j k : Nat) (s : State) : Nat :=
  (s.jobs.map (fun x => (x.2.patterns.map (fun p =>
    if x.1 = j && p.1 = k then 0 else match p.2 with
      | some q => patternBytes q
      | none => 0)).sum)).sum

/-- A preload buffer is given. -/
def hasPreload (r : Req) : Bool := !zeroWords r 11 14

/-- A range of roles meets another Pattern of the job. -/
def patternClash (x : Job) (k first last : Nat) : Bool :=
  x.patterns.any (fun p => p.1 ≠ k && match p.2 with
    | some q => q.first ≤ last && first ≤ q.last
    | none => false)

/-- The arguments of JOB_LOAD_PATTERN but for the contents of its buffers. -/
def loadOk (r : Req) (s : State) : Bool :=
  let x := jobOf s (reqJob r)
  let n := rf r 3 0 13
  let g := rf r 6 0 18 + 1
  zeroFrom r 2 10 && zeroFrom r 3 13 && zeroFrom r 4 18 && zeroFrom r 5 18 && zeroFrom r 6 18 && zeroFrom r 15 23
    && 1 ≤ n && n ≤ 4096 && rf r 4 0 18 ≤ rf r 5 0 18 && rf r 5 0 18 < x.nRoles
    && !patternClash x (rf r 2 4 6) (rf r 4 0 18) (rf r 5 0 18) && x.nRoles % g = 0
    && bulkOk r 7 && 32 * n ≤ bulkLen r 7 && rf r 15 0 23 % 64 = 0
    && (!hasPreload r || (bulkOk r 11 && rf r 15 0 23 + bulkLen r 11 ≤ sramSize))

/-- The words of a BAD_ARG that no step gave. -/
def noStep : List Word := [0xFFF, 0]

/-- The Pattern of a request. -/
def patternOfReq (r : Req) : Pattern :=
  { first := rf r 4 0 18, last := rf r 5 0 18, group := rf r 6 0 18 + 1,
    steps := stepsOf (rf r 3 0 13) (bulkBytes r 0 7),
    preload := if hasPreload r then bulkBytes r 1 11 else [], preOff := rf r 15 0 23 }

/-- JOB_LOAD_PATTERN. -/
def jobLoadPatternCmd : Cmd where
  op := 0x0202
  len := (· = 16)
  unadmitted := []
  badHeader := noStep
  object := fun r s => need (!jobIs [.free, .armed, .running] r s) .wrongState
  args := fun r s => if loadOk r s then none else some (.badArg, noStep)
  run := fun r s =>
    let j := reqJob r
    let k := rf r 2 4 6
    let p := patternOfReq r
    if !dmaGood r 0 then dmaFailed 0x0202 r 7 noStep s
    else if hasPreload r && !dmaGood r 1 then dmaFailed 0x0202 r 11 noStep s
    else match checkSteps (jobOf s j).nRoles p.steps with
      | some (i, c) => .of .badArg [word i, word c] s
      | none =>
        if 134217728 < storeUsed j k s + patternBytes p then .of .noResource [] s
        else .ok (modJob j (fun x => { x with patterns := tset none x.patterns k (some p) }) s)

def execJobLoadPattern (r : Req) (s : State) : Host.Outcome State Fault Refusal := .next (runCmd jobLoadPatternCmd r s)

/-! JOB_START. -/

/-- A watched peer is lost (R388). -/
def peerLost (m : Nat) (s : State) : Bool := s.resil.peers.any (fun p => p.id = m && p.lost)

/-- Remote roles of a job not yet imported (PLACE_JOB roles_open). -/
def rolesOpen (x : Job) (s : State) : Nat :=
  ((List.range x.nRoles).filter (fun r => homeOf x r ≠ some (ownId s) && (roleEnt x r).pin.isNone)).length

/-- The remote regions of a job not yet imported (PLACE_JOB regions_open). -/
def regionsOpen (x : Job) : Nat :=
  (x.regions.filter (fun p => match p.2 with
    | some q => q.kind = 3 && q.imported.isNone
    | none => false)).length

/-- A role or region of a job has a lost peer as home (R388). -/
def namesLost (x : Job) (s : State) : Bool :=
  (s.resil.peers.filter (·.lost)).any (fun p =>
    x.homes.any (fun h => h.2.2 = p.id && (List.range (h.2.1 + 1 - h.1)).any (fun k => homeOf x (h.1 + k) = some p.id))
      || x.regions.any (fun q => match q.2 with
        | some g => g.kind = 3 && g.home = p.id
        | none => false))

/-- A job is placed (R244, R388). -/
def jobPlaced (x : Job) (s : State) : Bool :=
  x.placed && rolesOpen x s = 0 && regionsOpen x = 0 && !namesLost x s

/-- A reason of JOB_START's WRONG_STATE. -/
def noStart (b : Bool) (reason : Nat) : Option (Status × List Word) :=
  if b then none else some (.wrongState, [word reason])

/-- JOB_START: reasons in the order 5, 4, 1, 2, 3. -/
def jobStartCmd : Cmd where
  op := 0x0203
  len := (· = 4)
  unadmitted := [5]
  object := fun r s =>
    let x := jobOf s (reqJob r)
    firstOf [noStart (operating s && mayRun s) 5, noStart (!s.glb.maint) 4,
      noStart (jobIs [.defined, .done, .stopped, .faulted] r s) 1, noStart (jobPlaced x s) 2,
      noStart ((roleTiles (reqJob r) s).all (fun t => (patternOf x (roleOf t s)).isSome)) 3]
  args := fun r _ => need (zeroFrom r 2 5 && (rb r 2 4 || rw r 3 = 0)) .badArg
  run := fun r s =>
    let j := reqJob r
    if rb r 2 4 then
      match armWith 2 10000000 (rw r 3) false j 0 s with
      | .error st => .of st [] s
      | .ok (i, s') =>
        .of .accepted [(schedOf s' i).seq.setWidth 32]
          (changeStatus j .armed (modJob j (fun x => { x with entry := some i, firing := false }) s'))
    else .ok (startJob j s.tmu.ns s)

def execJobStart (r : Req) (s : State) : Host.Outcome State Fault Refusal := .next (runCmd jobStartCmd r s)

/-! JOB_STOP (R151, R152). -/

/-- The armed start of a job is no more: the job returns to Defined (R151, R375). -/
def unarmJob (j : Nat) (s : State) : State :=
  changeStatus j .defined (modJob j (fun x => { x with entry := none, firing := false }) s)

/-- JOB_STOP. -/
def jobStopCmd : Cmd where
  op := 0x0204
  len := (· = 3)
  unadmitted := []
  object := fun r s => firstOf [need (!jobIs [.free, .defined] r s) .wrongState,
    need (!(jobIs [.armed] r s && (jobOf s (reqJob r)).firing)) .busy]
  args := fun r _ => need (zeroFrom r 2 4) .badArg
  run := fun r s =>
    let j := reqJob r
    let x := jobOf s j
    match x.status with
    | .armed => .ok (unarmJob j (match x.entry with
      | some i => disarmEntry i s
      | none => s))
    | .running =>
      let n := match x.stopping with
        | some n => n
        | none => (runningTiles j s).length
      let s := modJob j (fun x => { x with stopping := some n }) (stopRoles j s)
      if jobQuiet j s then .ok (settleStops s) else .later s
    | _ => .ok s

def execJobStop (r : Req) (s : State) : Host.Outcome State Fault Refusal := .next (runCmd jobStopCmd r s)

/-! JOB_STATUS. -/

/-- A share in units of 2^-16. -/
def share (part whole : Nat) : Nat := if whole = 0 then 0 else min 65535 (part * 65536 / whole)

/-- The bit mask of tiles, as two words. -/
def tileMask (l : List Nat) : List Word := dwords (bitsNat (tileNos.map (fun t => l.contains t)))

/-- The number of a job status (R144). -/
def jobCode : JobStatus → Nat
  | .free => 0 | .defined => 1 | .armed => 2 | .running => 3 | .done => 4 | .stopped => 5 | .faulted => 6

/-- The condition of a tile (JOB_STATUS cond). -/
def tileCond (x : Tile) : Nat :=
  match x.run with
  | .ended => 0
  | .idle => 7
  | .running => match x.hold with
    | .none => match x.prog[x.pc]? with
      | some st => if (kindOf st = 1 && x.matrixOp.isSome) || (kindOf st = 2 && x.vectorOp.isSome) then 5 else 1
      | none => 1
    | .matrix => 5
    | .vector => 5
    | .entry => 6
    | .wait _ _ _ _ _ => 2
    | .time _ => 3
    | .fence _ _ => 4
    | .ending _ => 4

/-- The detail words 14 to 17. -/
def detailWords (x : Tile) : List Word :=
  [word (x.pc % 4096 + 4096 * tileCond x), word (tileFlags x),
   word (tget 0 x.loops 0 + 65536 * tget 0 x.loops 1), word (tget 0 x.loops 2 + 65536 * tget 0 x.loops 3)]

/-- The words of a job's status. -/
def jobStatusWords (j : Nat) (detail : Option Nat) (s : State) : List Word :=
  let x := jobOf s j
  let roles := roleTiles j s
  let count := fun (r : Run) => (roles.filter (fun t => (tileOf s t).run = r)).length
  let f : JobFault := x.fault.getD {}
  let flagged := (tilesOf j s).filter (fun t => tileFlags (tileOf s t) ≠ 0)
  [word (jobCode x.status), word (roles.length + 256 * count .running + 65536 * count .ended),
   word (f.code + 256 * f.tile + 16384 * f.step), word f.role,
   word ((tilesOf j s).foldl (fun m t => m ||| tileFlags (tileOf s t)) 0)]
    ++ tileMask (tilesOf j s) ++ tileMask flagged
    ++ [word x.exitCode, x.startNs,
        word (share x.waitCycles x.cycles + 65536 * share x.memCycles x.waitCycles)]
    ++ (match detail with
        | some t => detailWords (tileOf s t)
        | none => [0, 0, 0, 0])

/-- JOB_STATUS. -/
def jobStatusCmd : Cmd where
  op := 0x0205
  len := (· = 3)
  unadmitted := []
  object := fun r s => need (!jobIs [.free] r s) .wrongState
  args := fun r s => firstOf [need (zeroFrom r 2 11) .badArg,
    need (!rb r 2 4 || (tileOf s (rf r 2 5 6)).job = some (reqJob r)) .badArg]
  run := fun r s => .of .ok (jobStatusWords (reqJob r) (if rb r 2 4 then some (rf r 2 5 6) else none) s) s

def execJobStatus (r : Req) (s : State) : Host.Outcome State Fault Refusal := .next (runCmd jobStatusCmd r s)

/-! JOB_TALLY_READ (R153). -/

/-- The tile of a role bound here. -/
def tileOfRole (j role : Nat) (s : State) : Option Nat := (roleTiles j s).find? (fun t => (tileOf s t).role = some role)

/-- JOB_TALLY_READ. -/
def jobTallyReadCmd : Cmd where
  op := 0x0207
  len := (· = 4)
  unadmitted := []
  object := fun r s => need (!jobIs [.free, .defined] r s) .wrongState
  args := fun r s => firstOf [need (zeroFrom r 2 4 && zeroFrom r 3 18) .badArg,
    need (rf r 3 0 18 < (jobOf s (reqJob r)).nRoles && (tileOfRole (reqJob r) (rf r 3 0 18) s).isSome) .badArg]
  run := fun r s => match tileOfRole (reqJob r) (rf r 3 0 18) s with
    | some t => .of .ok ((List.range 64).map (fun k => tget 0 (tileOf s t).tallies k)) s
    | none => .of .badArg [] s

def execJobTallyRead (r : Req) (s : State) : Host.Outcome State Fault Refusal := .next (runCmd jobTallyReadCmd r s)

end Sys2Proof.Machine
end

