-- ==== Sys2Proof/Machine/Calibration.lean ====
section
/-! DEFINITION. Monitors and calibration (R337 to R350). -/

namespace Sys2Proof.Machine

/-- Readings of a kind, as MONITOR_READ indexes them (R337). -/
def kindCount (kind : Nat) : Nat :=
  match kind with
  | 0 => 7680 | 1 => 96 | 2 => 48 | 3 => 3840 | 4 => 2 | 5 => 320 | _ => 0

/-- µV in Q16.16 volts. -/
def microvolts (uV : Int) : Q := rneDiv (uV * 65536) 1000000

/-- The value that MONITOR_READ gives (R337); band-gaps come from the compare of R339. -/
def monitorValue (kind index : Nat) (s : State) : Q :=
  if kind = 4 then microvolts (if index = 0 then s.mon.bg0 else s.mon.bg1)
  else if kind = 5 && 160 ≤ index && index < 192 then qi (-128)
  else reading kind index s

/-- A correction of the reading, or of the ADC that converts it, is being slewed in (MONITOR_READ). -/
def slewing (kind index : Nat) (s : State) : Bool :=
  s.mon.corr.any (fun e =>
    (if e.1 / 131072 = 0 then kind ≠ 3 && kind ≠ 4 && e.1 % 8192 = scanGroup kind index
     else e.1 / 131072 ≠ 5 && e.1 % 65536 = rdKey kind index)
    && match e.2 with
      | some x => x.n < 256
      | none => false)

/-- MONITOR_READ. -/
def monitorReadCmd : Cmd where
  op := 0x0703
  len := (· = 3)
  unadmitted := []
  object := fun _ _ => none
  args := fun r _ => need (zeroFrom r 2 24 && rf r 2 0 3 ≤ 5 && 1 ≤ rf r 2 16 8
    && rf r 2 3 13 + rf r 2 16 8 ≤ kindCount (rf r 2 0 3)) .badArg
  run := fun r s =>
    let kind := rf r 2 0 3
    .of .ok ((List.range (rf r 2 16 8)).flatMap (fun k =>
      let i := rf r 2 3 13 + k
      [qWord (monitorValue kind i s), word (b2n (isStale kind i s) + 2 * b2n (slewing kind i s))])) s

def execMonitorRead (r : Req) (s : State) : Host.Outcome State Fault Refusal := .next (runCmd monitorReadCmd r s)

/-! The progress of a run (R340, R342). -/

/-- The next procedure of a mask from a bit on, 6 when there is none; HEAT and FF are skipped while the Welt is
unpowered (CAL_RUN). -/
def nextProc (mask from_ : Nat) (s : State) : Nat :=
  ((List.range 6).find? (fun b => from_ ≤ b && mask / 2 ^ b % 2 = 1 && (b < 4 || s.welt.powered))).getD 6

/-- A procedure of the run begins. -/
def beginProc (p : Nat) (s : State) : State :=
  { s with mon := { s.mon with proc := p, procAt := s.clk, heldOnce := [], heldHeat := [] } }

/-- The readings that a procedure measures, each stale for one scan: TEMP, VOLT and TAP (R340). -/
def measured (proc : Nat) : List Nat :=
  match proc with
  | 1 => (List.range 96).map (rdKey 1)
  | 2 => (List.range 48).map (rdKey 2)
  | 3 => (List.range 7680).map (rdKey 0) ++ inletTaps.map (rdKey 5)
  | _ => []

/-- The run moves on: from REF when its 32 ADCs have had 60 µs each, from TEMP, VOLT and TAP when each of their readings
has been held once, from HEAT and FF at a free moment of 2 ms (R340, R342; log 32). -/
def runProgress (s : State) : State :=
  if s.mon.running = 0 || s.mon.proc = 6 then s
  else if s.mon.proc = 0 then
    if ticksUs 1920 ≤ since s.mon.procAt s then beginProc (nextProc s.mon.running 1 s) s else s
  else if s.mon.proc < 4 then
    if (measured s.mon.proc).all (fun k => s.mon.heldOnce.contains k) then
      beginProc (nextProc s.mon.running (s.mon.proc + 1) s) s
    else s
  else if ticksMs 2 ≤ since s.mon.procAt s || Config.freeNat s.fresh % 2 = 1 then useFresh 1 (beginProc (nextProc s.mon.running (s.mon.proc + 1) s) s)
  else useFresh 1 s

/-! The scan (R338, R345, R346). -/

/-- REF measures the ADC of a group now: the ADCs in ascending order, 60 µs each (R340; log 32). -/
def refHolds (group : Nat) (s : State) : Bool :=
  s.mon.running ≠ 0 && s.mon.proc = 0 && since s.mon.procAt s / ticksUs 60 = group

/-- TEMP, VOLT or TAP holds a reading in this scan: each once, in a free scan of the first 5 ms of the procedure (R340;
log 32). -/
def procHolds (key : Nat) (s : State) : Bool :=
  let kind := key / 8192
  s.mon.running ≠ 0
    && (if s.mon.proc = 1 then kind = 1 else if s.mon.proc = 2 then kind = 2
        else s.mon.proc = 3 && (kind = 0 || kind = 5))
    && !s.mon.heldOnce.contains key && (ticksMs 5 ≤ since s.mon.procAt s || Config.calHolds s.fresh key)

/-- The taps of a group, as keys (R338). -/
def groupTaps (group : Nat) : List Nat :=
  ((List.range 7680).filter (fun i => scanGroup 0 i = group)).map (rdKey 0)
    ++ (inletTaps.filter (fun i => scanGroup 5 i = group)).map (rdKey 5)

/-- The temperature and voltage channels of a group, as keys (R338). -/
def groupSlow (group : Nat) : List Nat :=
  ((List.range 96).filter (fun i => scanGroup 1 i = group)).map (rdKey 1)
    ++ ((List.range 48).filter (fun i => scanGroup 2 i = group)).map (rdKey 2)

/-- The turns of a group's slow conversions: two for a temperature sensor, of which the second gives the reading, one
for a voltage monitor (R338). -/
def slowTurns (group : Nat) : List (Option Nat) :=
  (groupSlow group).flatMap (fun k => if k / 8192 = 1 then [none, some k] else [some k])

/-- The reading that the slow conversion of this scan renews (R338). -/
def slowReading (group : Nat) (s : State) : Option Nat :=
  ((slowTurns group)[tget 0 s.mon.slow group % (slowTurns group).length]?).getD none

/-- The stale flag of a reading. -/
def setStale (key : Nat) (b : Bool) (s : State) : State := { s with mon.stale := tset false s.mon.stale key b }

/-- A conversion of the scan: its value is delivered, or the last one is held with the stale flag (R345). A reading
that the operand does not list has the value that it had. -/
def deliverReading (group : Nat) (l : List Reading) (key : Nat) (s : State) : State :=
  if refHolds group s then setStale key true s
  else if procHolds key s then
    useFresh 1 (setStale key true { s with mon.heldOnce := s.mon.heldOnce ++ [key] })
  else
    let s := useFresh 1 (setStale key false s)
    match l.find? (fun x => rdKey x.kind.val x.index = key) with
    | some x => { s with mon.values := tset none s.mon.values key (some x.value) }
    | none => s

/-- MONITOR_SCAN: a scan of a group converts each of its taps once and makes one slow conversion (R338). The temperature
and voltage readings that the last scan held are delivered again. -/
def monitorScan (group : Nat) (l : List Reading) (s : State) : State :=
  let s := runProgress s
  let s := forAll (groupSlow group) (fun k => setStale k (refHolds group s)) s
  let s := forAll (groupTaps group ++ (slowReading group s).toList) (deliverReading group l) s
  let s := { s with mon.slow := tset 0 s.mon.slow group (tget 0 s.mon.slow group + 1) }
  stepSlews (groupItem group) s

def execMonitorScan (group : Fin 32) (readings : List Reading) (s : State) : Host.Outcome State Fault Refusal :=
  live (monitorScan group readings) s

/-! Band-gaps (R339). -/

/-- The band-gaps differ by more than 2.4 mV. -/
def bgApart (s : State) : Bool := 2400 < (s.mon.bg1 - s.mon.bg0).natAbs

/-- BANDGAP_COMPARE (R339). -/
def bandgapCompare (a b : Int) (s : State) : State :=
  let s := { s with mon.bg0 := a, mon.bg1 := b }
  if bgApart s then { s with mon.bgSince := s.mon.bgSince.or (some s.clk) }
  else { s with mon.bgSince := none, mon.bgTold := false }

def execBandgapCompare (bg0uV bg1uV : Int) (s : State) : Host.Outcome State Fault Refusal :=
  live (bandgapCompare bg0uV bg1uV) s

/-- BANDGAP_FAIL: the difference has lasted 10 ms (R339). -/
def bandgapFail (s : State) : State :=
  match s.mon.bgSince with
  | some t =>
    if ticksMs 10 ≤ since t s && !s.mon.bgTold then
      reevaluate 0x6002 (raise 0x6002 3 [sword s.mon.bg0, sword s.mon.bg1]
        { s with mon.bgTold := true, mon.failed := s.mon.failed ||| 1 })
    else s
  | none => s

def execBandgapFail (s : State) : Host.Outcome State Fault Refusal := live bandgapFail s

/-! Starting a run (R342 to R344). -/

/-- A run starts with its first procedure. -/
def startRun (mask : Nat) (trigger : CalTrigger) (s : State) : State :=
  beginProc (nextProc mask 0 s) { s with mon.running := mask, mon.trigger := trigger, mon.deferred := none }

/-- A run is in progress or deferred. -/
def calBusy (s : State) : Bool := s.mon.running ≠ 0 || s.mon.deferred.isSome

/-- CAL_RUN. -/
def calRunCmd : Cmd where
  op := 0x0701
  len := (· = 3)
  unadmitted := []
  object := fun _ _ => none
  args := fun r s => firstOf [need (zeroFrom r 2 6 && rf r 2 0 6 ≠ 0) .badArg, need (!calBusy s) .busy]
  run := fun r s => .of .accepted [] (startRun (rf r 2 0 6) .command s)

def execCalRun (r : Req) (s : State) : Host.Outcome State Fault Refusal := .next (runCmd calRunCmd r s)

/-- A relace is incomplete, or a commit entry is armed to fire within 20 ms (R344). -/
def relaceNear (s : State) : Bool :=
  s.welt.relace.isSome || s.sched.entries.any (fun e => e.2.st = .armed && e.2.action = 1
    && siteDiff e.2.instant (siteNow s) ≤ 20000000)

/-- The first sensor that has drifted by more than 15 °C since the last TEMP run (R343). -/
def drifted (s : State) : Option (Nat × Q) :=
  s.mon.lastTemp.findSome? (fun e => match e.2 with
    | some t => if qi 15 < (reading 1 e.1 s - t).natAbs then some (e.1, t) else none
    | none => none)

/-- CAL_DRIFT_TEST (R343, R344). -/
def calDriftTest (s : State) : State :=
  if calBusy s then s
  else match drifted s with
    | some (i, t) =>
      let s := raise 0x6004 1 [word i, qWord (reading 1 i s), qWord t] s
      if relaceNear s then { s with mon.deferred := some s.clk } else startRun 63 .drift s
    | none => s

def execCalDriftTest (s : State) : Host.Outcome State Fault Refusal := live calDriftTest s

/-- CAL_DEFERRED_START (R344). -/
def calDeferredStart (s : State) : State :=
  match s.mon.deferred with
  | some t => if !relaceNear s || ticksS 10 ≤ since t s then startRun 63 .drift s else s
  | none => s

def execCalDeferredStart (s : State) : Host.Outcome State Fault Refusal := live calDeferredStart s

/-! The end of a run (R339 to R342, R346, R348). -/

/-- A fresh slew towards a new correction (R346). -/
def newCorrection (key : Nat) (v : Q) (s : State) : State :=
  { s with mon.corr := tset none s.mon.corr key (some { old := itemInUse key s, new := v, n := 0 }) }

/-- The key of a measured item. -/
def itemKey (x : CalItem) : Nat := corrKey x.proc x.gain x.kind x.index

/-- An item of the record's sections: REF, TEMP, VOLT, TAP or HEAT (R347). -/
def itemOk (x : CalItem) : Bool :=
  match x.proc.val with
  | 0 => x.kind = 0 && x.index < 32
  | 1 => x.kind = 1 && x.index < 96 && !x.gain
  | 2 => x.kind = 2 && x.index < 48 && !x.gain
  | 3 => (x.kind = 0 && x.index < 7680) || (x.kind = 5 && x.index < 320 && !(160 ≤ x.index && x.index < 192))
  | _ => x.kind = 3 && x.index < 3840 && !x.gain

/-- A value lies more than a percentage from another. -/
def farFrom (percent : Nat) (v w : Q) : Bool := percent * w.natAbs < 100 * (v - w).natAbs

/-- The "Fails when" column of R340 for a measured item. A nominal ADC gain is 1.0 (Q2.30). -/
def itemFails (x : CalItem) : Bool :=
  let factory := Config.factoryItem (itemKey x)
  match x.proc.val with
  | 0 => x.gain && farFrom 2 x.value (2 ^ 30)
  | 1 => (qi 5).natAbs < (x.value - factory).natAbs
  | 2 => farFrom 1 x.value factory
  | 3 => if x.gain then farFrom 5 x.value factory else 1024 < x.value.natAbs
  | _ => farFrom 20 x.value factory

/-- FF measures a cell that has been Locked in the item's target for at least 1 s: the mean of its last 256 drives
(R340). -/
def ffMean (i : Nat) (s : State) : Option Q :=
  let x := cellOf s (i / 2)
  match x.lockedAt with
  | some t => if ticksS 1 ≤ since t s && x.target = decide (i % 2 = 1) then some (rneDiv x.hist.sum x.hist.length) else none
  | none => none

/-- A new feed-forward lies more than 5 mW from the factory value at the present temperature (R340). -/
def ffFails (i : Nat) (s : State) : Bool :=
  match ffMean i s with
  | some v => (qi 5).natAbs < (v - factoryFf i s).natAbs
  | none => false

/-- The feed-forward items (R337, R347). -/
def ffItems : List Nat := List.range 7680

/-- FF ends: measured cells get their mean, unless it fails, the others their factory value (R340, R341). -/
def storeFf (s0 : State) : State :=
  forAll (ffItems.filter (fun i => !ffFails i s0))
    (fun i s => newCorrection (corrKey 5 false 0 i) ((ffMean i s0).getD (factoryFf i s0)) s) s0

/-- The first failing item of a procedure: kind, index and measured value (R341). Of the band-gap difference of REF it
is item 1 of kind 4, of FF the cell in kind 3; the kind of an ADC is free (log 32). -/
def firstFailing (p : Nat) (items : List CalItem) (s : State) : Option (Nat × Nat × Q) :=
  if p = 5 then
    match ffItems.find? (fun i => ffFails i s) with
    | some i => some (3, i / 2, (ffMean i s).getD 0)
    | none => none
  else if p = 0 && bgApart s then some (4, 1, microvolts s.mon.bg1)
  else match items.find? (fun x => x.proc.val = p && itemFails x) with
    | some x => some (if p = 0 then Config.freeNat s.fresh else x.kind, x.index, x.value)
    | none => none

/-- One procedure of a run ends (R341): its new values and its event; the flag says that it failed. -/
def endProcedure (items : List CalItem) (p : Nat) (a : State × Nat) : State × Nat :=
  let s0 := a.1
  let s := if p = 5 then storeFf s0
    else forAll (items.filter (fun x => x.proc.val = p && !itemFails x)) (fun x => newCorrection (itemKey x) x.value) s0
  match firstFailing p items s0 with
  | some (kind, index, v) => (useFresh 1 (raise 0x6003 2 [word p, word kind, word index, sword v] s), a.2 + 2 ^ p)
  | none => (s, a.2)

/-- The value of the trigger in event 0x6001 (R350). -/
def triggerCode : CalTrigger → Nat
  | .powerUp => 0 | .command => 1 | .drift => 2

/-- Everything that the power-up run waits for is ready: the module is in Boot or Migrate and runs no other (R343). -/
def startUpRun (s : State) : State :=
  if !s.mon.atStart && !calBusy s && (s.glb.state = .boot || s.glb.state = .migrate) then startRun 31 .powerUp s else s

/-- CAL_RUN_COMPLETE (R342): when the last procedure of the run is over, their results count in ascending bit order;
HEAT and FF are skipped while the Welt is unpowered (CAL_RUN). -/
def calRunComplete (items : List CalItem) (s : State) : State :=
  if s.mon.running = 0 || s.mon.proc ≠ 6 then s
  else
    let mask := s.mon.running
    let items := items.filter itemOk
    let skipped := if s.welt.powered then 0 else mask &&& 48
    let ran := (List.range 6).filter (fun b => mask / 2 ^ b % 2 = 1 && skipped / 2 ^ b % 2 = 0)
    let (s, failed) := ran.foldl (fun a p => endProcedure items p a) (s, 0)
    let ranMask := mask - skipped
    let temps := (List.range 96).map (fun i => (i, some (reading 1 i s)))
    let s := { s with mon := { s.mon with
      running := 0, proc := 6, stale := [], lastMask := mask,
      failed := ((63 - ranMask) &&& s.mon.failed) ||| failed,
      count := s.mon.count + 1, runCount := s.mon.count + 1, opsec := s.glb.opsec, pcycle := s.glb.pcycle,
      lastTemp := if ran.contains 1 then temps else s.mon.lastTemp, writeDue := true,
      atStart := s.mon.atStart || s.mon.trigger = .powerUp } }
    reevaluate 0x6001 (raise 0x6001 (if failed = 0 then 1 else 2)
      [word mask, word failed, word skipped, s.mon.count, word (triggerCode s.mon.trigger)] s)

/-! The stored record (R346 to R349). -/

/-- The record version that the running image writes (R424, R429, R437). -/
def recVersion (s : State) : Nat := max s.fw.calVersion (hdrCal s.fw.area.header)

/-- The record of the present values (R346, R347). -/
def calRecord (s : State) : CalRec :=
  { count := s.mon.runCount, opsec := s.mon.opsec, pcycle := s.mon.pcycle, failed := s.mon.failed, version := recVersion s,
    field := true, items := s.mon.corr.filterMap (fun e => e.2.map (fun x => (e.1, x.new))),
    temps := s.mon.lastTemp.filterMap (fun e => e.2.map (fun t => (e.1, t))) }

/-- An item of a record. -/
def calItem (r : CalRec) (key : Nat) : Int :=
  match r.items.find? (fun e => e.1 = key) with
  | some e => e.2
  | none => Config.factoryItem key

/-- The bytes of a number in two's complement, least significant first. -/
def intBytes (n : Nat) (x : Int) : List Byte := leBytes (unsignedOf (8 * n) x) n

/-- A tap of a record: the offset in codes and the gain, Q1.15, in one word (R347). -/
def tapBytes (r : CalRec) (kind index : Nat) : List Byte :=
  intBytes 2 (calItem r (corrKey 3 false kind index)) ++ intBytes 2 (calItem r (corrKey 3 true kind index))

/-- The sections of a record, in the order of the table of R347. -/
def calSections (r : CalRec) : List Byte :=
  (List.range 32).flatMap (fun i => intBytes 4 (calItem r (corrKey 0 false 0 i)) ++ intBytes 4 (calItem r (corrKey 0 true 0 i)))
  ++ (List.range 96).flatMap (fun i => intBytes 4 (calItem r (corrKey 1 false 1 i))
      ++ intBytes 4 (if r.field then (match r.temps.find? (fun e => e.1 = i) with
        | some e => e.2
        | none => 0) else Config.factorySlope i))
  ++ (List.range 48).flatMap (fun i => intBytes 4 (calItem r (corrKey 2 false 2 i)))
  ++ (List.range 7680).flatMap (tapBytes r 0)
  ++ inletTaps.flatMap (tapBytes r 5)
  ++ (List.range 3840).flatMap (fun i => intBytes 4 (calItem r (corrKey 4 false 3 i)))
  ++ ffItems.flatMap (fun i => intBytes 4 (calItem r (corrKey 5 false 0 i)))
  ++ (if r.field then [] else (List.range 3840).flatMap (fun i => intBytes 4 (Config.factoryTempco i)))

/-- The header and sections of a record (R347). -/
def calBody (r : CalRec) : List Byte :=
  let sections := calSections r
  wordsBytes ([0x43414C31, word (r.version % 65536 + 65536 * b2n r.field), word (64 + sections.length), r.count, r.opsec,
    r.pcycle.setWidth 32, word r.failed] ++ List.replicate 9 0) ++ sections

/-- The bytes of a slot that holds a good record: the record with its CRC-32C check word (R347). -/
def calBytes (r : CalRec) : List Byte := calBody r ++ leBytes (checkWord [] (calBody r)) 4

/-- The field slot that does not hold the current record (R348). -/
def otherSlot (s : State) : Nat := if s.mon.current = some 1 then 2 else 1

/-- A record is written to a field slot: a good one becomes current; a write that fails leaves the slot without a good
record, which check it fails being free (R348, R349; log 52). -/
def putRecord (ok : Bool) (r : CalRec) (s : State) : State :=
  let n := otherSlot s
  if ok then { s with mon := { s.mon with slots := tset none s.mon.slots n (some r), current := some n }
                      fw := { s.fw with calVersion := r.version } }
  else
    let bad := some { r with fault := some (Config.freeNat s.fresh % 3) }
    useFresh 1 (raise 0x6006 2 [word n, r.count] { s with mon := { s.mon with slots := tset none s.mon.slots n bad } })

/-- CAL_RECORD_WRITE (R348, R349): not before a migration that is due, which converts the older record first. -/
def calRecordWrite (ok : Bool) (s : State) : State :=
  if !s.mon.writeDue || (s.fw.migrateDue && !s.fw.converted) then s
  else putRecord ok (calRecord s) { s with mon := { s.mon with writeDue := false } }

def execCalRecordWrite (ok : Bool) (s : State) : Host.Outcome State Fault Refusal := live (calRecordWrite ok) s

/-- The largest drift since the last TEMP run (CAL_STATUS). -/
def largestDrift (s : State) : Q :=
  (s.mon.lastTemp.map (fun e => match e.2 with
    | some t => (((reading 1 e.1 s - t).natAbs : Nat) : Int)
    | none => 0)).foldl max 0

/-- CAL_STATUS. -/
def calStatusCmd : Cmd where
  op := 0x0702
  len := (· = 2)
  unadmitted := []
  object := fun _ _ => none
  args := fun _ _ => none
  run := fun _ s =>
    let m := s.mon
    let version := match m.current with
      | some n => (tget none m.slots n).map CalRec.version
      | none => none
    .of .ok
      [word (m.running + 64 * b2n m.deferred.isSome + 256 * m.lastMask + 65536 * m.failed
         + 2 ^ 24 * b2n m.current.isNone),
       m.count, m.opsec, m.pcycle.setWidth 32, word (version.getD 0), qWord (largestDrift s),
       sword (m.bg1 - m.bg0), word (m.stale.filter (·.2)).length] s

def execCalStatus (r : Req) (s : State) : Host.Outcome State Fault Refusal := .next (runCmd calStatusCmd r s)

end Sys2Proof.Machine
end

