-- ==== Sys2Proof/Machine/Placement.lean ====
section
/-! DEFINITION. Declaring, pinning and placing roles and regions (R235 to R249, R256, R383, R388). -/

namespace Sys2Proof.Machine

/-! What the commands ask of roles and regions. -/

/-- A declared region of a job. -/
def regionOf (j k : Nat) (s : State) : Option Region := tget none (jobOf s j).regions k

def setRegion (j k : Nat) (x : Option Region) (s : State) : State :=
  modJob j (fun q => { q with regions := tset none q.regions k x }) s

/-- The job statuses of R239. -/
def declStatus : List JobStatus := [.defined, .done, .stopped, .faulted]

/-- A region is placed: a declaration of it is refused. An imported region is not (R239, R388; log 65). -/
def regionHeld (x : Region) : Bool := x.base.isSome

/-- A role is bound: a declaration of it is refused. An imported role is not (R239, R388; log 65). -/
def roleHeld (x : Job) (role : Nat) : Bool := (roleEnt x role).bound.isSome

/-- Regions declared on the module across all jobs. -/
def regionCount (s : State) : Nat := (s.jobs.map (fun p => p.2.regions.length)).sum

/-- Role entries held on the module (ROLE_PIN). -/
def roleCount (s : State) : Nat := (s.jobs.map (fun p => p.2.roles.length)).sum

/-! REGION_DECLARE. -/

/-- The size of a declaration. -/
def declSize (r : Req) : Nat := (rw r 4).toNat + 2 ^ 32 * rf r 5 0 8

/-- The arguments of a REGION_DECLARE. -/
def declOk (r : Req) (s : State) : Bool :=
  let n := declSize r
  let kind := rf r 6 0 2
  let view := rf r 6 2 3
  zeroFrom r 2 4 && zeroFrom r 3 16 && zeroFrom r 5 8 && zeroFrom r 6 6 && zeroFrom r 7 16
    && n ≠ 0 && n % 64 = 0 && n ≤ 2 ^ 40 - 64 && kind ≠ 2 && (kind ≠ 0 || n ≤ sramSize)
    && (if kind = 1 then view ≠ 6 else view = 0)
    && (if kind = 3 then rf r 7 0 16 ≠ ownId s else rf r 7 0 16 = 0)

/-- REGION_DECLARE. -/
def regionDeclareCmd : Cmd where
  op := 0x0301
  len := (· = 8)
  unadmitted := []
  object := fun r s => need (jobIs declStatus r s && (match regionOf (reqJob r) (rf r 3 0 16) s with
    | some x => !regionHeld x
    | none => true)) .wrongState
  args := fun r s => need (declOk r s) .badArg
  run := fun r s =>
    let j := reqJob r
    let k := rf r 3 0 16
    if (regionOf j k s).isNone && 65536 ≤ regionCount s then .of .noResource [] s
    else
      let s := if (rmLookup j k s).isSome then rmMod j k (fun _ => {}) s else s
      let s := setRegion j k (some { size := declSize r, kind := rf r 6 0 2, view := rf r 6 2 3, movable := rb r 6 5,
                                     home := rf r 7 0 16 }) s
      .ok (modJob j (fun x => { x with placed := false }) s)

def execRegionDeclare (r : Req) (s : State) : Host.Outcome State Fault Refusal := .next (runCmd regionDeclareCmd r s)

/-! ROLE_DECLARE. -/

/-- The roles of a ROLE_DECLARE request. -/
def declRoles (r : Req) : List Nat := (List.range (rf r 4 0 18 + 1 - rf r 3 0 18)).map (· + rf r 3 0 18)

/-- ROLE_DECLARE. -/
def roleDeclareCmd : Cmd where
  op := 0x0302
  len := (· = 6)
  unadmitted := []
  object := fun r s => need (jobIs declStatus r s
    && (declRoles r).all (fun k => !roleHeld (jobOf s (reqJob r)) k)) .wrongState
  args := fun r s => firstOf [
    need (zeroFrom r 2 4 && zeroFrom r 3 18 && zeroFrom r 4 18 && zeroFrom r 5 16) .badArg,
    need (rf r 3 0 18 ≤ rf r 4 0 18 && rf r 4 0 18 < (jobOf s (reqJob r)).nRoles) .badArg]
  run := fun r s =>
    let l := declRoles r
    .ok (modJob (reqJob r) (fun x => { x with
      homes := (rf r 3 0 18, rf r 4 0 18, rf r 5 0 16) :: x.homes
      roles := x.roles.filter (fun p => !l.contains p.1)
      placed := false }) s)

def execRoleDeclare (r : Req) (s : State) : Host.Outcome State Fault Refusal := .next (runCmd roleDeclareCmd r s)

/-! Places (R211, R213, R241). -/

/-- Pages that a region in a view takes: first channel, ways, first page and one past the last (R213). -/
structure Extent where
  chan : Nat
  ways : Nat
  lo : Nat
  hi : Nat
deriving DecidableEq, Repr

/-- The extent of a region at a space-0 offset (R211, R213). -/
def extentOf (off size : Nat) (s : State) : Extent :=
  let w := viewWays (off / 2 ^ 42 % 8)
  let a := off % 2 ^ 42
  let lo := a % (w * cap s) / w / 65536
  { chan := a / (w * cap s) * w, ways := w, lo := lo, hi := lo + (size + w * 65536 - 1) / (w * 65536) }

/-- Two extents share a page. -/
def Extent.meets (a b : Extent) : Bool :=
  a.chan < b.chan + b.ways && b.chan < a.chan + a.ways && a.lo < b.hi && b.lo < a.hi

/-- The key of a page: channel and number. -/
def pageKey (c p : Nat) : Nat := c * 2 ^ 22 + p

/-- The pages of an extent. -/
def Extent.pages (a : Extent) : List Nat :=
  (List.range a.ways).flatMap (fun i => (List.range (a.hi - a.lo)).map (fun p => pageKey (a.chan + i) (a.lo + p)))

/-- An extent lies within installed memory, in service (R207, R209, R211). -/
def Extent.installed (a : Extent) (s : State) : Bool :=
  a.ways ≠ 0 && cap s ≠ 0 && a.chan + a.ways ≤ 12
    && (List.range a.ways).all (fun i => (chanOf s (a.chan + i)).inService)
    && a.hi * 65536 + 2 ^ 20 ≤ cap s

/-- The owners of an extent's pages. -/
def Extent.owners (a : Extent) (s : State) : List Nat :=
  (s.place.owned.filter (fun o => a.chan ≤ o.chan && o.chan < a.chan + a.ways && o.lo < a.hi && a.lo < o.hi)).map (·.job)

/-- The ownership map takes or loses an extent (R249). -/
def Extent.own (a : Extent) (j : Nat) (s : State) : State :=
  { s with place.owned := s.place.owned ++ (List.range a.ways).map (fun i => ⟨a.chan + i, a.lo, a.hi, j⟩) }
def Extent.disown (a : Extent) (j : Nat) (s : State) : State :=
  { s with place.owned := s.place.owned.filter (fun o =>
      !(o.job = j && o.lo = a.lo && o.hi = a.hi && a.chan ≤ o.chan && o.chan < a.chan + a.ways)) }

/-- The lowest free aligned place of a number of pages in a view: its space-0 offset (R241). -/
def freeView (view pages : Nat) (s : State) : Option Nat :=
  let w := viewWays view
  if w = 0 then none
  else (List.range (12 / w)).findSome? (fun k =>
    let ext := fun (lo : Nat) => ({ chan := k * w, ways := w, lo := lo, hi := lo + pages } : Extent)
    let starts := 0 :: (s.place.owned.filter (fun o => k * w ≤ o.chan && o.chan < k * w + w)).map (·.hi)
    let ok := starts.filter (fun lo => (ext lo).installed s && ((ext lo).owners s).isEmpty)
    match ok with
    | [] => none
    | a :: l => some (view * 2 ^ 42 + k * (w * cap s) + l.foldl min a * 65536 * w))

/-- The view of a region that the declaration leaves to the module (R213). -/
def defaultView (s : State) : Nat :=
  ([5, 4, 3, 2, 1].find? (fun v => (List.range (12 / viewWays v)).any (fun k => setInService v k s))).getD 0

/-- The view of a region. -/
def viewOf (x : Region) (s : State) : Nat := if x.view = 7 then defaultView s else x.view

/-- Pages per channel that a region takes in a view (R213). -/
def viewPages (view size : Nat) : Nat := (size + viewWays view * 65536 - 1) / (viewWays view * 65536)

/-- Serpentine order (R237). -/
def serpentine : List Nat :=
  (List.range 64).map (fun i => if i / 8 % 2 = 0 then i else i / 8 * 8 + (7 - i % 8))

/-- Ranges of a tile's SRAM that regions hold: placed regions of its job, the new place of a move and the old
place of a flipped one (R241, R250). -/
def tileUsed (t : Nat) (s : State) : List (Nat × Nat) :=
  let here := fun (pa n : Nat) => if pgaSpace pa = 1 && pgaTile (pgaOff pa) = t then some (pgaSram (pgaOff pa), n) else none
  let regions := s.jobs.flatMap (fun p => p.2.regions.filterMap (fun q => match q.2 with
    | some x => match x.base with
      | some b => here b x.size
      | none => none
    | none => none))
  let moving := match s.place.move with
    | some m => match rmLookup m.job m.region s with
      | some e => (here m.newBase e.size).toList
      | none => []
    | none => []
  regions ++ moving ++ s.place.settling.filterMap (fun x => here x.oldBase x.size)

/-- A range is free in a tile. -/
def tileFree (t off n : Nat) (s : State) : Bool :=
  off + n ≤ sramSize && (tileUsed t s).all (fun u => off + n ≤ u.1 || u.1 + u.2 ≤ off)

/-- The lowest 64 KiB-aligned offset with room beside ranges of a tile's SRAM (R241). -/
def rangeFit (used : List (Nat × Nat)) (n : Nat) : Option Nat :=
  let starts := 0 :: used.map (fun u => (u.1 + u.2 + 65535) / 65536 * 65536)
  match starts.filter (fun o => o + n ≤ sramSize && used.all (fun u => o + n ≤ u.1 || u.1 + u.2 ≤ o)) with
  | [] => none
  | a :: l => some (l.foldl min a)

/-- The same in a tile. -/
def tileFit (t n : Nat) (s : State) : Option Nat := rangeFit (tileUsed t s) n

/-! REGION_PIN. -/

/-- The address of a REGION_PIN or REGION_MOVE request from a word on. -/
def pinAddr (r : Req) (n : Nat) : Nat := (rw r n).toNat + 2 ^ 32 * (rw r (n + 1)).toNat

/-- The pin that a request asks for. -/
def pinOf (r : Req) : Pin :=
  match rf r 4 0 2 with
  | 0 => .inRole (rf r 5 0 18) (pinAddr r 6)
  | 1 => .mrdimm (pinAddr r 6)
  | 3 => .storage (rf r 4 2 6) (pinAddr r 6)
  | _ => .none

/-- Two pins of one job overlap. -/
def pinsMeet (a : Pin) (n : Nat) (b : Pin) (m : Nat) (s : State) : Bool :=
  match a, b with
  | .inRole r o, .inRole q p => r = q && o < p + m && p < o + n
  | .storage t o, .storage u p => t = u && o < p + m && p < o + n
  | .mrdimm x, .mrdimm y => (extentOf x n s).meets (extentOf y m s)
  | _, _ => false

/-- A pin keeps the rules of REGION_PIN for its region. -/
def pinOk (j k : Nat) (x : Region) (p : Pin) (s : State) : Bool :=
  let q := jobOf s j
  let clear := q.regions.all (fun e => e.1 = k || match e.2 with
    | some y => !pinsMeet p x.size y.pin y.size s
    | none => true)
  clear && match p with
    | .none => false
    | .inRole role off => x.kind = 0 && role < q.nRoles && homeOf q role = some (ownId s) && off % 64 = 0
        && off + x.size ≤ sramSize
    | .storage t off => x.kind = 0 && off % 64 = 0 && off + x.size ≤ sramSize
        && q.roles.all (fun e => !(e.2.pin = some t && homeOf q e.1 = some (ownId s)))
    | .mrdimm a =>
      let w := viewWays (a / 2 ^ 42)
      x.kind = 1 && w ≠ 0 && a % 2 ^ 42 % (w * 65536) = 0 && (x.view = 7 || x.view = a / 2 ^ 42)

/-- A local place is free for a job, and installed (REGION_PIN NO_RESOURCE). -/
def pinFree (j : Nat) (x : Region) (p : Pin) (s : State) : Bool :=
  match p with
  | .mrdimm a => (extentOf a x.size s).installed s && ((extentOf a x.size s).owners s).all (· = j)
  | .storage t _ => (tileOf s t).job.isNone || ((tileOf s t).job = some j && (tileOf s t).role.isNone)
  | _ => true

/-- The reserved fields of a REGION_PIN, by mode. -/
def pinFields (r : Req) : Bool :=
  zeroFrom r 2 4 && zeroFrom r 3 16 && zeroFrom r 4 8 && zeroFrom r 5 18
    && (rf r 4 0 2 = 3 || rf r 4 2 6 = 0) && (rf r 4 0 2 = 0 || rf r 5 0 18 = 0)

/-- An import keeps the rules of REGION_PIN. -/
def importOk (x : Region) (pa : Nat) : Bool := x.kind = 3 && pgaModule pa = x.home && pgaSpace pa ≤ 1

/-- The entry of an imported region (R246). -/
def importEntry (j k : Nat) (x : Region) (pa : Nat) : RmEntry :=
  { valid := true, place := if pgaSpace pa = 1 then 1 else 2, remote := true, job := j, region := k, size := x.size,
    base := pa }

/-- REGION_PIN. -/
def regionPinCmd : Cmd where
  op := 0x0303
  len := (· = 8)
  unadmitted := []
  object := fun r s => need (!jobIs [.free] r s && (rf r 4 0 2 = 2 || match regionOf (reqJob r) (rf r 3 0 16) s with
    | some x => x.base.isNone
    | none => true)) .wrongState
  args := fun r s => firstOf [need (pinFields r) .badArg,
    need (match regionOf (reqJob r) (rf r 3 0 16) s with
      | none => false
      | some x => if rf r 4 0 2 = 2 then importOk x (pinAddr r 6) else pinOk (reqJob r) (rf r 3 0 16) x (pinOf r) s) .badArg,
    need (match regionOf (reqJob r) (rf r 3 0 16) s with
      | none => false
      | some x => rf r 4 0 2 = 2 || pinFree (reqJob r) x (pinOf r) s) .noResource]
  run := fun r s =>
    let j := reqJob r
    let k := rf r 3 0 16
    match regionOf j k s with
    | none => .of .badArg [] s
    | some x =>
      if rf r 4 0 2 = 2 then
        let pa := pinAddr r 6
        .ok (rmMod j k (fun _ => importEntry j k x pa) (setRegion j k (some { x with imported := some pa }) s))
      else .ok (setRegion j k (some { x with pin := pinOf r }) s)

def execRegionPin (r : Req) (s : State) : Host.Outcome State Fault Refusal := .next (runCmd regionPinCmd r s)

/-! ROLE_PIN. -/

/-- A ROLE_PIN keeps its rules: the declared home, and a tile that no other role or storage pin names. -/
def rolePinOk (r : Req) (s : State) : Bool :=
  let x := jobOf s (reqJob r)
  let role := rf r 3 0 18
  let t := rf r 4 0 6
  let m := rf r 5 0 16
  zeroFrom r 2 4 && zeroFrom r 3 18 && zeroFrom r 4 6 && zeroFrom r 5 16 && role < x.nRoles && homeOf x role = some m
    && x.roles.all (fun e => e.1 = role || e.2.pin ≠ some t || homeOf x e.1 ≠ some m)
    && (m ≠ ownId s || x.regions.all (fun e => match e.2 with
        | some g => (match g.pin with | .storage u _ => u ≠ t | _ => true)
        | none => true))

/-- ROLE_PIN. -/
def rolePinCmd : Cmd where
  op := 0x0304
  len := (· = 6)
  unadmitted := []
  object := fun r s => need (!jobIs [.free] r s && (roleEnt (jobOf s (reqJob r)) (rf r 3 0 18)).bound.isNone) .wrongState
  args := fun r s => firstOf [need (rolePinOk r s) .badArg,
    need (rf r 5 0 16 ≠ ownId s || (tileOf s (rf r 4 0 6)).job.isNone || (tileOf s (rf r 4 0 6)).job = some (reqJob r))
      .noResource,
    need ((roleEnt (jobOf s (reqJob r)) (rf r 3 0 18)).pin.isSome || roleCount s < 65536) .noResource]
  run := fun r s =>
    let k := rf r 3 0 18
    .ok (modJob (reqJob r) (fun x => { x with roles := tset {} x.roles k { roleEnt x k with pin := some (rf r 4 0 6) } }) s)

def execRolePin (r : Req) (s : State) : Host.Outcome State Fault Refusal := .next (runCmd rolePinCmd r s)

/-! The image of a masked job at the buddy (R383). -/

/-- A physical global address in the store at the buddy. -/
def storeAt (off : Nat) (s : State) : Nat := pga (s.resil.buddy.getD 0) 0 (s.resil.storeBase + off)

/-- A put of the mirror engine (R155, R172). -/
def mirrorPut (off : Nat) (bs : List Byte) (s : State) : Desc :=
  { op := 1, phys := true, cls := 2, source := 1, len := bs.length, target := storeAt off s,
    localPa := Config.stagingPa s.stitch.issued off, data := bs }

/-- The bytes of a region table entry (R382). -/
def tableEntry (x : ImageRegion) : List Byte :=
  leBytes x.tag.toNat 4 ++ leBytes x.region 4 ++ leBytes x.size 8 ++ leBytes x.off 8
    ++ leBytes (x.since.getD 0xFFFFFFFF).toNat 4 ++ leBytes 0 4

/-- The mirror engine writes a region table entry at the buddy. -/
def putTable (slot : Nat) (bs : List Byte) (purpose : Nat) (s : State) : State :=
  askPool 64 purpose (mirrorPut (64 + 32 * slot) bs s) s

/-- The lowest aligned place in the image with room for a region and for all granules of its pages (R383, R384). -/
def imageFit (align size room : Nat) (s : State) : Option Nat :=
  let up := fun (n : Nat) => (n + align - 1) / align * align
  let starts := 0 :: s.resil.image.map (fun r => up (r.off + r.room))
  let ok := starts.filter (fun o => o + size ≤ s.resil.storeImage && o + room ≤ up s.resil.storeImage
    && s.resil.image.all (fun r => o + room ≤ r.off || r.off + r.room ≤ o))
  match ok with
  | [] => none
  | a :: l => some (l.foldl min a)

/-- Lay one region out in the image, or raise event 0x8004 (R383, R392). -/
def imageAdd (j k b : Nat) (x : Region) (s : State) : State :=
  if s.resil.image.any (fun r => r.job = j && r.region = k) then s
  else
    let tag := (jobOf s j).tag
    let place := extentOf (pgaOff b) x.size s
    let room := 65536 * (place.ways * (place.hi - place.lo))
    match imageFit (viewWays s.resil.storeView * 65536) x.size room s,
        (List.range 2046).find? (fun i => s.resil.image.all (fun r => r.slot ≠ i)) with
    | some o, some slot =>
      let e : ImageRegion := { tag := tag, job := j, region := k, size := x.size, off := o, room := room, slot := slot }
      putTable slot (tableEntry e) 0 { s with resil.image := s.resil.image ++ [e] }
    | none, _ => raise 0x8004 2 [word j, word k, 0] s
    | some _, none => raise 0x8004 2 [word j, word k, 1] s

/-- Lay out the MRDIMM regions of a masked job that the image lacks (R383). -/
def imageJob (j : Nat) (s : State) : State :=
  if s.resil.buddy.isSome && bit s.resil.jobMask j then
    forAll (jobOf s j).regions (fun e s => match e.2 with
      | some x => match x.base with
        | some b => if pgaSpace b = 0 then imageAdd j e.1 b x s else s
        | none => s
      | none => s) s
  else s

/-- A job's regions leave the image, and their table entries are cleared (R383). -/
def imageDrop (j : Nat) (s : State) : State :=
  let gone := s.resil.image.filter (fun r => r.job = j)
  forAll gone (fun r => putTable r.slot (List.replicate 32 0) 0)
    { s with resil.image := s.resil.image.filter (fun r => r.job ≠ j) }

/-! PLACE_JOB (R241 to R243). -/

/-- A step of a placement: the new state, or a reason of R243 with its detail. -/
abbrev Try := Except (Nat × Nat) State

/-- Steps for every element in turn, up to the first that fails. -/
def tryAll {β : Type} : List β → (β → State → Try) → State → Try
  | [], _, s => .ok s
  | x :: l, f, s => match f x s with
    | .ok s => tryAll l f s
    | .error e => .error e

/-- Steps in turn. -/
def tryThen (a : Try) (f : State → Try) : Try :=
  match a with
  | .ok s => f s
  | .error e => .error e

/-- The local roles of a job that are not bound. -/
def unboundRoles (j : Nat) (s : State) : List Nat :=
  let x := jobOf s j
  (List.range x.nRoles).filter (fun k => homeOf x k = some (ownId s) && (roleEnt x k).bound.isNone)

/-- The tiles that storage pins of unplaced regions name, with their regions (R241). -/
def storagePins (j : Nat) (s : State) : List (Nat × Nat) :=
  (jobOf s j).regions.filterMap (fun e => match e.2 with
    | some x => match x.pin with
      | .storage t _ => if x.base.isNone then some (t, e.1) else none
      | _ => none
    | none => none)

/-- Bind a role to a tile (R237). -/
def bindRole (j role t : Nat) (s : State) : State :=
  let s := setTile t { job := some j, role := some role } s
  modJob j (fun x => { x with roles := tset {} x.roles role { roleEnt x role with bound := some t } }) s

/-- A tile becomes a storage tile of a job (R238). -/
def bindStorage (j t : Nat) (s : State) : State := setTile t { job := some j } s

/-- A free tile. -/
def tileIdle (t : Nat) (s : State) : Bool := (tileOf s t).job.isNone

/-- Step 2, storage: the tile of a storage pin is taken or already the job's storage (reason 7). -/
def reserveStorage (j : Nat) (p : Nat × Nat) (s : State) : Try :=
  let x := tileOf s p.1
  if x.job.isNone then .ok (bindStorage j p.1 s)
  else if x.job = some j && x.role.isNone then .ok s
  else .error (7, p.2)

/-- Step 2, pinned roles (reason 7). -/
def bindPinned (j role : Nat) (s : State) : Try :=
  match (roleEnt (jobOf s j) role).pin with
  | some t => if tileIdle t s then .ok (bindRole j role t s) else .error (7, role % 65536)
  | none => .ok s

/-- Step 2, the other roles, in serpentine order. -/
def bindFree (j role : Nat) (s : State) : Try :=
  match serpentine.find? (fun t => tileIdle t s) with
  | some t => .ok (bindRole j role t s)
  | none => .error (1, 1)

/-- A region gets its place: ownership of MRDIMM pages, bytes zeroed, once the mirror engine has read those of them that are
pending (R238, R249, R380; log 43). -/
def putRegion (j k : Nat) (x : Region) (pa : Nat) (s : State) : State :=
  let off := pgaOff pa
  let s := setRegion j k (some { x with base := some pa }) s
  if pgaSpace pa = 1 then sramZero (pgaTile off) (pgaSram off) x.size s
  else
    let e := extentOf off x.size s
    let s := forAll e.pages stagePage s
    forAll (List.range e.ways) (fun i s =>
      setDirty (e.chan + i) (e.lo * 65536) ((e.hi - e.lo) * 65536)
        (dramZero (e.chan + i) (e.lo * 65536) ((e.hi - e.lo) * 65536) s)) (e.own j s)

/-- A physical global address of this module. -/
def ownPga (space off : Nat) (s : State) : Nat := pga (ownId s) space off

/-- A tile SRAM offset in space 1 (R168). -/
def sramOff (t off : Nat) : Nat := t * 2 ^ 23 + off

/-- Place a region in a tile, or fail for lack of room (reason 2). -/
def putInTile (j k : Nat) (x : Region) (t off : Nat) (s : State) : Try :=
  if tileFree t off x.size s then .ok (putRegion j k x (ownPga 1 (sramOff t off) s) s) else .error (2, k)

/-- Step 3: a pinned region. -/
def placePinned (j : Nat) (e : Nat × Region) (s : State) : Try :=
  let (k, x) := e
  match x.pin with
  | .none => .ok s
  | .inRole role off => match (roleEnt (jobOf s j) role).bound with
    | some t => putInTile j k x t off s
    | none => .error (7, k)
  | .storage t off => putInTile j k x t off s
  | .mrdimm a =>
    let ext := extentOf a x.size s
    if (ext.owners s).any (· ≠ j) then .error (7, k)
    else if !ext.installed s || !(ext.owners s).isEmpty then .error (3, k)
    else .ok (putRegion j k x (ownPga 0 a s) s)

/-- The storage tiles of a job, in the order in which the Lastmaker takes them (R238). -/
def storageTiles (j : Nat) (s : State) : List Nat :=
  serpentine.reverse.filter (fun t => (tileOf s t).job = some j && (tileOf s t).role.isNone)

/-- Step 4: another tile SRAM region, first fit; a new storage tile when none has room. -/
def placeSram (j : Nat) (e : Nat × Region) (s : State) : Try :=
  let (k, x) := e
  match (storageTiles j s).findSome? (fun t => (tileFit t x.size s).map (fun o => (t, o))) with
  | some (t, o) => putInTile j k x t o s
  | none => match serpentine.reverse.find? (fun t => tileIdle t s) with
    | some t => putInTile j k x t 0 (bindStorage j t s)
    | none => .error (1, 1)

/-- Step 5: another MRDIMM region (reason 3). -/
def placeDram (j : Nat) (e : Nat × Region) (s : State) : Try :=
  let (k, x) := e
  let v := viewOf x s
  match freeView v (viewPages v x.size) s with
  | some off => .ok (putRegion j k x (ownPga 0 off s) s)
  | none => .error (3, k)

/-- The unplaced local regions of a job that meet a test, by number. -/
def unplaced (j : Nat) (p : Region → Bool) (s : State) : List (Nat × Region) :=
  (jobOf s j).regions.filterMap (fun e => match e.2 with
    | some x => if x.base.isNone && x.kind ≠ 3 && p x then some (e.1, x) else none
    | none => none)

/-- Largest first; of one size, the lowest number first. -/
def bySize : List (Nat × Region) → List (Nat × Region)
  | [] => []
  | e :: l => ins e (bySize l)
where
  /-- Insert by size. -/
  ins (e : Nat × Region) : List (Nat × Region) → List (Nat × Region)
    | [] => [e]
    | f :: l => if f.2.size ≤ e.2.size then e :: f :: l else f :: ins e l

/-- Storage tiles as step 4 would fill them: each by its place in the order of R238, with its ranges in use, and the
places of the tiles still free. -/
abbrev Bins := List (Nat × List (Nat × Nat)) × List Nat

/-- Step 4 for one region: first fit, else the next tile, as if tiles never ran out. -/
def binPut (a : Bins) (n : Nat) : Bins :=
  match a.1.findIdx? (fun b => (rangeFit b.2 n).isSome) with
  | some i => (a.1.modify i (fun b => (b.1, ((rangeFit b.2 n).getD 0, n) :: b.2)), a.2)
  | none =>
    let p := a.2.headD (64 + a.1.length)
    (a.1.filter (·.1 < p) ++ (p, [(0, n)]) :: a.1.filter (p < ·.1), a.2.tail)

/-- The ranges that storage pins of unplaced regions will take in a tile. -/
def pinnedRanges (j t : Nat) (s : State) : List (Nat × Nat) :=
  (unplaced j (fun _ => true) s).filterMap (fun e => match e.2.pin with
    | .storage u off => if u = t then some (off, e.2.size) else none
    | _ => none)

/-- Storage tiles that the unpinned tile SRAM regions need beyond the job's own (reason 1). -/
def storageNeed (j : Nat) (s : State) : Nat :=
  let order := serpentine.reverse.zipIdx
  let own := (order.filter (fun t => (tileOf s t.1).job = some j && (tileOf s t.1).role.isNone)).map
    (fun t => (t.2, tileUsed t.1 s ++ pinnedRanges j t.1 s))
  let idle := (order.filter (fun t => tileIdle t.1 s)).map (·.2)
  let bins := (unplaced j (fun x => x.kind = 0 && x.pin = .none) s).foldl (fun b e => binPut b e.2.size) (own, idle)
  bins.1.length - own.length

/-- Reason 1: fewer free tiles than unplaced local roles and needed storage tiles. -/
def tileCheck (j : Nat) (s : State) : Try :=
  let free := (tileNos.filter (fun t => tileIdle t s)).length
  let want := (unboundRoles j s).length + storageNeed j s
  if want ≤ free then .ok s else .error (1, want - free)

/-- The entry that a region's declaration and place give (R246), with what a move has changed kept. -/
def regionEntry (j k : Nat) (x : Region) (s : State) : RmEntry :=
  match x.base with
  | some b => match rmLookup j k s with
    | some e => { e with base := b }
    | none => { valid := true, place := if pgaSpace b = 1 then 1 else 2, movable := x.movable, job := j, region := k,
                size := x.size, base := b }
  | none => match x.imported with
    | some pa => match rmLookup j k s with
      | some e =>
        if e.remote then { importEntry j k x pa with move := e.move, newBase := e.newBase } else importEntry j k x pa
      | none => importEntry j k x pa
    | none => {}

/-- Two entries hold the same but for map_gen. -/
def sameEntry (a b : RmEntry) : Bool := decide ({ a with gen := 0 } = { b with gen := 0 })

/-- The lowest run of entries that no other job's directory holds, and the longest such run (R245). -/
def dirRun (j n : Nat) (s : State) : Option Nat × Nat :=
  let others := (s.jobs.filter (fun p => p.1 ≠ j && p.2.dirLen ≠ 0)).map (fun p => (p.2.dirBase, p.2.dirLen))
  let starts := 0 :: others.map (fun d => d.1 + d.2)
  let room := fun (b : Nat) =>
    if others.any (fun d => d.1 ≤ b && b < d.1 + d.2) then 0
    else others.foldl (fun m d => if b ≤ d.1 then min m (d.1 - b) else m) (65536 - b)
  let ok := starts.filter (fun b => n ≤ room b)
  (match ok with
    | [] => none
    | a :: l => some (l.foldl min a), starts.foldl (fun m b => max m (room b)) 0)

/-- Step 6: the directory (reason 4). -/
def formDirectory (j : Nat) (s : State) : Try :=
  let x := jobOf s j
  let n := x.regions.foldl (fun m e => max m (e.1 + 1)) 0
  let new := (List.range n).map (fun k => match regionOf j k s with
    | some g => regionEntry j k g s
    | none => {})
  match dirRun j n s with
  | (none, room) => .error (4, n - room)
  | (some b, _) =>
    let old := (List.range x.dirLen).map (· + x.dirBase)
    let s := forAll (old.filter (fun i => !(b ≤ i && i < b + n))) (fun i s =>
      if sameEntry (rmOf s i) {} then s else rmSet i {} s) s
    let s := forAll new.zipIdx (fun e s =>
      if sameEntry (rmOf s (b + e.2)) e.1 then s else rmSet (b + e.2) e.1 s) s
    .ok (modJob j (fun x => { x with dirBase := b, dirLen := n }) s)

/-- Step 7: this module's ports enter the transit ledger (reasons 5 and 6; R242). -/
def enterLedger (tag : Word) (mods : List Nat) (s : State) : Try :=
  let ps := pathSet mods s
  match ps.bad with
  | some m => .error (6, m)
  | none =>
    let new := ps.ports.filter (fun p => !s.place.ledger.contains (p, tag))
    match new.find? (fun p => 4 ≤ (ledgerOf p s).length) with
    | some p => .error (5, p)
    | none =>
      let keep := s.place.ledger.filter (fun e => e.2 ≠ tag || ps.ports.contains e.1)
      .ok { s with place.ledger := keep ++ new.map (fun p => (p, tag)) }

/-- The steps of R241 after the roles have been found declared. -/
def placeSteps (j : Nat) (mods : List Nat) (s : State) : Try :=
  let s := tryAll (storagePins j s) (reserveStorage j) s
  let s := tryThen s (fun s => tryAll (unboundRoles j s) (bindPinned j) s)
  let s := tryThen s (tileCheck j)
  let s := tryThen s (fun s => tryAll (unboundRoles j s) (bindFree j) s)
  let s := tryThen s (fun s => tryAll (unplaced j (fun x => x.pin ≠ .none) s) (placePinned j) s)
  let s := tryThen s (fun s => tryAll (unplaced j (fun x => x.kind = 0) s) (placeSram j) s)
  let s := tryThen s (fun s => tryAll (bySize (unplaced j (fun x => x.kind = 1) s)) (placeDram j) s)
  let s := tryThen s (formDirectory j)
  tryThen s (fun s => enterLedger (jobOf s j).tag mods s)

/-- The module IDs of a list buffer (PLACE_JOB, HEARTBEAT_CONFIG). -/
def idsOf (n : Nat) (bs : List Byte) : List Nat := (List.range n).map (fun i => bytesAt bs (2 * i) 2)

/-- IDs packed two to a word. -/
def packIds (l : List Nat) : List Byte := l.flatMap (fun m => leBytes m 2) ++ (if l.length % 2 = 1 then [0, 0] else [])

/-- Bytes that a list of IDs takes. -/
def idBytes (n : Nat) : Nat := (2 * n + 3) / 4 * 4

/-- The list of PLACE_JOB keeps its rules: padding, duplicates, this module and every declared home (for a
ledger-only request, neither; log 43). -/
def listOk (r : Req) (j : Nat) (only : Bool) (s : State) : Bool :=
  let n := rf r 2 6 13
  let bs := bulkBytes r 0 4
  let l := idsOf n bs
  (n % 2 = 0 || bytesAt bs (2 * n) 2 = 0) && l.eraseDups.length = n
    && (only || (l.contains (ownId s)
      && (jobOf s j).homes.all (fun h => l.contains h.2.2 || (List.range (h.2.1 + 1 - h.1)).all (fun i =>
        homeOf (jobOf s j) (h.1 + i) ≠ some h.2.2))
      && (jobOf s j).regions.all (fun e => match e.2 with
        | some x => x.kind ≠ 3 || l.contains x.home
        | none => true)))

/-- The words of a refusal. -/
def refusal (reason detail : Nat) : List Word := [word (reason + 65536 * detail), 0, 0, 0, 0, 0]

/-- The transit list as bulk data, as far as out_buf holds it, and its count. -/
def outList (r : Req) (l : List Nat) : List (Nat × List Byte) × Nat :=
  if zeroWords r 8 11 then ([], 0)
  else
    let l := l.take (bulkLen r 8 / 2)
    (if l.isEmpty then [] else [(bulkAddr r 8, packIds l)], l.length)

/-- PLACE_JOB with ledger_only (R242). -/
def placeLedger (r : Req) (s : State) : Ans :=
  let tag := rw r 3
  let mods := idsOf (rf r 2 6 13) (bulkBytes r 0 4)
  let result : Try := if rb r 2 5 then
      .ok { s with place.ledger := s.place.ledger.filter (fun e => e.2 ≠ tag) }
    else enterLedger tag mods s
  match result with
  | .error (n, d) => .of .noResource (refusal n d) (raise 0x3021 2 [tag, word n, word d] s)
  | .ok s' => .of .ok [0, 0, 0, 0, 0, 0] (raise 0x3020 1 [0, tag, 0, 0, 0] s')

/-- A PLACE_JOB of a job that does not return OK leaves the job unplaced (R244). -/
def notPlaced (r : Req) (s : State) : State :=
  if rb r 2 4 then s else modJob (reqJob r) (fun x => { x with placed := false }) s

/-- PLACE_JOB of a job (R241). -/
def placeNormal (r : Req) (s : State) : Ans :=
  let j := reqJob r
  let x := jobOf s j
  let mods := idsOf (rf r 2 6 13) (bulkBytes r 0 4)
  match (List.range x.nRoles).find? (fun k => (homeOf x k).isNone) with
  | some k => .of .wrongState (refusal 8 (k % 65536)) (raise 0x3021 2 [word j, 8, word (k % 65536)] (notPlaced r s))
  | none => match placeSteps j mods s with
    | .error (n, d) => .of .noResource (refusal n d) (raise 0x3021 2 [word j, word n, word d] (notPlaced r s))
    | .ok s' =>
      let out := outList r (pathSet mods s).others
      let s' := modJob j (fun x => { x with placed := true, modules := mods }) s'
      let y := jobOf s' j
      let roles := (roleTiles j s').length
      let regions := (y.regions.filter (fun e => match e.2 with
        | some g => g.base.isSome
        | none => false)).length
      let s' := raise 0x3020 1 [word j, y.tag, word roles, word regions, word (tilesOf j s').length] s'
      .reply .ok [0, word roles, word regions, word (rolesOpen y s'), word (regionsOpen y), word out.2] out.1
        (imageJob j s')

/-- PLACE_JOB. -/
def placeJobCmd : Cmd where
  op := 0x0305
  len := (· = 12)
  unadmitted := [0, 0, 0, 0, 0, 0]
  object := fun r s =>
    if operating s && mayRun s && (rb r 2 4 || jobIs declStatus r s) then none else some (.wrongState, [0, 0, 0, 0, 0, 0])
  args := fun r _ => firstOf [
    need (zeroFrom r 2 19 && (if rb r 2 4 then reqJob r = 0 else !rb r 2 5 && rw r 3 = 0)) .badArg,
    need (1 ≤ rf r 2 6 13 && rf r 2 6 13 ≤ 4096 && bulkOk r 4 && idBytes (rf r 2 6 13) ≤ bulkLen r 4) .badArg,
    need (zeroWords r 8 11 || bulkOk r 8) .badArg]
  run := fun r s =>
    let no := notPlaced r s
    if !dmaGood r 0 then dmaFailed 0x0305 r 4 [] no
    else if !zeroWords r 8 11 && !dmaGood r 1 then dmaFailed 0x0305 r 8 [] no
    else if !listOk r (reqJob r) (rb r 2 4) s then .of .badArg [] no
    else if rb r 2 4 then placeLedger r s else placeNormal r s
  refused := notPlaced

def execPlaceJob (r : Req) (s : State) : Host.Outcome State Fault Refusal := .next (runCmd placeJobCmd r s)

/-! Queries. -/

/-- The words of an entry (R246). -/
def rmWords (e : RmEntry) : List Word :=
  word (b2n e.valid + 2 * e.place + 8 * e.move + 32 * b2n e.lost + 64 * b2n e.remote + 128 * b2n e.movable
      + 256 * e.job + 65536 * e.region)
    :: (dwords e.size ++ dwords e.base ++ dwords e.newBase ++ [word e.gen])

/-- REGION_QUERY. -/
def regionQueryCmd : Cmd where
  op := 0x0306
  len := (· = 4)
  unadmitted := []
  object := fun r s => need (!jobIs [.free] r s) .wrongState
  args := fun r s => firstOf [need (zeroFrom r 2 4 && zeroFrom r 3 16) .badArg,
    need (regionOf (reqJob r) (rf r 3 0 16) s).isSome .badArg]
  run := fun r s =>
    let j := reqJob r
    let k := rf r 3 0 16
    match regionOf j k s with
    | none => .of .badArg [] s
    | some x =>
      let words := match rmLookup j k s with
        | some e => rmWords e
        | none => List.replicate 8 0
      .of .ok (words ++ [word (b2n (x.pin ≠ .none || x.imported.isSome) + 2 * b2n (x.base.isSome || x.imported.isSome)
        + 4 * ((rmIndex j k s).getD 0))]) s

def execRegionQuery (r : Req) (s : State) : Host.Outcome State Fault Refusal := .next (runCmd regionQueryCmd r s)

/-- ROLE_QUERY. -/
def roleQueryCmd : Cmd where
  op := 0x0307
  len := (· = 4)
  unadmitted := []
  object := fun r s => need (!jobIs [.free] r s) .wrongState
  args := fun r s => firstOf [need (zeroFrom r 2 4 && zeroFrom r 3 18) .badArg,
    need (rf r 3 0 18 < (jobOf s (reqJob r)).nRoles && (homeOf (jobOf s (reqJob r)) (rf r 3 0 18)).isSome) .badArg]
  run := fun r s =>
    let x := jobOf s (reqJob r)
    let k := rf r 3 0 18
    let home := (homeOf x k).getD 0
    let here := home = ownId s
    let tile := if here then (roleEnt x k).bound else (roleEnt x k).pin
    .of .ok [word (home + 65536 * tile.getD 0 + 2 ^ 22 * b2n here + 2 ^ 23 * b2n tile.isSome
      + 2 ^ 24 * b2n (roleEnt x k).pin.isSome)] s

def execRoleQuery (r : Req) (s : State) : Host.Outcome State Fault Refusal := .next (runCmd roleQueryCmd r s)

end Sys2Proof.Machine
end

