-- ==== Sys2Proof/Machine/Moves.lean ====
section
/-! DEFINITION. Moving a region and releasing a job (R250 to R254, R256). -/

namespace Sys2Proof.Machine

/-! Places that a move takes and leaves. -/

/-- A job takes a place (R249, R250). -/
def takePlace (j pa size : Nat) (s : State) : State :=
  if pgaSpace pa = 0 then (extentOf (pgaOff pa) size s).own j s
  else
    let t := pgaTile (pgaOff pa)
    if tileIdle t s then bindStorage j t s else s

/-- A job leaves a place; a storage tile that holds nothing more becomes free. -/
def leavePlace (j pa size : Nat) (s : State) : State :=
  if pgaSpace pa = 0 then (extentOf (pgaOff pa) size s).disown j s
  else
    let t := pgaTile (pgaOff pa)
    let x := tileOf s t
    if x.job = some j && x.role.isNone && (tileUsed t s).isEmpty then setTile t {} s else s

/-- The other modules of a job's list. -/
def otherModules (j : Nat) (s : State) : List Nat := (jobOf s j).modules.filter (· ≠ ownId s)

/-- The same change of an entry goes to every other module of the job's list, each as a Management-class put (R155, R250):
phases 1 copy, 2 drain, 0 stable. -/
def sendUpdates (j k phase base newBase : Nat) (s : State) : State :=
  let tag := (jobOf s j).tag
  forAll (otherModules j s) (fun m s =>
    moveNote m tag k phase base newBase (emit (.moveUpdate m tag k phase base newBase) s)) s

/-- A move aborts: causes 1 to 5 in the order of R252 (log 44). -/
def moveAbort (cause module : Nat) (s : State) : State :=
  match s.place.move with
  | none => s
  | some m =>
    let size := match rmLookup m.job m.region s with
      | some e => e.size
      | none => 0
    let s := rmMod m.job m.region (fun e => { e with move := 0, newBase := 0 }) (dropCopy { s with place.move := none })
    let s := leavePlace m.job m.newBase size s
    let s := sendUpdates m.job m.region 0 m.oldBase 0 s
    retryWindows (raise 0x3024 2 [word m.job, word m.region, word cause, word module] s)

/-! REGION_MOVE. -/

/-- The destination that a request names: a physical global address, or none in mode 0. -/
def moveDest (r : Req) (s : State) : Option Nat :=
  match rf r 4 0 2 with
  | 1 => some (ownPga 0 (pinAddr r 5 % 2 ^ 45) s)
  | 2 => some (ownPga 1 (sramOff (rf r 4 2 6) (pinAddr r 5 % 2 ^ 23)) s)
  | _ => none

/-- The destination as a pin. -/
def movePin (r : Req) : Pin :=
  match rf r 4 0 2 with
  | 1 => .mrdimm (pinAddr r 5)
  | 2 => .storage (rf r 4 2 6) (pinAddr r 5)
  | _ => .none

/-- A destination keeps the rules of REGION_PIN, whatever the region's declared kind, and does not overlap the
old place (log 44). -/
def moveOk (r : Req) (j k : Nat) (x : Region) (s : State) : Bool :=
  let p := movePin r
  match p, x.base with
  | .mrdimm a, some b =>
    pinOk j k { x with kind := 1, view := if x.kind = 1 then x.view else 7 } p s
      && !(pgaSpace b = 0 && (extentOf a x.size s).meets (extentOf (pgaOff b) x.size s))
  | .storage t off, some b =>
    pinOk j k { x with kind := 0 } p s
      && !(pgaSpace b = 1 && pgaTile (pgaOff b) = t && off < pgaSram (pgaOff b) + x.size && pgaSram (pgaOff b) < off + x.size)
  | _, _ => rf r 4 0 2 = 0 && pinAddr r 5 = 0

/-- The region lies in a role's tile. -/
def inRoleTile (x : Region) (s : State) : Bool :=
  match x.base with
  | some b => pgaSpace b = 1 && (tileOf s (pgaTile (pgaOff b))).role.isSome
  | none => false

/-- The place that a move takes: the one asked for when it is free, or the Lastmaker's choice of the same kind;
none is NO_RESOURCE. -/
def moveChoice (r : Req) (j : Nat) (x : Region) (s : State) : Option Nat :=
  match moveDest r s with
  | some pa =>
    if pgaSpace pa = 0 then
      let e := extentOf (pgaOff pa) x.size s
      if e.installed s && (e.owners s).isEmpty then some pa else none
    else
      let t := pgaTile (pgaOff pa)
      if pinFree j x (movePin r) s && tileFree t (pgaSram (pgaOff pa)) x.size s then some pa else none
  | none =>
    if (x.base.map pgaSpace) = some 0 then
      (freeView (viewOf x s) (viewPages (viewOf x s) x.size) s).map (fun o => ownPga 0 o s)
    else match (storageTiles j s).findSome? (fun t => (tileFit t x.size s).map (fun o => sramOff t o)) with
      | some o => some (ownPga 1 o s)
      | none => (serpentine.reverse.find? (fun t => tileIdle t s)).map (fun t => ownPga 1 (sramOff t 0) s)

/-- The copy phase begins (R250, event 0x3022). -/
def moveStart (j k old new size : Nat) (s : State) : State :=
  let s := takePlace j new size s
  let s := rmMod j k (fun e => { e with move := 1, newBase := new }) s
  let s := { s with place.move := some { job := j, region := k, oldBase := old, newBase := new, copyAt := s.clk,
                                         todo := [(0, size)] } }
  let s := sendUpdates j k 1 old new (copyAsk s)
  raise 0x3022 1 ([word j, word k] ++ dwords old ++ dwords new ++ [1]) s

/-- REGION_MOVE. -/
def regionMoveCmd : Cmd where
  op := 0x0308
  len := (· = 7)
  unadmitted := []
  object := fun r s => need (operating s && s.place.move.isNone
    && (match regionOf (reqJob r) (rf r 3 0 16) s, rmLookup (reqJob r) (rf r 3 0 16) s with
        | some x, some e => x.kind = 3 || (x.base.isSome && !e.lost && e.move = 0)
        | some x, none => x.kind = 3
        | none, _ => false)) .wrongState
  args := fun r s => firstOf [
    need (zeroFrom r 2 4 && zeroFrom r 3 16 && zeroFrom r 4 8 && rf r 4 0 2 ≠ 3
      && (rf r 4 0 2 = 2 || rf r 4 2 6 = 0)) .badArg,
    need (match regionOf (reqJob r) (rf r 3 0 16) s with
      | none => false
      | some x => x.kind ≠ 3 && !inRoleTile x s && moveOk r (reqJob r) (rf r 3 0 16) x s) .badArg]
  run := fun r s =>
    let j := reqJob r
    let k := rf r 3 0 16
    match regionOf j k s with
    | none => .of .badArg [] s
    | some x => match moveChoice r j x s, x.base with
      | some new, some old => .of .accepted [] (moveStart j k old new x.size s)
      | _, _ => .of .noResource [] s

def execRegionMove (r : Req) (s : State) : Host.Outcome State Fault Refusal := .next (runCmd regionMoveCmd r s)

/-! The phases at the home module. -/

/-- Drain begins: write-type operations to the region of which nothing has been translated are held (R251). -/
def holdWrites (j k : Nat) (s : State) : State :=
  let due := fun (x : SEntry) => x.cond = .waiting && x.desc.source = 0 && !x.desc.phys && isWriteOp x.desc.op
    && x.desc.job = j && x.desc.region = k && x.sent.isEmpty
  { s with stitch.table := s.stitch.table.map (fun e => (e.1, if due e.2 then { e.2 with cond := .held } else e.2)) }

/-- The memory from which a segment of the copy would be read fails, with its reads' events: the copy read meets MEM_UE
(R252). -/
def copyReadFails (e part : Nat) (s : State) : Option State :=
  let d := (entryOf s e).desc
  if (entryOf s e).purpose = 5 && segmentDue e part s then match copyPlace d part s with
    | none => some s
    | some p => if hitUe p (segLen d part) s then some (copyTouch p (segLen d part) s) else none
  else none

/-- A segment is sent; a copy read that meets MEM_UE aborts its move (R173, R252). -/
def segmentSendRow (e part : Nat) (s : State) : State :=
  match copyReadFails e part s with
  | some s' => moveAbort 2 0 s'
  | none => segmentSend e part s

/-- MOVE_COPY_COMPLETE: once the region has been copied, drain begins everywhere (R250, R252). -/
def moveCopyComplete (s : State) : State :=
  match s.place.move with
  | none => s
  | some m =>
    if m.phase ≠ 1 || !copyDone m s then s
    else
      let s := holdWrites m.job m.region (rmMod m.job m.region (fun e => { e with move := 2 }) s)
      let s := { s with place.move := s.place.move.map (fun m =>
        { m with phase := 2, drainAt := s.clk, waiting := ownId s :: otherModules m.job s }) }
      sendUpdates m.job m.region 2 m.oldBase m.newBase s

def execMoveCopyComplete (flaws : List Flaw) (s : State) : Host.Outcome State Fault Refusal :=
  live (fun s => moveCopyComplete (inject flaws s)) s

/-- The ranges of the granules that the tracker marked (R250). -/
def markedRanges (m : Move) (size : Nat) : List (Nat × Nat) :=
  let k := trackGranule size
  m.marked.map (fun g => (g * k, min k (size - g * k)))

/-- MOVE_DRAIN_ACK: a module has drained; after the last one Yarler copies the marked granules again. This module's own
acknowledgement comes once none of its write-type segments to the region is on its way (R250). -/
def moveDrainAck (module : Nat) (s : State) : State :=
  match s.place.move with
  | none => s
  | some m =>
    let size := match rmLookup m.job m.region s with
      | some e => e.size
      | none => 0
    let left := m.waiting.filter (· ≠ module)
    if m.phase ≠ 2 || !m.waiting.contains module || (module = ownId s && writesInFlight m.job m.region s) then s
    else if !left.isEmpty then { s with place.move := some { m with waiting := left } }
    else copyAsk { s with place.move := some { m with waiting := [], phase := 3, todo := markedRanges m size } }

def execMoveDrainAck (module : BitVec 16) (flaws : List Flaw) (s : State) : Host.Outcome State Fault Refusal :=
  live (fun s => moveDrainAck module.toNat (inject flaws s)) s

/-- Operations that a drain holds: held entries and BAR2 writes (R256, event 0x3023). -/
def heldByDrain (j k : Nat) (s : State) : Nat :=
  (s.stitch.table.filter (fun p => p.2.cond = .held && isWriteOp p.2.desc.op && p.2.desc.job = j && p.2.desc.region = k)).length
    + (s.bar2.held.filter (fun w => (pageOf s w.page).job = j && (pageOf s w.page).region = k)).length

/-- A pin follows its region to a new place (REGION_MOVE). -/
def repin (p : Pin) (pa : Nat) : Pin :=
  match p with
  | .none => .none
  | _ => if pgaSpace pa = 0 then .mrdimm (pgaOff pa) else .storage (pgaTile (pgaOff pa)) (pgaSram (pgaOff pa))

/-- MOVE_FLIP: once the marked granules have been copied again the entry names the new place here and on every job module,
unless a dirty drain sweeps (R250, R253). -/
def moveFlip (s : State) : State :=
  match s.place.move with
  | none => s
  | some m =>
    if m.phase ≠ 3 || !copyDone m s || s.resil.draining.isSome then s
    else
      let held := heldByDrain m.job m.region s
      let size := match rmLookup m.job m.region s with
        | some e => e.size
        | none => 0
      let s := rmMod m.job m.region (fun e =>
        { e with move := 0, base := m.newBase, newBase := 0, place := if pgaSpace m.newBase = 1 then 1 else 2, lost := false }) s
      let s := match regionOf m.job m.region s with
        | some x => setRegion m.job m.region (some { x with base := some m.newBase, pin := repin x.pin m.newBase }) s
        | none => s
      let s := { s with
        place.move := none
        place.settling := s.place.settling ++ [{ job := m.job, region := m.region, oldBase := m.oldBase, size := size,
                                                 flipAt := s.clk, waiting := otherModules m.job s, lastAck := s.clk }] }
      let s := sendUpdates m.job m.region 0 m.newBase 0 s
      let s := raise 0x3023 1 ([word m.job, word m.region] ++ dwords m.newBase
        ++ [word held, word ((m.drainAt - m.copyAt) / 500), word (since m.drainAt s / 500)]) s
      retryWindows s

def execMoveFlip (s : State) : Host.Outcome State Fault Refusal := live moveFlip s

/-- Change the first element that meets a test. -/
def modFirst {β : Type} (p : β → Bool) (f : β → β) : List β → List β
  | [] => []
  | x :: l => if p x then f x :: l else x :: modFirst p f l

/-- MOVE_FLIP_ACK: a module acknowledges the oldest flip that it has not (R250). -/
def moveFlipAck (module : Nat) (s : State) : State :=
  let ack := fun (x : Settle) => { x with waiting := x.waiting.filter (· ≠ module), lastAck := s.clk }
  { s with place.settling := modFirst (fun x => x.waiting.contains module) ack s.place.settling }

def execMoveFlipAck (module : BitVec 16) (s : State) : Host.Outcome State Fault Refusal :=
  live (moveFlipAck module.toNat) s

/-- MOVE_OLD_PLACE_RELEASE: 40 ms after the last acknowledgement of a flip (R250). -/
def moveOldPlaceRelease (s : State) : State :=
  let due := fun (x : Settle) => x.waiting.isEmpty && ticksMs 40 ≤ since x.lastAck s
  match s.place.settling.find? due with
  | none => s
  | some x => leavePlace x.job x.oldBase x.size { s with place.settling := s.place.settling.eraseP due }

def execMoveOldPlaceRelease (s : State) : Host.Outcome State Fault Refusal := live moveOldPlaceRelease s

/-- MOVE_DRAIN_TIMEOUT: a module has not acknowledged drain within 50 ms (R252). -/
def moveDrainTimeout (s : State) : State :=
  match s.place.move with
  | none => s
  | some m => match m.waiting with
    | w :: _ => if m.phase = 2 && ticksMs 50 ≤ since m.drainAt s then moveAbort 1 w s else s
    | [] => s

def execMoveDrainTimeout (s : State) : Host.Outcome State Fault Refusal := live moveDrainTimeout s

/-- MOVE_FLIP_ACK_TIMEOUT: a module has not acknowledged a flip within 50 ms (R252, event 0x3026). -/
def moveFlipAckTimeout (s : State) : State :=
  let late := fun (x : Settle) => if ticksMs 50 ≤ since x.flipAt s then x.waiting.find? (fun m => !x.told.contains m) else none
  match s.place.settling.find? (fun x => (late x).isSome) with
  | none => s
  | some x => match late x with
    | none => s
    | some m =>
      let tell := fun (y : Settle) => { y with told := y.told ++ [m] }
      let l := modFirst (fun y => (late y).isSome) tell s.place.settling
      raise 0x3026 2 [word x.job, word x.region, word m] { s with place.settling := l }

def execMoveFlipAckTimeout (s : State) : Host.Outcome State Fault Refusal := live moveFlipAckTimeout s

/-! A job module that imports the region. -/

/-- MOVE_UPDATE_RECEIVE: the home's change of an imported entry; drain and flip are acknowledged (R250). -/
def moveUpdateReceive (u : MoveUpdate) (s : State) : State :=
  let home := u.fromModule.toNat
  let k := u.region.toNat
  let change := fun (e : RmEntry) =>
    if u.phase = 1 then { e with move := 1, newBase := u.newBase.toNat }
    else if u.phase = 2 then { e with move := 2, newBase := u.newBase.toNat }
    else { e with move := 0, base := u.base.toNat, newBase := 0, place := if pgaSpace u.base.toNat = 1 then 1 else 2 }
  let s := match jobOfTag u.jobTag s with
    | some j => match rmLookup j k s with
      | some e => if e.remote && pgaModule e.base = home then
          let s := rmMod j k change s
          let s := if u.phase = 2 then holdWrites j k s else s
          match regionOf j k s with
          | some x => if u.phase = 0 then setRegion j k (some { x with imported := some u.base.toNat }) s else s
          | none => s
        else s
      | none => s
    | none => s
  if u.phase = 2 then
    sendAcks { s with place.owedAcks := s.place.owedAcks ++ [(home, u.jobTag, k)] }
  else if u.phase = 0 then
    sendAck home u.jobTag k 0
      { s with place.owedAcks := s.place.owedAcks.filter (fun a => !(a.1 = home && a.2.1 = u.jobTag && a.2.2 = k)) }
  else s

def execMoveUpdateReceive (u : MoveUpdate) (s : State) : Host.Outcome State Fault Refusal :=
  live (fun s => if !serving s then s
    else if s.glb.state = .halted then refuseHalted u.fromModule.toNat (Config.freeNat s.fresh) (useFresh 1 s)
    else moveUpdateReceive u s) s

/-! JOB_RELEASE (R61, R254, R383). -/

/-- A job is released. -/
def releaseJob (j : Nat) (s : State) : State :=
  let tag := (jobOf s j).tag
  let s := endRun j s
  let s := if (s.place.move.map (·.job)) = some j then moveAbort 4 0 s else s
  let x := jobOf s j
  let s := forAll ((List.range x.dirLen).map (· + x.dirBase)) (fun i s =>
    if sameEntry (rmOf s i) {} then s else rmSet i {} s) s
  let s := { s with
    place.owned := s.place.owned.filter (fun o => o.job ≠ j)
    place.settling := s.place.settling.filter (fun x => x.job ≠ j)
    place.ledger := s.place.ledger.filter (fun e => e.2 ≠ tag) }
  let s := forAll (tilesOf j s) (fun t => setTile t {}) s
  let s := suspendPages (fun q _ => q = j) (imageDrop j s)
  sendAcks (setJob j {} (changeStatus j .free s))

/-- JOB_RELEASE. -/
def jobReleaseCmd : Cmd where
  op := 0x0206
  len := (· = 3)
  unadmitted := []
  object := fun r s => need (!jobIs [.free, .armed, .running] r s) .wrongState
  args := fun r _ => need (zeroFrom r 2 4) .badArg
  run := fun r s => .ok (releaseJob (reqJob r) s)

def execJobRelease (r : Req) (s : State) : Host.Outcome State Fault Refusal := .next (runCmd jobReleaseCmd r s)

end Sys2Proof.Machine
end

