-- ==== Sys2Proof/Machine/MemRows.lean ====
section
/-! DEFINITION. Scrubs, correction rewrites, DIMM temperature, parity errors, training and what happens when a
channel leaves service (R203, R206 to R208, R217, R221 to R226, R255, R343). -/

namespace Sys2Proof.Machine

/-! A channel leaves service (R207, R222, R255). -/

/-- Why a channel left service, as event 0x2005 names it (log 45). -/
def leftTraining : Nat := 0
def leftShutdown : Nat := 1
def leftParity : Nat := 2

/-- An extent takes pages of a channel. -/
def Extent.onChan (a : Extent) (c : Nat) : Bool := a.chan ≤ c && c < a.chan + a.ways

/-- A local entry's region has a page on a channel (R255). -/
def entryOnChan (c : Nat) (e : RmEntry) (s : State) : Bool :=
  e.valid && !e.remote && pgaSpace e.base = 0 && (extentOf (pgaOff e.base) e.size s).onChan c

/-- Every region with a page on a channel is marked lost, with event 0x3025 (R255, R256). -/
def markLost (c : Nat) (s : State) : State :=
  forAll (s.place.rmap.filter (fun p => !p.2.lost && entryOnChan c p.2 s)) (fun p s =>
    raise 0x3025 3 [word p.2.job, word p.2.region, word c] (rmSet p.1 { p.2 with lost := true } s)) s

/-- The new place of the move that runs has a page on a channel (R252). -/
def moveOnChan (c : Nat) (s : State) : Bool :=
  match s.place.move with
  | none => false
  | some m => pgaSpace m.newBase = 0 && match rmLookup m.job m.region s with
    | some e => (extentOf (pgaOff m.newBase) e.size s).onChan c
    | none => false

/-- A channel in service leaves it: event 0x2005, its pages are held by no job, a move to it aborts, regions on
it are lost, the state is evaluated (R207, R222, R252, R255, R53). -/
def leaveService (c cause : Nat) (s : State) : State :=
  if !(chanOf s c).inService then s
  else
    let s := modChan c (fun x => { x with inService := false, out := true, retraining := false }) (refuseChannel c s)
    let s := { s with place.owned := s.place.owned.filter (fun o => o.chan ≠ c) }
    let s := raise 0x2005 3 [word c, word cause] s
    let s := markLost c (if moveOnChan c s then moveAbort 3 0 s else s)
    reevaluate 0x2005 s

/-! Tile SRAM (R203). -/

/-- A corrected word is rewritten; a write that came first has dropped the rewrite (R203). -/
def sramRewrite (k : Nat) (s : State) : State :=
  if s.mem.sramRewrites.contains k then
    let bad := if tget 0 s.mem.sramBad k = 1 then tset 0 s.mem.sramBad k 0 else s.mem.sramBad
    { s with mem.sramBad := bad, mem.sramRewrites := s.mem.sramRewrites.filter (· ≠ k) }
  else s

def execSramCorrectionRewrite (tile : Fin 64) (w : Nat) (s : State) : Host.Outcome State Fault Refusal :=
  fed (fun s => if w < 2 ^ 20 then sramRewrite (sramWord tile w) s else s) s

/-- The words of a bank that hold errors. -/
def badWords (t bank : Nat) (s : State) : List Nat :=
  (s.mem.sramBad.filter (fun p => p.1 / 2 ^ 20 = t && bankOf (8 * (p.1 % 2 ^ 20)) = bank)).map (fun p => p.1 % 2 ^ 20)

/-- A bank reads, and where needed rewrites, every row: corrected words at once, uncorrectable ones are left
(R203, R204). -/
def sramBankScrub (t bank : Nat) (s : State) : State :=
  forAll (badWords t bank s) (fun w s => sramRewrite (sramWord t w) (sramReadWord t readerScrub w s)) s

def execSramBankScrub (tile : Fin 64) (bank : Fin 48) (flaws : List Flaw) (s : State) : Host.Outcome State Fault Refusal :=
  fed (fun s => sramBankScrub tile bank (inject flaws s)) s

/-! MRDIMM correction rewrites and the patrol scrub (R217, R224 to R226). -/

/-- A corrected line is written back (R217). -/
def mrdimmRewrite (c line : Nat) (s : State) : State :=
  if (chanOf s c).inService then lineRewrite c line s else s

def execMrdimmCorrectionRewrite (chan : Fin 12) (line : Nat) (s : State) : Host.Outcome State Fault Refusal :=
  fed (fun s => if line < 2 ^ 32 then mrdimmRewrite chan line s else s) s

/-- Lines of one subchannel of a DIMM (R224, R226). -/
def subLines (ch : Chan) : Nat := ch.spdGiB * 2 ^ 23

/-- The position of a subchannel's scrub. -/
def scrubPos (sub : Nat) (ch : Chan) : Nat := if sub = 0 then ch.scrub else ch.scrub1

/-- A pass ends when both subchannels have read their last line: event 0x2007, and the next pass begins (R224,
R226, R234; log 45). -/
def passEnd (c : Nat) (s : State) : State :=
  let ch := chanOf s c
  if ch.scrub < subLines ch || ch.scrub1 < subLines ch then s
  else
    let s := modChan c (fun x => { x with scrub := 0, scrub1 := 0, passCe := 0, passUe := 0 }) s
    raise 0x2007 0 [word c, word ch.passCe, word ch.passUe] s

/-- A scrub read of the next line of a subchannel (R224, R226). -/
def patrolScrub (c sub : Nat) (s : State) : State :=
  let ch := chanOf s c
  let pos := scrubPos sub ch
  if !ch.inService || subLines ch ≤ pos then s
  else
    let line := 2 * pos + sub
    let found := lineClass c line s
    let s := lineRead c readerScrub line s
    let s := modChan c (fun x => { x with
      scrub := if sub = 0 then pos + 1 else x.scrub
      scrub1 := if sub = 0 then x.scrub1 else pos + 1
      passCe := x.passCe + (match found with | .ce _ _ => 1 | _ => 0)
      passUe := x.passUe + (match found with | .ue => 1 | _ => 0) }) s
    passEnd c s

def execPatrolScrubRead (chan : Fin 12) (sub : Fin 2) (flaws : List Flaw) (s : State) : Host.Outcome State Fault Refusal :=
  fed (fun s => patrolScrub chan sub (inject flaws s)) s

/-- The scrub period of a channel changes (R225, event 0x2008 in hours, log 37). -/
def scrubPeriodChange (c : Nat) (s : State) : State :=
  let ch := chanOf s c
  let many := 1024 < (ch.ceTimes.filter (fun t => since t s < ticksS 3600)).length
  if !ch.inService then s
  else if !ch.fast && many then raise 0x2008 1 [word c, 6] (modChan c (fun x => { x with fast := true }) s)
  else if ch.fast && !many && ticksS 86400 ≤ since ch.noisyAt s then
    raise 0x2008 1 [word c, 24] (modChan c (fun x => { x with fast := false }) s)
  else s

def execScrubPeriodChange (chan : Fin 12) (s : State) : Host.Outcome State Fault Refusal :=
  fed (scrubPeriodChange chan) s

/-! DIMM temperature (R223). -/

/-- A threshold with its 3 °C of hysteresis (R223). -/
def hotNow (was : Bool) (threshold temp : Int) : Bool := threshold ≤ temp || (was && threshold - 3 < temp)

/-- A reading of a DIMM's temperature: the actions of R223 and event 0x1020 for each change. -/
def dimmTemp (c : Nat) (temp : Int) (s : State) : State :=
  let ch := chanOf s c
  if !ch.inService then s
  else
    let a := hotNow ch.hot85 85 temp
    let b := hotNow ch.hot95 95 temp
    let s := modChan c (fun x => { x with hot85 := a, hot95 := b }) s
    let out := decide (105 ≤ temp)
    let s := if a != ch.hot85 || b != ch.hot95 || out then
        raise 0x1020 2 [word c, sword temp, word (bitsNat [a, b, out])] s
      else s
    if out then leaveService c leftShutdown s else s

def execDimmTempRead (chan : Fin 12) (temp : Int) (s : State) : Host.Outcome State Fault Refusal :=
  fed (dimmTemp chan temp) s

/-- DIMM_SHUTDOWN_CONDITION (R207). -/
def execDimmShutdownCondition (chan : Fin 12) (s : State) : Host.Outcome State Fault Refusal :=
  fed (leaveService chan leftShutdown) s

/-! Command and address parity (R221). -/

/-- A command meets parity errors on its first `fails` attempts of four: each but the last failure repeats it;
a fourth failure retrains the channel once; more than 16 errors in a second after that take it out of service
(R221, R234; log 45). -/
def caParityError (c fails : Nat) (s : State) : State :=
  let ch := chanOf s c
  if !ch.inService || fails = 0 then s
  else
    let retrain := fails = 4 && !ch.retrained && !ch.retraining
    let times := if ch.retrained then
        List.replicate fails s.clk ++ ch.parityTimes.filter (fun t => since t s < ticksS 1)
      else []
    let s := modChan c (fun x => { x with retraining := x.retraining || retrain, parityTimes := times }) s
    let s := raiseLimited 0x2009 1 c (ticksS 10) (min fails 3)
      (fun n => [word c, word n, word (b2n (ch.retrained || ch.retraining || retrain))]) s
    if 16 < times.length then leaveService c leftParity s else s

def execCaParityError (chan : Fin 12) (fails : Fin 5) (s : State) : Host.Outcome State Fault Refusal :=
  fed (caParityError chan fails) s

/-- The retraining of a channel ends (R221). -/
def memoryRetrainComplete (c : Nat) (ok : Bool) (s : State) : State :=
  if !(chanOf s c).retraining then s
  else
    let s := modChan c (fun x => { x with retraining := false, retrained := true, parityTimes := [] }) s
    if ok then s else leaveService c leftParity s

def execMemoryRetrainComplete (chan : Fin 12) (ok : Bool) (s : State) : Host.Outcome State Fault Refusal :=
  fed (memoryRetrainComplete chan ok) s

/-! Training and zeroing at start-up (R205 to R208, R343, R455). -/

/-- The SPD of every socket has been read and every DIMM has trained or failed. -/
def allTried (s : State) : Bool := chanNos.all (fun c => (chanOf s c).tried)

/-- Every populated channel has finished R208. -/
def memoryReady (s : State) : Bool :=
  allTried s && chanNos.all (fun c => !(chanOf s c).trained || (chanOf s c).inService || (chanOf s c).out)

/-- The power-up calibration runs after zeroing, before the module leaves Boot or Migrate (R343, R455). -/
def calibrateAtStart (s : State) : State :=
  if memoryReady s then startUpRun s else s

/-- CAL_RUN_COMPLETE: a run ends; the power-up run follows another that it has waited for (R342, R343). -/
def execCalRunComplete (items : List CalItem) (s : State) : Host.Outcome State Fault Refusal :=
  live (fun s => if s.mon.running = 0 || s.mon.proc ≠ 6 then s else calibrateAtStart (calRunComplete items s)) s

/-- The row of R205 that a DIMM fails, as event 0x2006 names it. -/
def spdRefused (x : Spd) : Nat :=
  if x.failRow.val ≠ 0 then x.failRow
  else if x.capGiB = 64 || x.capGiB = 128 || x.capGiB = 256 then 0 else 6

/-- DIMM_TRAINING_COMPLETE: the SPD read and the training of one socket end. With the last socket, a DIMM used
below its capacity is reported (R205 to R207, R234). -/
def dimmTraining (c : Nat) (x : Spd) (s : State) : State :=
  if (chanOf s c).tried || !s.glb.yarlerUp then s
  else
    let bad := spdRefused x
    let good := x.populated && bad = 0
    let s := modChan c (fun ch => { ch with
      tried := true, trained := good && x.trained, spdGiB := if good then x.capGiB else 0
      out := good && !x.trained }) s
    let s := if x.populated && bad ≠ 0 then raise 0x2006 2 [word c, word x.capGiB, word bad] s
      else if good && !x.trained then raise 0x2005 3 [word c, word leftTraining] s
      else s
    if allTried s then
      let s := forAll (trainedChans s) (fun c s =>
        if capGiB s < (chanOf s c).spdGiB then raise 0x2006 2 [word c, word (chanOf s c).spdGiB, 0] s else s) s
      calibrateAtStart s
    else s

def execDimmTrainingComplete (chan : Fin 12) (spd : Spd) (s : State) : Host.Outcome State Fault Refusal :=
  fed (dimmTraining chan spd) s

/-- CHANNEL_ZERO_COMPLETE: every line of a trained DIMM is zero with a valid code; the channel enters service
(R207, R208). -/
def channelZero (c : Nat) (s : State) : State :=
  let ch := chanOf s c
  if !ch.trained || ch.inService || ch.out || !allTried s then s
  else
    let s := dramZero c 0 (ch.spdGiB * 2 ^ 30) s
    calibrateAtStart (modChan c (fun x => { x with inService := true }) s)

def execChannelZeroComplete (chan : Fin 12) (s : State) : Host.Outcome State Fault Refusal :=
  fed (channelZero chan) s

end Sys2Proof.Machine
end

