-- ==== Sys2Proof/Machine/Power.lean ====
section
/-! DEFINITION. Entering Halted, the power loop, trips, the hold-up store, the input and the converter (R55, R56,
R148, R334, R446 to R453, R459, R460). -/

namespace Sys2Proof.Machine

/-! Halted (R55, R56, R148, R252, R375). -/

/-- The fault that a job records when the module enters Halted: the lowest tile that runs one of its roles
(R148). -/
def haltFault (j : Nat) (s : State) : JobFault :=
  match runningTiles j s with
  | t :: _ => { code := 0x0C, tile := t, step := (tileOf s t).pc, role := roleOf t s }
  | [] => { code := 0x0C }

/-- A job in Halted: Running becomes Faulted, Armed returns to Defined (R148). -/
def haltJob (j : Nat) (s : State) : State :=
  match (jobOf s j).status with
  | .running => faultJob j (haltFault j s) s
  | .armed => unarmJob j s
  | _ => s

/-- Job-start entries are discarded (R55, R375). -/
def discardStarts (s : State) : State :=
  forAll (s.sched.entries.filter (fun p => p.2.action = 2 && entActive p.2)) (fun p => setSched p.1 {}) s

/-- The Fatal event leaves the Welt unpowered: groups 1 and 5, or from Boot or Migrate (R55, R56). -/
def killsWelt (code : BitVec 16) (old : ModState) : Bool :=
  code.toNat / 4096 = 1 || code.toNat / 4096 = 5 || old = .boot || old = .migrate

/-- GLB_FW_VER once an image runs outside Boot and Dead (R27). -/
def showVersion (s : State) : State :=
  if s.glb.yarlerUp then { s with glb.fwVer := hdrVersion s.fw.area.header } else s

/-- The module enters Halted for a Fatal event (R51, R55, R56, R148, R252). The Trial timer stops (R434). BAR2 writes held
by a drain are tried again when the moves have aborted, in Halted, where R63 drops them (log 41). -/
def halt (code : BitVec 16) (s : State) : State :=
  let old := s.glb.state
  if old = .dead then s
  else
    let s := if old = .halted then s else
      let s := enter .halted code s
      let s := discardStarts (forAll jobNos haltJob s)
      moveAbort 5 0 (showVersion { s with fw.trialStart := none })
    if killsWelt code old then weltDark 2 { s with glb.weltKilled := true } else s

/-- A Fatal event: raised, then Halted (R51, R395). -/
def fatal (code : BitVec 16) (items : List Word) (s : State) : State := halt code (raise code 4 items s)

/-! EVENT_RAISE (R402). -/

/-- An event that a part of the module raises: stored, counted or discarded; a Fatal one leads to Halted
(R51, R402). -/
def eventRaise (e : Ev) (s : State) : State :=
  let s := raise e.code e.sev e.body s
  if e.sev.val = 4 then halt e.code s else s

def execEventRaise (e : Ev) (s : State) : Host.Outcome State Fault Refusal :=
  powered (eventRaise e) s

/-! The power loop (R451 to R453). -/

/-- ECLK's ceiling and floor in MHz. -/
def eclkMax : Nat := 2200
def eclkMin : Nat := 1400

/-- The hottest of sensors 0–63 as the monitor block delivers them, held ones too (R345, R451). -/
def dieTemp (s : State) : Q := ((List.range 64).map (fun i => reading 1 i s)).foldl max (reading 1 0 s)

/-- A temperature in whole °C, rounded down (SYS_POWER_STATUS; log 25). -/
def wholeDegrees (t : Q) : Int := t / 65536

/-- The readings over their limits: die power, input current, die temperature (R451). -/
def overLimits (r : PowerReading) (t : Q) : List Bool :=
  [decide (1050 < r.pdieW), decide (37500 < r.iinMa), decide (qi 100 < t)]

/-- All three readings are below 95 % of their limits (R451). -/
def calmReading (r : PowerReading) (t : Q) : Bool :=
  20 * r.pdieW < 19 * 1050 && 20 * r.iinMa < 19 * 37500 && t < qi 95

/-- Since when each die sensor stands at 110 °C or above (R453). -/
def hotSensors (s : State) : Tbl (Option Nat) :=
  ((List.range 64).filter (fun i => qi 110 ≤ reading 1 i s)).map (fun i => (i, (tget none s.power.dieOver i).or (some s.clk)))

/-- A tick since which a condition has held. -/
def heldSince (holds : Bool) (old : Option Nat) (s : State) : Option Nat := if holds then old.or (some s.clk) else none

/-- GLB_STATE.power_limited (R452). -/
def powerLimited (s : State) : Bool := s.power.eclk < eclkMax

/-- Event 0x1003 when power_limited has changed; `cause` is the mask of the readings over their limits (R452,
R460). -/
def limitedEvent (was : Bool) (cause : Nat) (s : State) : State :=
  if powerLimited s = was then s
  else
    let p := s.power
    raiseLimited 0x1003 1 0 (ticksS 10) 1 (fun n =>
      [word (b2n (powerLimited s)), word p.eclk, word p.sample.pdieW, sword (wholeDegrees p.tdie),
       word (if powerLimited s then cause else 0), word n]) s

/-- POWER_LOOP_SAMPLE (R451, R453, R460). -/
def powerSample (r : PowerReading) (s : State) : State :=
  let t := dieTemp s
  let overs := overLimits r t
  let lower := overs.any (·) && eclkMin < s.power.eclk
  let eclk := if lower then s.power.eclk - 25 else s.power.eclk
  let was := powerLimited s
  let wasI := s.power.iLimit
  let limI := decide (37500 < r.iinMa)
  let floor := eclk = eclkMin
  let s := { s with
    power.sample := r, power.tdie := t, power.eclk := eclk
    power.stepsDown := if lower then s.power.stepsDown + 1 else s.power.stepsDown
    power.calmSince := if lower then none else heldSince (calmReading r t) s.power.calmSince s
    power.pdieOver := heldSince (floor && 1100 < r.pdieW) s.power.pdieOver s
    power.iinOver := heldSince (floor && 40000 < r.iinMa) s.power.iinOver s
    power.dieOver := hotSensors s
    power.pdieTold := s.power.pdieTold && floor && 1100 < r.pdieW
    power.iinTold := s.power.iinTold && floor && 40000 < r.iinMa
    power.dieTold := s.power.dieTold && !(hotSensors s).isEmpty
    power.iLimit := limI, power.tLimit := decide (qi 100 < t) }
  let s := if limI != wasI then
      raiseLimited 0x1002 2 0 (ticksS 10) 0 (fun _ => [word r.iinMa, word eclk, word (b2n limI)]) s
    else s
  limitedEvent was (bitsNat overs) s

def execPowerLoopSample (r : PowerReading) (s : State) : Host.Outcome State Fault Refusal := live (powerSample r) s

/-- A condition has held for a time. -/
def heldFor (n : Nat) (t : Option Nat) (s : State) : Bool :=
  match t with
  | some t => n ≤ since t s
  | none => false

/-- ECLK_STEP_UP: after 1 ms with all readings below 95 % of their limits; the 1 ms starts again (R451). -/
def eclkStepUp (s : State) : State :=
  if heldFor (ticksMs 1) s.power.calmSince s && s.power.eclk < eclkMax then
    limitedEvent true 0 { s with power.eclk := s.power.eclk + 25, power.calmSince := some s.clk }
  else s

def execEclkStepUp (s : State) : Host.Outcome State Fault Refusal := live eclkStepUp s

/-- POWER_LIMIT_TRIP: 10 ms over a limit at the floor, once for each time over it (R453; log 56). -/
def powerLimitTrip (s : State) : State :=
  let p := heldFor (ticksMs 10) s.power.pdieOver s && !s.power.pdieTold
  let i := heldFor (ticksMs 10) s.power.iinOver s && !s.power.iinTold
  if p || i then
    fatal 0x1005 [word s.power.sample.pdieW, word s.power.sample.iinMa]
      { s with power.pdieTold := s.power.pdieTold || p, power.iinTold := s.power.iinTold || i }
  else s

def execPowerLimitTrip (s : State) : Host.Outcome State Fault Refusal := live powerLimitTrip s

/-- DIE_OVERTEMP_TRIP: a die sensor at 110 °C or above for 1 ms, once for each such time (R453; log 56). -/
def dieOvertempTrip (sensor : Nat) (s : State) : State :=
  if heldFor (ticksMs 1) (tget none s.power.dieOver sensor) s && !s.power.dieTold then
    fatal 0x1006 [word sensor, sword (wholeDegrees s.power.tdie)] { s with power.dieTold := true }
  else s

def execDieOvertempTrip (sensor : Fin 64) (s : State) : Host.Outcome State Fault Refusal :=
  live (dieOvertempTrip sensor) s

/-- SHANK_THERMAL_TRIP: a plane at t_lim + 10 °C or above for 10 ms, once for each such time (R334; log 56). -/
def shankThermalTrip (p : Nat) (s : State) : State :=
  let x := planeOf s p
  match x.limits with
  | none => s
  | some l =>
    if heldFor (ticksMs 10) x.hotSince s && !x.hotTold then
      fatal 0x5013 [word p, qWord x.tp, qWord l.tLim] (setPlane p { x with hotTold := true } s)
    else s

def execShankThermalTrip (plane : Fin 2) (s : State) : Host.Outcome State Fault Refusal :=
  live (shankThermalTrip plane) s

/-! Input, converter and hold-up store (R447, R450, R460). -/

/-- INPUT_RANGE_CHANGE (R460). -/
def inputRange (v : Nat) (s : State) : State :=
  let was := s.power.under || s.power.overV
  let s := { s with power.under := decide (v < 4800), power.overV := decide (7200 < v) }
  let out := s.power.under || s.power.overV
  if was = out then s else raise 0x1001 2 [word v, word (b2n !out)] s

def execInputRangeChange (vin10mV : Nat) (s : State) : Host.Outcome State Fault Refusal := powered (inputRange vin10mV) s

/-- CONVERTER_TEMP_CHANGE (R460). -/
def converterTemp (t : Int) (s : State) : State :=
  if (110 < t && !s.power.convHot) || (t < 110 && s.power.convHot) then
    raise 0x1008 2 [sword t, word (b2n (!s.power.convHot))] { s with power.convHot := !s.power.convHot }
  else s

def execConverterTempChange (temp : Int) (s : State) : Host.Outcome State Fault Refusal := powered (converterTemp temp) s

/-- HOLDUP_CHECK: at power-up and every 24 hours (R450). -/
def holdupCheck (cap v : Nat) (s : State) : State :=
  let due := match s.power.checkedAt with
    | none => true
    | some t => ticksS 86400 ≤ since t s
  if !due || !s.power.charged then s
  else
    let bad := decide (cap < 3200) || decide (v < 5700)
    let s := { s with power.checkedAt := some s.clk, power.holdupFault := bad }
    if bad then raise 0x1007 2 [word cap, word v] s else s

def execHoldupCheck (capUf vhold10mV : Nat) (s : State) : Host.Outcome State Fault Refusal :=
  live (holdupCheck capUf vhold10mV) s

/-- HOLDUP_STORE_CHARGED: PWR_GOOD rises (R447). -/
def holdupCharged (v : Nat) (s : State) : State :=
  if s.power.failing then s else { s with power.charged := true, power.sample := { s.power.sample with vhold10mV := v } }

def execHoldupStoreCharged (vhold10mV : Nat) (s : State) : Host.Outcome State Fault Refusal :=
  powered (holdupCharged vhold10mV) s

/-- The group 1 alarms: bits 0 to 4 of word 6 of SYS_POWER_STATUS. -/
def alarms (s : State) : List Bool :=
  [s.power.under, s.power.overV, s.power.iLimit, s.power.holdupFault, s.power.convHot]

/-- The pin PWR_GOOD (R447). -/
def pwrGood (s : State) : Bool := s.power.on && s.power.charged && !s.power.failing

/-- The pin PWR_ALERT (R447). -/
def pwrAlert (s : State) : Bool := s.power.on && ((alarms s).any (·) || s.power.failing)

/-- SYS_POWER_STATUS (R451). -/
def sysPowerStatusCmd : Cmd where
  op := 0x0111
  len := (· = 2)
  unadmitted := []
  object := fun _ _ => none
  args := fun _ _ => none
  run := fun _ s =>
    let p := s.power
    let x := p.sample
    .of .ok
      [word (x.vin10mV % 65536 + 65536 * (x.iinMa % 65536)), word (x.pinW % 65536 + 65536 * (x.pdieW % 65536)),
       word (p.eclk + 65536 * unsignedOf 8 (wholeDegrees p.tdie)),
       word (x.vhold10mV % 65536 + 65536 * b2n (p.charged && !p.holdupFault)),
       word (bitsNat (alarms s ++ [powerLimited s, p.tLimit])), p.stepsDown] s

def execSysPowerStatus (r : Req) (s : State) : Host.Outcome State Fault Refusal := .next (runCmd sysPowerStatusCmd r s)

end Sys2Proof.Machine
end

