-- ==== Sys2Proof/Machine/Recorder.lean ====
section
/-! DEFINITION. The event recorder: chunks, areas, flash operations, freezing, the power-fail flush, its
commands and its registers (R393 to R413). -/

namespace Sys2Proof.Machine

/-! Chunks and areas (R397 to R399, R407). -/

/-- Bytes of records that a chunk holds (R398). -/
def chunkRoom : Nat := 4088

/-- The last chunk of the Heel main area, where room is kept for 0xA004 (R399). -/
def heelLast : Nat := 895

/-- Length of the record of event 0xA004 (R394). -/
def a004Len : Nat := 28

/-- Length of the record of event 0xA005 (R394). -/
def a005Len : Nat := 36

/-- The Toe sector after a sector, retired ones passed over (R399, R407). -/
def nextToe (retired : List Nat) : Nat → Nat → Nat
  | 0, sec => sec
  | fuel + 1, sec =>
    let n := if 511 ≤ sec then 64 else sec + 1
    if retired.contains n then nextToe retired fuel n else n

/-- A sector is erased: no chunk of it is written and no erase of it was cut short (R399, R409). -/
def sectorErased (l : Rec) (sec : Nat) : Bool :=
  !l.halfErased.contains sec
    && (List.range 16).all (fun i => (tget none l.flash (16 * sec + i)).isNone)

/-- The chunk after a Toe chunk. -/
def nextToeChunk (l : Rec) (c : Nat) : Nat :=
  if c % 16 = 15 then 16 * nextToe l.retired 448 (c / 16) else c + 1

/-- The chunk that the recorder programs next, and none when it may not program one now (R399, R407,
R408). -/
def target (l : Rec) : Option Nat :=
  if l.mediaFail then none
  else if l.tailActive then (if l.tailNext < 1024 then some l.tailNext else none)
  else if l.heelNext ≤ heelLast then some l.heelNext
  else if l.toeNext % 16 = 0 && !(sectorErased l (l.toeNext / 16)
      && sectorErased l (nextToe l.retired 448 (l.toeNext / 16))) then none
  else some l.toeNext

/-- The room for buffered records in a chunk (R398, R399). -/
def roomOf (c : Nat) : Nat := if c = heelLast then chunkRoom - a004Len else chunkRoom

/-- The oldest records that fit whole (R398, R401). -/
def pack : Nat → List Record → List Record
  | _, [] => []
  | room, r :: rs => if recLen r ≤ room then r :: pack (room - recLen r) rs else []

/-- The highest seq of some records (R399). -/
def highSeq (q : Word) (l : List Record) : Word :=
  l.foldl (fun m r => if m.toNat < r.seq.toNat then r.seq else m) q

/-- Event 0xA004, raised for the Heel's last chunk and written into it: the record and the state
(R399). -/
def heelDone (recs : List Record) (s : State) : Record × State :=
  let r := { mkRecord 0xA004 1 [highSeq s.log.seqFlash recs] s with seq := nextSeq s.log.seqNew }
  (r, fireVector 1 (some r.seq) { s with log.seqNew := r.seq })

/-- The chunk that the power-fail flush programs next: erased chunks suffice, and no erase is needed (R409, R410). -/
def flushTarget (l : Rec) : Option Nat :=
  if l.mediaFail || l.tailActive || l.heelNext ≤ heelLast || l.toeNext % 16 ≠ 0 then target l
  else if sectorErased l (l.toeNext / 16) then some l.toeNext
  else
    let n := nextToe l.retired 448 (l.toeNext / 16)
    if sectorErased l n then some (16 * n) else none

/-- Program a chunk: it is in flight until LOG_CHUNK_COMPLETE, in the format version of now (R398, R401, R411). -/
def startChunk (c : Nat) (recs : List Record) (s : State) : State :=
  let (recs, s) := if c = heelLast then
      let (r, s) := heelDone recs s
      (recs ++ [r], s)
    else (recs, s)
  { s with log.inFlight := some (c, recs), log.flightVersion := s.fw.logVersion }

/-- A log chunk could start now: it has precedence over an erase that has not started (R401). -/
def chunkReady (s : State) : Bool := 4096 ≤ fill s && (target s.log).isSome

/-- Begin an erase that is due, when the flash is free, no log chunk could start and the log is not frozen (R399 to
R401, R406). -/
def startErase (s : State) : State :=
  if s.log.inFlight.isSome || s.log.erasing.isSome || s.log.frozen.isSome || s.log.pf
      || !s.log.scanDone || chunkReady s then s
  else match s.log.halfErased, s.log.eraseDue with
    | h :: _, _ => { s with log.erasing := some h }
    | [], some d =>
      if sectorErased s.log d then { s with log.eraseDue := none }
      else { s with log.erasing := some d, log.eraseDue := none }
    | [], none => s

/-- LOG_CHUNK_WRITE: with 4,096 bytes waiting and the flash free, program the oldest records (R401). -/
def logChunkWrite (s : State) : State :=
  if s.log.inFlight.isSome || s.log.erasing.isSome || s.log.pf || !s.log.scanDone || fill s < 4096 then s
  else match target s.log with
    | some c => startChunk c (pack (roomOf c) s.log.buf) s
    | none =>
      -- the erase that the write point waits for (R399)
      let sec := s.log.toeNext / 16
      let due := if sectorErased s.log sec then nextToe s.log.retired 448 sec else sec
      if s.log.mediaFail || s.log.tailActive then s
      else startErase { s with log.eraseDue := some due }

def execLogChunkWrite (s : State) : Host.Outcome State Fault Refusal := powered logChunkWrite s

/-- The log becomes media-failed (R408): area 0 Heel main, 1 reserved tail, 2 Toe. -/
def mediaFail (area sector op : Nat) (s : State) : State :=
  raise 0xA002 3 [word area, word sector, word op] { s with log.mediaFail := true }

/-- The Toe fails: writing moves to the reserved tail, and with no room there the log is media-failed (R407, R408;
log 68). -/
def toeFail (sector op : Nat) (s : State) : State :=
  if s.log.tailActive || s.log.mediaFail then s
  else if 1024 ≤ s.log.tailNext then mediaFail 2 sector op s
  else raise 0xA003 2 [word s.log.retiredNow, word sector]
    { s with log.tailActive := true, log.failsInRow := 0 }

/-- The write point after chunk `c` (R399, R407). -/
def advance (c : Nat) (l : Rec) : Rec :=
  if c ≤ heelLast then { l with heelNext := c + 1 }
  else if c < 1024 then { l with tailNext := c + 1 }
  else { l with toeNext := nextToeChunk l c,
                eraseDue := if c % 16 = 0 then
                    some (nextToe l.retired 448 (nextToe l.retired 448 (c / 16))) else l.eraseDue }

/-- Every record up to freeze_seq is in flash (R406). -/
def freezeReached (l : Rec) : Bool :=
  match l.frozen with
  | some q => l.buf.all (fun r => 2 ^ 31 ≤ (q - r.seq).toNat)
  | none => false

/-- Set freeze_done once, when the freeze has reached its freeze_seq; a change from 0 to 1 sets the cause (R406,
R412). -/
def checkFreeze (s : State) : State :=
  if freezeReached s.log && !s.log.freezeTold then
    let t := { s with log.freezeDone := true, log.freezeTold := true }
    if s.log.freezeDone then t else setCause 7 t
  else s

/-- A record written to a chunk, with its tail and pf marks (R393, R407, R409). -/
def writtenRec (tail pf : Bool) (r : Record) : Record := { r with tail := r.tail || tail, pf := r.pf || pf }

/-- A chunk of a version has been programmed and verified: its records are in flash and leave the buffer (R401). -/
def chunkWritten (c version : Nat) (recs : List Record) (pf : Bool) (s : State) : State :=
  let tail := heelLast < c && c < 1024
  let recs' := recs.map (writtenRec tail pf)
  let l := s.log
  let l := { l with
    flash := tset none l.flash c (some { recs := recs', bad := false, version := version })
    buf := l.buf.filter (fun r => !recs.any (fun q => q.seq = r.seq))
    seqFlash := highSeq l.seqFlash recs
    failsInRow := 0 }
  let s := checkFreeze { s with log := advance c l }
  if tail && 1024 ≤ s.log.tailNext then mediaFail 1 63 1 s else s

/-- Put a record in its place in a buffer in sequence order (R401). -/
def insertRec (r : Record) : List Record → List Record
  | [] => [r]
  | q :: l => if 0 < (q.seq - r.seq).toInt then r :: q :: l else q :: insertRec r l

/-- A chunk failed to program or verify: its records are written again at the next chunk; three failures
in a row fail the Toe, and then the reserved tail (R407, R408). Event 0xA004, which only the chunk held, takes its place in
the buffer (R401). -/
def chunkFailed (c version : Nat) (recs : List Record) (s : State) : State :=
  let l := s.log
  let back := recs.filter (fun r => !l.buf.any (fun q => q.seq = r.seq))
  let l := { l with
    flash := tset none l.flash c (some { recs := [], bad := true, version := version })
    failsInRow := l.failsInRow + 1 }
  let s := growBuffer (back.foldl (fun b r => insertRec r b) l.buf) { s with log := advance c l }
  if heelLast < c && c < 1024 then
    if 3 ≤ s.log.failsInRow || 1024 ≤ s.log.tailNext then mediaFail 1 (c / 16) 1 s else s
  else if 1024 ≤ c && 3 ≤ s.log.failsInRow then toeFail (c / 16) 1 s
  else s

/-! Loss records and the power-fail flush (R403, R409). -/

/-- Length of a Loss record of `n` codes (R403). -/
def lossLen (n : Nat) : Nat := 24 + 4 * (4 + n)

/-- The items of a Loss record (R403). -/
def lossItems (l : Rec) : List Word :=
  [word l.total, l.firstOpsec, l.lastOpsec, word (l.counts.length + 256 * b2n l.more)]
    ++ l.counts.map (fun p => word (p.1.toNat + 65536 * p.2))

/-- The counts restart from zero (R403). -/
def clearCounts (l : Rec) : Rec :=
  { l with counts := [], total := 0, more := false, firstOpsec := 0, lastOpsec := 0 }

/-- LOSS_RECORD_WRITE: when fill allows, the Loss record of the held counts is stored (R403). -/
def lossRecordWrite (s : State) : State :=
  if s.log.total = 0 || s.log.pf || 229376 < fill s + lossLen s.log.counts.length then s
  else raise 0xA001 2 (lossItems s.log) { s with log := clearCounts s.log }

def execLossRecordWrite (s : State) : Host.Outcome State Fault Refusal := powered lossRecordWrite s

/-- Counts after the records left unwritten are counted too (R409). -/
def countAll (rs : List Record) (l : Rec) : Rec :=
  rs.foldl (fun l r => countEvent r.code r.opsec l) l

/-- Room that the Loss record and 0xA005 take in the last chunk (R409). -/
def tailRoom (rest : List Record) (l : Rec) : Nat :=
  let l' := countAll rest l
  a005Len + (if l'.total = 0 then 0 else lossLen l'.counts.length)

/-- The most records, of at most `k`, that leave room for the Loss record and 0xA005 (R409). -/
def flushTake (room : Nat) (order : List Record) (l : Rec) : Nat → Nat
  | 0 => 0
  | k + 1 => if recsLen (order.take (k + 1)) + tailRoom (order.drop (k + 1)) l ≤ room then k + 1
    else flushTake room order l k

/-- A record that the flush makes and writes into a chunk itself. -/
def flushRec (code : BitVec 16) (sev : Nat) (items : List Word) (s : State) : Record × State :=
  let r := { mkRecord code sev items s with seq := nextSeq s.log.seqNew }
  (r, fireVector sev (some r.seq) { s with log.seqNew := r.seq })

/-- A whole chunk of the flush: programmed and verified within the flush (R409, R410). -/
def flushChunk (c : Nat) (recs : List Record) (s : State) : State :=
  let (recs, s) := if c = heelLast then
      let (r, s) := heelDone recs s
      (recs ++ [r], s)
    else (recs, s)
  chunkWritten c s.fw.logVersion recs true s

/-- The last chunk of the flush: records, one Loss record when anything is to be accounted for, and
0xA005 (R409). -/
def flushLast (c : Nat) (recs rest : List Record) (written : Nat) (s : State) : State :=
  let s := { s with log := countAll rest s.log }
  let (loss, s) := if s.log.total = 0 then ([], s) else
    let (r, s) := flushRec 0xA001 2 (lossItems s.log) s
    ([r], { s with log := clearCounts s.log })
  let (r, s) := flushRec 0xA005 1
    [word s.log.flushFill, word (written + recs.length), word rest.length] s
  flushChunk c (recs ++ loss ++ [r]) s

/-- Chunks of the flush, at most as many as the first argument: the records in the given order (R409). -/
def flushChunks : Nat → List Record → Nat → State → State
  | 0, _, _, s => s
  | n + 1, order, written, s =>
    match flushTarget s.log with
    | none => s
    | some c =>
      let room := roomOf c
      let k := flushTake room order s.log order.length
      if n = 0 || (order.drop k).isEmpty then flushLast c (order.take k) (order.drop k) written s
      else
        let recs := pack room order
        flushChunks n (order.drop recs.length) (written + recs.length) (flushChunk c recs s)

/-- The power-fail flush: Error and Fatal records first, then the others, oldest first, in at most 8
chunks (R409). -/
def flushLog (s : State) : State :=
  let order := s.log.buf.filter (fun r => 3 ≤ r.sev) ++ s.log.buf.filter (fun r => r.sev < 3)
  let s := flushChunks 8 order 0 s
  { s with log.flushing := false }

/-- The power domain signals the fall of the input: erases are aborted, and from here on events below Error are
counted (R409). -/
def logPowerFail (s : State) : State :=
  let half := s.log.halfErased ++ s.log.erasing.toList
  { s with log.pf := true, log.flushing := true, log.flushFill := fill s,
           log.halfErased := half, log.erasing := none, log.eraseDue := none }

/-- The flush, when no log chunk that has started must complete first (R409). -/
def flushIdle (s : State) : State := if s.log.inFlight.isSome then s else flushLog s

/-- LOG_CHUNK_COMPLETE (R401, R407 to R409). -/
def logChunkComplete (ok : Bool) (s : State) : State :=
  match s.log.inFlight with
  | none => s
  | some (c, recs) =>
    let s := { s with log.inFlight := none }
    let v := s.log.flightVersion
    let s := if ok then chunkWritten c v recs false s else chunkFailed c v recs s
    if s.log.flushing then flushLog s else startErase s

def execLogChunkComplete (ok : Bool) (s : State) : Host.Outcome State Fault Refusal :=
  powered (logChunkComplete ok) s

/-- A sector is retired: it is skipped from now on, by the write point too when that stands at it (R407). -/
def retireSector (sec : Nat) (l : Rec) : Rec :=
  let r := l.retired ++ [sec]
  { l with retired := r, retiredNow := l.retiredNow + 1,
           toeNext := if l.toeNext / 16 = sec then 16 * nextToe r 448 sec else l.toeNext }

/-- TOE_ERASE_COMPLETE: the sector is erased, or is retired with event 0xA007 (R399, R407). -/
def toeEraseComplete (ok : Bool) (s : State) : State :=
  match s.log.erasing with
  | none => s
  | some sec =>
    let l := { s.log with erasing := none, halfErased := s.log.halfErased.filter (· ≠ sec) }
    if ok then startErase { s with log := { l with flash := l.flash.filter (fun p => p.1 / 16 ≠ sec) } }
    else
      let s := raise 0xA007 2 [word sec, 0] { s with log := retireSector sec l }
      let s := if 16 < s.log.retiredNow then toeFail sec 0 s else s
      startErase s

def execToeEraseComplete (ok : Bool) (s : State) : Host.Outcome State Fault Refusal :=
  powered (toeEraseComplete ok) s

/-! Freezing (R406). -/

/-- The log thaws: cause 1 a thaw, 2 the timeout (R406, R413). -/
def thaw (cause : Nat) (s : State) : State :=
  match s.log.frozen with
  | none => s
  | some q => startErase (raise 0xA006 0 [q, word cause] { s with log.frozen := none })

/-- LOG_FREEZE_TIMEOUT (R406). -/
def logFreezeTimeout (s : State) : State :=
  if s.log.frozen.isSome && ticksS s.log.freezeSecs ≤ since s.log.freezeStart s then thaw 2 s else s

def execLogFreezeTimeout (s : State) : Host.Outcome State Fault Refusal := powered logFreezeTimeout s

/-! The power-up scan (R400). -/

/-- All records of good chunks that meet a test of their chunk number. -/
def flashRecs (p : Nat → Bool) (l : Rec) : List Record :=
  l.flash.flatMap (fun e => match e.2 with
    | some c => if p e.1 && !c.bad then c.recs else []
    | none => [])

/-- The newest seq that flash holds (R396, R400). -/
def newestFlash (l : Rec) : Word := highSeq 0 (flashRecs (fun _ => true) l)

/-- The seq that stands as far after `new` as `q` stands after `old`; the seq that is never given is passed over, and
a counted event has none (R396, R404). -/
def moveSeq (old new q : Word) : Word :=
  if q = noSeq then q
  else
    let k := if old.toNat ≤ q.toNat then q.toNat - old.toNat else 2 ^ 32 - 1 - old.toNat + q.toNat
    word ((new.toNat + k) % (2 ^ 32 - 1))

/-- Numbers continue from the newest number that the scan has found: the records raised during the scan, which wait,
take theirs (R396, R400). -/
def renumber (old : Word) (s : State) : State :=
  let new := newestFlash s.log
  let f := fun (r : Record) => { r with seq := moveSeq old new r.seq }
  { s with log.buf := s.log.buf.map f, log.lastgasp := s.log.lastgasp.map f,
           log.seqNew := moveSeq old new s.log.seqNew, log.seqFlash := new,
           irq.evtSeq := if s.log.buf.any (fun r => r.seq = s.irq.evtSeq) then moveSeq old new s.irq.evtSeq
             else s.irq.evtSeq }

/-- A chunk whose CRC fails (R400). -/
def badChunk (p : Nat × Nat) (s : State) : State :=
  let k := 16 * p.1 + p.2
  match tget none s.log.flash k with
  | some c => { s with log.flash := tset none s.log.flash k (some { c with bad := true }) }
  | none => s

/-- LOG_SCAN_COMPLETE: chunks whose CRC fails are skipped, each with event 0xA008, and the newest number is known;
then buffered records are written (R396, R400). -/
def logScanComplete (bad : List (Nat × Nat)) (s : State) : State :=
  if s.log.scanDone then s
  else
    let written := bad.filter (fun p => (tget none s.log.flash (16 * p.1 + p.2)).isSome)
    let s := renumber (newestFlash s.log) (forAll bad badChunk s)
    let s := raiseTogether (written.map (fun p => ⟨0xA008, 2, [word p.1, word p.2]⟩)) s
    startErase { s with log.scanDone := true }

def execLogScanComplete (bad : List (Fin 512 × Fin 16)) (s : State) : Host.Outcome State Fault Refusal :=
  powered (logScanComplete (bad.map (fun p => (p.1.val, p.2.val)))) s

/-! Registers (R412). -/

/-- Oldest seq in the Toe (R412). -/
def oldestToe (l : Rec) : Word :=
  match flashRecs (fun c => 1024 ≤ c) l with
  | [] => 0
  | r :: rs => rs.foldl (fun m r => if r.seq.toNat < m.toNat then r.seq else m) r.seq

/-- LOG_STATUS (R412). -/
def logStatus (l : Rec) : Word :=
  word (bitsNat [l.mediaFail, l.tailActive, heelLast < l.heelNext, l.frozen.isSome, l.freezeDone,
    l.threshBit, l.total ≠ 0, l.flushing])

/-- LOG_FILL_PEAK_READ: returns the peak and loads it with the fill (R412). -/
def logFillPeakRead (s : State) : State :=
  emit (.regValue 0x50008 (word s.log.peak)) { s with log.peak := fill s }

def execLogFillPeakRead (s : State) : Host.Outcome State Fault Refusal :=
  onRead 0x50008 logFillPeakRead s

/-- LOG_LOST_READ: returns and clears the count (R412). -/
def logLostRead (s : State) : State :=
  emit (.regValue 0x50020 (word s.log.lost)) { s with log.lost := 0 }

def execLogLostRead (s : State) : Host.Outcome State Fault Refusal :=
  onRead 0x50020 logLostRead s

/-! Commands (LOG_READ, LOG_FREEZE, LOG_LASTGASP_READ, LOG_FILTER). -/

/-- A record as bytes; `converted` is set when the body was converted (R393, R411). -/
def recBytes (converted : Bool) (r : Record) : List Byte :=
  wordsBytes ([word (recLen r + 65536 * r.code.toNat),
    word (r.sev + 8 * b2n r.pf + 16 * b2n r.tail + 32 * b2n r.boot + 64 * b2n converted
      + 256 * r.pcycle.toNat), r.opsec, r.seq] ++ r.body)

/-- The pad after the last record of a chunk: its length, code 0 and zeros (R398). -/
def chunkPad (n : Nat) : List Byte := if n = 0 then [] else leBytes n n

/-- The first 4,092 bytes of a written chunk (R398). -/
def chunkBody (x : Chunk) : List Byte :=
  x.recs.flatMap (recBytes false) ++ chunkPad (chunkRoom - recsLen x.recs) ++ leBytes x.version 2 ++ [0, 0]

/-- The 4,096 bytes that flash holds of a chunk: a written one ends with the CRC-32C of its body, an erased one reads
as all ones (R398). What a chunk that failed holds is not stated. -/
def chunkBytes : Option Chunk → List Byte
  | some x => chunkBody x ++ leBytes (checkWord [] (chunkBody x)) 4
  | none => List.replicate 4096 0xFF

/-- A record as LOG_READ sees it: whether it lies in the Heel, whether it is converted. -/
structure Seen where
  record : Record
  heel : Bool
  converted : Bool
deriving DecidableEq, Repr

/-- The records of a chunk as LOG_READ sees them: bodies of an older version are converted (R411). -/
def seenChunk (current c : Nat) (x : Chunk) : List Seen :=
  let old := x.version ≠ current
  x.recs.map (fun r =>
    ⟨if old then { r with body := Config.convertBody x.version r.body } else r, c < 1024, old⟩)

/-- Put a record in seq order. -/
def insertSeen (x : Seen) : List Seen → List Seen
  | [] => [x]
  | y :: ys => if x.record.seq.toNat < y.record.seq.toNat then x :: y :: ys else y :: insertSeen x ys

/-- Heel, Toe and buffer as one sequence in seq order; event 0xA004 of a chunk in flight is neither in flash nor in
the buffer yet (R405). -/
def allSeen (current : Nat) (l : Rec) : List Seen :=
  let flash := l.flash.flatMap (fun e => match e.2 with
    | some x => if x.bad then [] else seenChunk current e.1 x
    | none => [])
  let flight := match l.inFlight with
    | some (_, recs) => recs.filter (fun r => !l.buf.any (fun q => q.seq = r.seq))
    | none => []
  let buf := ((l.buf ++ flight).filter (fun r => !flash.any (fun x => x.record.seq = r.seq))).map
    (fun r => ⟨r, false, false⟩)
  (flash ++ buf).foldl (fun acc x => insertSeen x acc) []

/-- A number from `q` on is missing from records in seq order, up to the one before `nxt` (R405, LOG_READ). -/
def missingSeq (nxt : Nat) : Nat → List Seen → Bool
  | q, [] => q < nxt
  | q, x :: xs => if nxt ≤ x.record.seq.toNat then q < nxt
    else q < x.record.seq.toNat || missingSeq nxt (x.record.seq.toNat + 1) xs

/-- The chunks that cannot be read. -/
def badChunks (l : Rec) : Nat := (l.flash.filter (fun e => match e.2 with
  | some x => x.bad
  | none => false)).length

/-- Records taken in order while they fit whole; the last record examined (LOG_READ). -/
def takeSeen (minSev : Nat) (heelOnly : Bool) : Nat → List Seen → Word → List Seen × Word
  | _, [], nxt => ([], nxt)
  | room, x :: xs, nxt =>
    if x.record.sev < minSev || (heelOnly && !x.heel) then takeSeen minSev heelOnly room xs (x.record.seq + 1)
    else if room < recLen x.record then ([], nxt)
    else
      let (l, n) := takeSeen minSev heelOnly (room - recLen x.record) xs (x.record.seq + 1)
      (x :: l, n)

/-- LOG_READ. -/
def logReadCmd : Cmd where
  op := 0x0A01
  len := (· = 8)
  unadmitted := []
  object := fun _ _ => none
  args := fun r _ => firstOf [need (zeroFrom r 3 4) .badArg, need (rf r 3 0 3 ≤ 4) .badArg,
    need (bulkOk r 4 && 1024 ≤ bulkLen r 4) .badArg]
  run := fun r s =>
    let start := rw r 2
    let xs := (allSeen s.fw.logVersion s.log).filter (fun x => start.toNat ≤ x.record.seq.toNat)
    let (got, nxt) := takeSeen (rf r 3 0 3) (rb r 3 3) (bulkLen r 4) xs start
    let data := got.flatMap (fun x => recBytes x.converted x.record)
    let from1 := max start.toNat 1
    let gap := match xs with
      | x :: _ => from1 < x.record.seq.toNat || missingSeq nxt.toNat from1 xs
      | [] => from1 ≤ s.log.seqNew.toNat
    let bad := badChunks s.log
    if !dmaGood r 0 then dmaFailed 0x0A01 r 4 [] s
    else if xs.isEmpty && bad ≠ 0 && gap then .of .mediaFail [] s
    else .reply .ok
      [word got.length, word data.length, match got with
        | x :: _ => x.record.seq
        | [] => noSeq, nxt, oldestToe s.log, s.log.seqNew, word (min bad 65535 + 65536 * b2n gap)]
      (if data.isEmpty then [] else [(bulkAddr r 4, data)]) s

def execLogRead (r : Req) (s : State) : Host.Outcome State Fault Refusal := .next (runCmd logReadCmd r s)

/-- LOG_FREEZE. -/
def logFreezeCmd : Cmd where
  op := 0x0A02
  len := (· = 3)
  unadmitted := []
  object := fun _ _ => none
  args := fun r _ => firstOf [need (rf r 2 1 7 = 0 && zeroFrom r 2 16) .badArg,
    need (rb r 2 0 || rf r 2 8 8 = 0) .badArg]
  run := fun r s =>
    if rb r 2 0 then
      let secs := if rf r 2 8 8 = 0 then 30 else rf r 2 8 8
      match s.log.frozen with
      | some q => .of .ok [q] { s with log.freezeStart := s.clk, log.freezeSecs := secs }
      | none =>
        let q := s.log.seqNew
        let s := { s with log.frozen := some q, log.freezeStart := s.clk, log.freezeSecs := secs,
                          log.freezeTold := false }
        .of .ok [q] (checkFreeze (raise 0xA006 0 [q, 0] s))
    else .of .ok [noSeq] (thaw 1 s)

def execLogFreeze (r : Req) (s : State) : Host.Outcome State Fault Refusal := .next (runCmd logFreezeCmd r s)

/-- LOG_LASTGASP_READ (R404). -/
def logLastgaspCmd : Cmd where
  op := 0x0A03
  len := (· = 6)
  unadmitted := []
  object := fun _ _ => none
  args := fun r _ => need (bulkOk r 2 && 65536 ≤ bulkLen r 2) .badArg
  run := fun r s =>
    let data := s.log.lastgasp.flatMap (recBytes false)
    if !dmaGood r 0 then dmaFailed 0x0A03 r 2 [] s
    else .reply .ok [word s.log.lastgasp.length, word data.length]
      (if data.isEmpty then [] else [(bulkAddr r 2, data)]) s

def execLogLastgaspRead (r : Req) (s : State) : Host.Outcome State Fault Refusal :=
  .next (runCmd logLastgaspCmd r s)

/-- LOG_FILTER (R402). -/
def logFilterCmd : Cmd where
  op := 0x0A04
  len := (· = 3)
  unadmitted := []
  object := fun _ _ => none
  args := fun r _ => need (rf r 2 0 2 = 0 && rf r 2 20 2 = 0 && zeroFrom r 2 24
    && (List.range 12).all (fun g => rf r 2 (2 * g) 2 ≠ 3)) .badArg
  run := fun r s =>
    let w := rw r 2
    if w = s.log.filter then .ok s
    else .ok (raise 0xA00A 1 [w] { s with log.filter := w })

def execLogFilter (r : Req) (s : State) : Host.Outcome State Fault Refusal := .next (runCmd logFilterCmd r s)

end Sys2Proof.Machine
end

