-- ==== Sys2Proof/Machine/Resets.lean ====
section
/-! DEFINITION. Resets, power failure, the boot ROM and start-up (R21, R51, R56, R348, R349, R411, R425, R432 to
R437, R454 to R458, R465). -/

namespace Sys2Proof.Machine

/-! What flash and fuses bring back (R10, R348, R454, R456). -/

/-- The record of a slot, unless a check of R348 fails it. -/
def goodRecord (m : Mon) (n : Nat) : Option CalRec :=
  match tget none m.slots n with
  | some r => if r.fault.isNone then some r else none
  | none => none

/-- The good field record with the higher count, with its slot (R348). -/
def newestRecord (m : Mon) : Option (Nat × CalRec) :=
  match goodRecord m 1, goodRecord m 2 with
  | some a, some b => if a.count.toNat ≤ b.count.toNat then some (2, b) else some (1, a)
  | some a, none => some (1, a)
  | none, some b => some (2, b)
  | none, none => none

/-- The values of a stored record in use (R346, R348). -/
def useRecord (r : CalRec) (m : Mon) : Mon :=
  { m with
    corr := r.items.map (fun e => (e.1, some { old := e.2, new := e.2, n := 256 })),
    lastTemp := r.temps.map (fun e => (e.1, some e.2)),
    count := r.count, opsec := r.opsec, pcycle := r.pcycle, failed := r.failed }

/-- The monitor block after a reset: the newest field record, else the factory record, else every procedure
failed (R341, R348). -/
def startMon (m : Mon) : Mon :=
  let base : Mon := { slots := m.slots }
  match newestRecord m with
  | some (n, r) => { useRecord r base with current := some n }
  | none => match goodRecord m 0 with
    | some r => useRecord r base
    | none => { base with failed := 63 }

/-- Event 0x6005 for every slot whose record fails a check (R348, R350). -/
def reportSlots (s : State) : State :=
  forAll s.mon.slots (fun e s => match e.2 with
    | some r => match r.fault with
      | some cause => raise 0x6005 3 [word e.1, word cause] s
      | none => s
    | none => s) s

/-- The firmware block after a reset: flash keeps the firmware area, the staging bytes, boot control and the
versions of the stored records (R422, R428, R432, R440, R444). -/
def startFw (f : Fw) : Fw :=
  { area := f.area, staged := f.staged, boot := f.boot, opsecSaved := f.opsecSaved,
    calVersion := f.calVersion, logVersion := f.logVersion }

/-- What every module and power-on reset leaves: the reset state with fuses, counts and flash; the model's clock,
free-value count, outputs and queue go on (R454). -/
def restart (s : State) : State :=
  { State.reset with
    glb := { svn := s.glb.svn, serial := s.glb.serial, dieRev := s.glb.dieRev, boardRev := s.glb.boardRev,
             opsec := s.glb.opsec, pcycle := s.glb.pcycle }
    fw := startFw s.fw
    mon := startMon s.mon
    tpm := { cage := s.tpm.cage }
    tmu := { wdogStart := s.clk, holdoverSince := s.clk, enabledAt := s.clk }
    log := s.log
    clk := s.clk, fresh := s.fresh, out := s.out, pending := s.pending }

/-! Module reset (R454). -/

/-- The power block after a module reset: the input's, the store's and the converter's alarms show what holds, and
the count of down-steps is since power-up (SYS_POWER_STATUS; log 49). -/
def keepPower (kind : ResetKind) (held : Bool) (s : State) : Power :=
  let p := s.power
  { charged := p.charged, failing := p.failing, held := held, stepsDown := p.stepsDown, under := p.under,
    overV := p.overV, iLimit := p.iLimit, holdupFault := p.holdupFault, convHot := p.convHot, checkedAt := p.checkedAt,
    resetKind := kind, resetAt := s.clk }

/-- A module reset: every domain but the security and recorder domain starts afresh; the Welt is unpowered
(R316, R454), and its forces are released (R317, R318). The Trial timer belongs to the security domain (R448). -/
def moduleReset (kind : ResetKind) (held : Bool) (s : State) : State :=
  let s := releaseForces (weltDark 3 s)
  let t := restart s
  { t with power := keepPower kind held s, fw := { t.fw with trialStart := s.fw.trialStart } }

/-- MODULE_RESET: MOD_RESET_N has been low for 10 µs and holds the blocks in reset (R454, R465). -/
def execModuleReset (s : State) : Host.Outcome State Fault Refusal := powered (moduleReset .module true) s

/-- MOD_RESET_N rises: start-up begins (R465). -/
def modResetRelease (s : State) : State :=
  if s.power.held then
    { s with power := { s.power with held := false }
             tmu := { s.tmu with wdogStart := s.clk, holdoverSince := s.clk, enabledAt := s.clk } }
  else s

def execModResetRelease (s : State) : Host.Outcome State Fault Refusal := powered modResetRelease s

/-! Host-link and function level resets (R21, R454). -/

/-- A taken command whose slot is reset runs on and its response is discarded (R21). -/
def discardTaken (t : Taken) : Taken :=
  match t.req.via with
  | .slot n => { t with req := { t.req with via := .discarded n } }
  | _ => t

/-- The MBX block, the slots, the IRQ block, the MSI-X table and the BAR2 mappings at their reset values; rung
commands are discarded (R21; log 50). -/
def linkReset (s : State) : State :=
  { s with
    mbx := { waiting := s.mbx.waiting.map discardTaken, started := s.mbx.started.map discardTaken,
             orders := s.mbx.orders }
    irq := {}
    bar2 := {} }

/-- Slots whose command Yarler has taken. -/
def takenSlots (s : State) : Nat := (s.mbx.slots.filter (fun p => p.2.cond = .busy)).length

/-- FUNCTION_LEVEL_RESET (R21, R64). -/
def functionReset (s : State) : State :=
  raise 0xB007 1 [word s.mbx.rung.length, word (takenSlots s)] (linkReset s)

def execFunctionLevelReset (s : State) : Host.Outcome State Fault Refusal := live functionReset s

/-- HOST_LINK_RESET: the host-facing blocks only (R454). -/
def hostLinkReset (s : State) : State :=
  let s := linkReset s
  { s with glb := { s.glb with scratch := 0 }, cvus := []
           tpm := { s.tpm with rx := {}, tx := {}, noDesc := 0, bad := 0 } }

def execHostLinkReset (s : State) : Host.Outcome State Fault Refusal := live hostLinkReset s

/-! SYS_RESET (R454). -/

/-- A job is Running or an activation is Armed. -/
def resetUnsafe (s : State) : Bool := anyRunning s || activationArmed s

/-- SYS_RESET: the reset follows 1 ms after the done bit (R454). -/
def sysResetCmd : Cmd where
  op := 0x0110
  len := (· = 4)
  unadmitted := []
  object := fun r s => need (rb r 2 0 || rb r 2 1 || !resetUnsafe s) .wrongState
  args := fun r s => firstOf [need (zeroFrom r 2 2 && rw r 3 = 0x2460) .badArg,
    need (!activationFiring s) .busy]
  run := fun r s =>
    let kind := if rb r 2 0 then ResetKind.hostLink else .module
    .ok { s with power := { s.power with resetDue := s.power.resetDue ++ [(kind, s.clk)] } }

def execSysReset (r : Req) (s : State) : Host.Outcome State Fault Refusal := .next (runCmd sysResetCmd r s)

/-- RESET_DELAY_EXPIRY: 1 ms after the done bit the reset begins (R454). -/
def resetDelayExpiry (s : State) : State :=
  match s.power.resetDue with
  | [] => s
  | (kind, t) :: rest =>
    if ticksMs 1 ≤ since t s then
      let s := { s with power := { s.power with resetDue := rest } }
      if kind = .hostLink then hostLinkReset s else moduleReset .module false s
    else s

def execResetDelayExpiry (s : State) : Host.Outcome State Fault Refusal := live resetDelayExpiry s

/-! Power (R454, R455, R457, R458). -/

/-- The recorder at power-up: flash, its write points and its retired sectors stay, and the flash is tried again. The
numbers of records raised during the scan are settled by what it finds (R396, R400, R407, R408; `renumber`). -/
def startLog (l : Rec) : Rec :=
  { flash := l.flash, heelNext := l.heelNext, tailNext := l.tailNext, toeNext := l.toeNext,
    halfErased := l.halfErased, retired := l.retired, seqNew := newestFlash l, seqFlash := newestFlash l }

/-- A power-on reset: everything; GLB_PCYCLE rises, GLB_OPSEC comes back from boot control (R454, R457). -/
def powerOnReset (s : State) : State :=
  let t := restart { s with clk := 0 }
  reportSlots { t with
    glb := { t.glb with pcycle := s.glb.pcycle + 1, opsec := s.fw.opsecSaved }
    log := startLog s.log
    power := {} }

/-- POWER_ON: the input rises through 46 V after hold-up has ended (R454, R455). -/
def execPowerOn (s : State) : Host.Outcome State Fault Refusal :=
  .next (if s.power.on then s else powerOnReset s)

/-- The compute, memory, optical and Welt domains are off (R448, R457). -/
def shedDomains (s : State) : State :=
  { s with
    tiles := [], mem := {}, stitch := {}, shank := {}
    place := { s.place with rmap := [], move := none, settling := [] }
    fabric := { s.fabric with units := [], lanes := [], inReq := [], inResp := [], mesh := {}, fronts := [] }
    bar2 := { s.bar2 with held := [] }
    resil := { s.resil with copy := none, draining := none, held := [] } }

/-- POWER_FAIL: event 0x1004, the flush, GLB_OPSEC saved and the domains shed (R409, R457; log 51). A reset that
SYS_RESET asked for does not come (R458). -/
def powerFail (vin10mV : Nat) (s : State) : State :=
  if s.power.failing then s
  else
    let running := (s.jobs.filter (fun p => p.2.status = .running)).length
    let s := { s with power := { s.power with failing := true, resetDue := [] } }
    let s := raise 0x1004 3 [word vin10mV, word (fill s), word running] s
    let s := logPowerFail s
    let s := { s with fw := { s.fw with opsecSaved := s.glb.opsec } }
    flushIdle (shedDomains (weltDark 3 s))

def execPowerFail (vin10mV : Nat) (s : State) : Host.Outcome State Fault Refusal := powered (powerFail vin10mV) s

/-- The management and recorder domains go off (R457). -/
def powerOff (s : State) : State :=
  { s with power := { s.power with on := false, charged := false, failing := false, held := false }
           glb := { s.glb with yarlerUp := false }
           fw := { s.fw with session := none, trialStart := none } }

/-- HOLDUP_END: with the input present a power-on reset follows at once (R458). -/
def holdupEnd (inputPresent : Bool) (s : State) : State :=
  if s.power.failing then (if inputPresent then powerOnReset s else powerOff s) else s

def execHoldupEnd (inputPresent : Bool) (s : State) : Host.Outcome State Fault Refusal :=
  powered (holdupEnd inputPresent) s

/-! The boot ROM (R56, R425, R432 to R435). -/

/-- The module enters Dead: no image runs, the Welt is unpowered, the service port is closed (R27, R51, R435,
R438). -/
def enterDead (s : State) : State :=
  let s := { s with glb := { s.glb with fwVer := 0, yarlerUp := false }
                    fw := { s.fw with session := none, trialStart := none } }
  enter .dead 0 (weltDark 3 s)

/-- The boot ROM's check of its key: the fused digest is the SHAKE256 of the image public key that it holds. How long the
digest is, the rules do not say (R425; log 8). -/
def romKeyOk : Bool :=
  (List.range Config.fusedDigest.length).map (Config.shakeByte Config.imageKey) = Config.fusedDigest

/-- Copy: the staged image becomes the firmware area, and boot control Trial (R432). -/
def bootCopy (s : State) : State :=
  if s.fw.boot = .copy then { s with fw := { s.fw with area := s.fw.staged, boot := .trial } } else s

/-- The check of the firmware area at every start (R433). -/
def areaGood (s : State) : Bool :=
  (headerRefused s.fw.area.header s.glb.svn.toNat).isNone && (verifyImage s.fw.area).isNone

/-- The image finds stored records of older versions (R437). -/
def olderRecords (s : State) : Bool :=
  s.fw.calVersion < hdrCal s.fw.area.header || s.fw.logVersion < hdrLog s.fw.area.header

/-- BOOT_ROM_START: the key check, the action of boot control, the check of the area, and the start of the image
(R56, R425, R432 to R434). -/
def bootRomStart (s : State) : State :=
  if s.glb.yarlerUp || !(s.glb.state = .boot || s.glb.state = .halted) then s
  else if !romKeyOk || s.fw.boot = .dead then enterDead s
  else
    let s := bootCopy s
    if areaGood s then
      let trial := s.fw.boot = .trial && s.glb.state = .boot
      let s := { s with glb := { s.glb with yarlerUp := true, heartbeat := 0 }
                        fw := { s.fw with trialStart := if trial then some s.clk else none, migrateDue := olderRecords s } }
      let s := if s.glb.state = .boot then { s with fabric.ptr0 := s.tmu.ns.toNat % 256 } else s
      if s.glb.state = .boot then s else showVersion s
    else enterDead { s with fw := { s.fw with boot := .dead } }

def execBootRomStart (s : State) : Host.Outcome State Fault Refusal := live bootRomStart s

/-- TRIAL_TIMEOUT: 30 s in Trial without Configurable (R434). -/
def trialTimeout (s : State) : State :=
  match s.fw.trialStart with
  | none => s
  | some t =>
    if ticksS 30 ≤ since t s && (s.glb.state = .boot || s.glb.state = .migrate) then
      enterDead { s with fw := { s.fw with boot := .dead } }
    else s

def execTrialTimeout (s : State) : Host.Outcome State Fault Refusal := powered trialTimeout s

/-! Migration and the end of start-up (R51, R349, R411, R434, R436, R437, R455, R460). -/


/-- The calibration record is converted once and written with the next count (R349; log 52). -/
def migrateCal (flashOk : Bool) (s : State) : State :=
  let v := hdrCal s.fw.area.header
  if v ≤ s.fw.calVersion then s
  else
    let count := s.mon.count + 1
    let old := (match s.mon.current with
      | some n => goodRecord s.mon n
      | none => goodRecord s.mon 0).getD {}
    let s' := putRecord flashOk { old with count := count, version := v, field := true } { s with mon := { s.mon with count := if flashOk then count else s.mon.count } }
    if flashOk then raise 0x6007 1 [word s.fw.calVersion, word v, count] s' else s'

/-- The first record that no chunk of the old version holds or will hold: the oldest in the buffer that is not being
programmed, else event 0xA009 itself (R411). -/
def firstNewSeq (l : Rec) : Word :=
  let flight := match l.inFlight with
    | some (_, recs) => recs
    | none => []
  match l.buf.find? (fun r => !flight.any (fun q => q.seq = r.seq)) with
  | some r => r.seq
  | none => nextSeq l.seqNew

/-- The recorder notes the new version of the log's chunks (R411). -/
def migrateLog (s : State) : State :=
  let v := hdrLog s.fw.area.header
  if v ≤ s.fw.logVersion then s
  else raise 0xA009 1 [word s.fw.logVersion, word v, firstNewSeq s.log] { s with fw := { s.fw with logVersion := v } }

/-- MIGRATION: sent in Boot, the module enters Migrate; sent in Migrate, it converts. A Fatal event in between stops the
migration with the older records current (R51, R56, R437; log 52). -/
def migration (flashOk : Bool) (s : State) : State :=
  if s.glb.state = .boot && s.glb.yarlerUp && s.fw.migrateDue then
    enter .migrate 0 (showVersion { s with fw := { s.fw with migrated := true } })
  else if s.glb.state = .migrate && !s.fw.converted then
    migrateLog (migrateCal flashOk { s with fw := { s.fw with converted := true } })
  else s

def execMigration (flashOk : Bool) (s : State) : Host.Outcome State Fault Refusal := live (migration flashOk) s

/-- Everything that R455 asks for before Configurable. -/
def startReady (s : State) : Bool :=
  s.glb.yarlerUp && memoryReady s && s.log.scanDone && s.mon.atStart && s.mon.running = 0 && s.power.charged
    && ((s.glb.state = .boot && !s.fw.migrateDue) || (s.glb.state = .migrate && s.fw.converted))

/-- The reset kind of event 0x1009 (R460). -/
def resetCode : ResetKind → Nat
  | .powerOn => 0 | .module => 1 | .activation => 2 | .hostLink => 1

/-- A Trial that reaches Configurable ends in Normal, with event 0x9006 (R434, R445). -/
def endTrial (s : State) : State :=
  match s.fw.trialStart with
  | none => s
  | some t =>
    raise 0x9006 1 [hdrVersion s.fw.area.header, word (since t s / 500000000), word (b2n s.fw.migrated)]
      { s with fw := { s.fw with boot := .normal, trialStart := none } }

/-- Fuse steps towards the image's svn, with event 0x9007 or 0x9008 (R436). -/
def blowFuses (n : Nat) (s : State) : State :=
  let old := s.glb.svn.toNat
  let goal := hdrSvn s.fw.area.header
  if goal ≤ old then s
  else
    let got := min (old + n) goal
    let s := { s with glb := { s.glb with svn := BitVec.ofNat 7 got } }
    if got = goal then raise 0x9007 1 [word old, word got] s else raise 0x9008 3 [word goal, word got] s

/-- STARTUP_COMPLETE: the module enters Configurable and powers the Welt (R316, R434, R436, R455, R460). -/
def startupComplete (fuses : Nat) (s : State) : State :=
  if startReady s then
    let s := weltOn 1 (enter .configurable 0 (showVersion s))
    let s := raise 0x1009 0 [word (since s.power.resetAt s / 500000), word (resetCode s.power.resetKind)] s
    blowFuses fuses (endTrial s)
  else s

def execStartupComplete (fusesBlown : Fin 65) (s : State) : Host.Outcome State Fault Refusal :=
  live (startupComplete fusesBlown) s

end Sys2Proof.Machine
end

