-- ==== Sys2Proof/Machine/Resilience.lean ====
section
/-! DEFINITION. Epochs, mirroring and heartbeats (R229, R378 to R388, R392). -/

namespace Sys2Proof.Machine

/-- No index (R382). -/
def noIndex : Word := 0xFFFFFFFF

/-! Boundaries (R378, R379). -/

/-- The period in ns. -/
def periodNs (s : State) : Nat := s.resil.periodMs * 1000000

/-- The instant of boundary `n` (R378). -/
def boundaryAt (n : Word) (s : State) : BitVec 48 :=
  s.resil.origin + BitVec.ofNat 48 ((n - s.resil.first).toNat * periodNs s)

/-- Event 0x8002 (R392). -/
def notTaken (n : Word) (cause peer : Nat) (s : State) : State :=
  raiseLimited 0x8002 2 cause (ticksS 10) 0 (fun _ => [n, word cause, word peer])
    { s with resil.untaken := s.resil.untaken + 1 }

/-- Arm a boundary; a full table leaves none armed (log 46). -/
def armBoundary (n : Word) (s : State) : State :=
  match takeIndex s with
  | none => { s with resil.armed := none }
  | some i => { armAt i 3 ((boundaryAt n s).setWidth 32) false 0 0 s with resil.armed := some (n, i) }

/-- Boundaries that lie less than 1 ms ahead from `n` on (R378). -/
def tooNear (n : Word) (s : State) : Nat :=
  let d := siteDiff (boundaryAt n s) (siteNow s)
  if 1000000 ≤ d then 0 else ((1000000 - d).toNat + periodNs s - 1) / periodNs s

/-- Yarler arms the boundary after `n`; the ones that a step leaves too near are passed over (R378). -/
def armNext (n : Word) (s : State) : State :=
  let k := tooNear (n + 1) s
  let s := forAll (List.range k) (fun i s => notTaken (n + 1 + BitVec.ofNat 32 i) 4 0 s) s
  armBoundary (n + 1 + BitVec.ofNat 32 k) s

/-- A newest seal lies at or before an instant, or there is none (R379). -/
def sealedBy (sealed : Word) (t limit : BitVec 48) : Bool := sealed = noIndex || siteDiff t limit ≤ 0

/-- The latest heartbeat of a peer reports no copy and a seal at or before an instant (R379). -/
def peerReady (p : Peer) (limit : BitVec 48) : Bool :=
  p.hb ≠ [] && !bit (nth 0 p.hb 6) 16
    && sealedBy (nth 0 p.hb 4) ((nth 0 p.hb 6).setWidth 16 ++ nth 0 p.hb 5) limit

/-- Why a boundary at an instant is not taken: cause and peer of event 0x8002 (R379; log 46). -/
def whyNot (t : BitVec 48) (s : State) : Option (Nat × Nat) :=
  let g := if s.resil.peers.isEmpty then 0 else 2000 * s.resil.hbUs
  let limit := t - BitVec.ofNat 48 g
  match s.resil.peers.find? (·.lost) with
  | some p => some (3, p.id)
  | none =>
    if s.resil.copy.isSome then some (1, 0)
    else if !sealedBy s.resil.sealedNew s.resil.sealT limit then some (2, ownId s)
    else (s.resil.peers.find? (fun p => !peerReady p limit)).map (fun p => (2, p.id))

/-- A page is owned by a masked job (R380). -/
def pageMasked (key : Nat) (s : State) : Bool :=
  match pageOwner (key / 2 ^ 22) (key % 2 ^ 22) s with
  | some j => j < 16 && bit s.resil.jobMask j
  | none => false

/-- The extent that a region of the image takes in this module's memory. -/
def imageExtent (r : ImageRegion) (s : State) : Option Extent :=
  match regionOf r.job r.region s with
  | some x => match x.base with
    | some b => if pgaSpace b = 0 then some (extentOf (pgaOff b) x.size s) else none
    | none => none
  | none => none

/-- The regions that take a full image (R384, BUDDY_SET, EPOCH_CONFIG). -/
def fullOnes (s : State) : List ImageRegion :=
  s.resil.image.filter (fun r => r.since.isNone && bit s.resil.jobMask r.job)

/-- The mirror engine asks for the header of the store (R155, R384). -/
def askHeader (s : State) : State :=
  askPool 64 1 { op := 3, phys := true, cls := 2, source := 1, len := 64, target := storeAt 0 s,
                 localPa := Config.stagingPa s.stitch.issued 0 } s

/-- The dirty bits are drained and the image of a taken boundary begins (R229, R379, R380, R384, R385). -/
def takeBoundary (n : Word) (i : Nat) (s : State) : State :=
  let s := if s.resil.fullDue then
      { s with resil.fullDue := false, resil.image := s.resil.image.map (fun r => { r with since := none }) }
    else s
  let full := fullOnes s
  let whole := full.flatMap (fun r => match imageExtent r s with
    | some e => e.pages
    | none => [])
  let drained := (s.mem.dirty.filter (·.2)).map (·.1)
  let pages := (drained ++ s.resil.carried).filter (fun k => pageMasked k s) ++ whole
  let c : Copy := { index := n, startAt := s.clk, full := !full.isEmpty, half := 1 - s.resil.halfNew,
                    todo := pages.eraseDups, pages := pages.eraseDups,
                    fullRegions := full.map (fun r => (r.job, r.region))
                    places := s.resil.image.filterMap (fun r =>
                      (imageExtent r s).map (fun e => (r, e.chan, e.ways, e.lo, e.hi))) }
  let s := { s with
    mem.dirty := [], mem.recent := [], resil.taken := n, resil.carried := [], resil.draining := some i, resil.copy := some c }
  if s.resil.buddy.isNone then copyFail 3 0 s else askHeader s

/-- Boundary `n`, whose instant is `t`, is taken or not (R379). -/
def boundaryAct (n : Word) (t : BitVec 48) (i : Nat) (s : State) : State :=
  match whyNot t s with
  | some (cause, peer) => notTaken n cause peer (spend i true s)
  | none => takeBoundary n i s

/-- A boundary entry fires: the next one is armed, this one is taken or not (R378, R379). -/
def boundaryFire (i : Nat) (s : State) : State :=
  match s.resil.armed with
  | none => spend i true s
  | some (n, _) => boundaryAct n (schedOf s i).instant i (armNext n s)

/-- DIRTY_DRAIN_END: the sweep ends and the boundary's entry is Spent (R229, R372). -/
def dirtyDrainEnd (s : State) : State :=
  match s.resil.draining with
  | none => s
  | some i => spend i false { s with resil.draining := none }

/-- EPOCH_CONFIG's period in ms, 0 for 200. -/
def reqPeriod (r : Req) : Nat := if rf r 3 0 11 = 0 then 200 else rf r 3 0 11

/-- The armed boundary is disarmed. -/
def disarmBoundary (s : State) : State :=
  match s.resil.armed with
  | none => s
  | some (_, i) => { disarmEntry i s with resil.armed := none }

/-- A job that joins the mask takes a full image (EPOCH_CONFIG; log 46). -/
def joinMask (old new : Word) (s : State) : State :=
  let added := jobNos.filter (fun j => bit new j && !bit old j)
  let image := s.resil.image.map (fun r => if added.contains r.job then { r with since := none } else r)
  forAll added imageJob { s with resil.jobMask := new, resil.image := image }

/-- EPOCH_CONFIG. -/
def epochConfigCmd : Cmd where
  op := 0x0901
  len := (· = 7)
  unadmitted := []
  object := fun r s => need (!rb r 2 0 || s.resil.buddy.isSome) .wrongState
  args := fun r _ => need (zeroFrom r 2 1 && zeroFrom r 3 11 && zeroFrom r 6 16
    && 50 ≤ reqPeriod r && reqPeriod r ≤ 2000 && (rb r 2 0 || rw r 4 = 0)) .badArg
  run := fun r s =>
    let set := fun (s : State) =>
      joinMask s.resil.jobMask (rw r 6) { s with resil.enabled := rb r 2 0, resil.periodMs := reqPeriod r,
                                                 resil.first := rw r 5 }
    if !rb r 2 0 then .ok (set (disarmBoundary s))
    else match armWith 3 1000000 (rw r 4) false 0 0 (disarmBoundary s) with
      | .error st => .of st [] s
      | .ok (i, s') =>
        let e := schedOf s' i
        .of .accepted [e.seq.setWidth 32]
          { set s' with resil.origin := e.instant, resil.armed := some (rw r 5, i), resil.untaken := 0 }

def execEpochConfig (r : Req) (s : State) : Host.Outcome State Fault Refusal := .next (runCmd epochConfigCmd r s)

/-! Heartbeats (R386, R387). -/

/-- HEARTBEAT_CONFIG's period and miss, with their defaults. -/
def reqHbUs (r : Req) : Nat := if rf r 2 0 14 = 0 then 1000 else rf r 2 0 14
def reqMiss (r : Req) : Nat := if rf r 2 14 4 = 0 then 4 else rf r 2 14 4

/-- The arguments of a HEARTBEAT_CONFIG. -/
def hbOk (r : Req) : Bool :=
  let n := rf r 3 0 7
  zeroFrom r 2 18 && zeroFrom r 3 7 && n ≤ 64 && 250 ≤ reqHbUs r && reqHbUs r ≤ 10000 && 2 ≤ reqMiss r
    && (if n = 0 then zeroWords r 4 7 || bulkOk r 4 else bulkOk r 4 && idBytes n ≤ bulkLen r 4)

/-- HEARTBEAT_CONFIG. -/
def heartbeatConfigCmd : Cmd where
  op := 0x0903
  len := (· = 8)
  unadmitted := []
  object := fun _ _ => none
  args := fun r _ => need (hbOk r) .badArg
  run := fun r s =>
    let n := rf r 3 0 7
    let ids := if n = 0 then [] else idsOf n (bulkBytes r 0 4)
    if n ≠ 0 && !dmaGood r 0 then dmaFailed 0x0903 r 4 [] s
    else if ids.eraseDups.length ≠ n || ids.contains (ownId s) || ids.contains 0xFFFF then .of .badArg [] s
    else .ok { s with resil.hbUs := reqHbUs r, resil.miss := reqMiss r,
                      resil.peers := ids.map (fun m => { id := m, lastAt := s.clk }) }

def execHeartbeatConfig (r : Req) (s : State) : Host.Outcome State Fault Refusal :=
  .next (runCmd heartbeatConfigCmd r s)

/-- The record of a heartbeat (R386). -/
def hbRecord (seq : Word) (s : State) : List Word :=
  [word (ownId s + 2 ^ 16 * stateCode s.glb.state), seq, s.tmu.ns, s.resil.taken, s.resil.sealedNew,
   s.resil.sealT.setWidth 32, word ((s.resil.sealT >>> 32).toNat + 2 ^ 16 * b2n s.resil.copy.isSome), 0]

/-- HEARTBEAT_SEND: a 32-byte Management-class put to every peer's management space (R386). -/
def heartbeatSend (s : State) : State :=
  if s.resil.peers.isEmpty then s
  else
    let s := { s with resil.hbSeq := s.resil.hbSeq + 1 }
    let bs := wordsBytes (hbRecord s.resil.hbSeq s)
    forAll s.resil.peers (fun p s => askPool 65 4
      { op := 1, phys := true, cls := 3, source := 2, len := 32, target := pga p.id 3 (0x01000000 + 32 * ownId s),
        localPa := Config.stagingPa s.stitch.issued p.id, data := bs } s) s

def execHeartbeatSend (s : State) : Host.Outcome State Fault Refusal :=
  sends (fun s => if serving s then heartbeatSend s else s) s

/-- The peers after a change of those that a test names. -/
def modPeers (p : Peer → Bool) (f : Peer → Peer) (s : State) : State :=
  { s with resil.peers := s.resil.peers.map (fun x => if p x then f x else x) }

/-- HEARTBEAT_RECEIVE (R387): one with a state other than Halted makes a lost peer heard again. -/
def heartbeatReceive (hb : List Word) (s : State) : State :=
  let m := field (nth 0 hb 0) 0 16
  let well := field (nth 0 hb 0) 16 4 ≠ 7
  let again := well && s.resil.peers.any (fun p => p.id = m && p.lost)
  let s := modPeers (fun p => p.id = m) (fun p => { p with lastAt := s.clk, hb := hb, lost := p.lost && !well }) s
  if again then raise 0x8011 1 [word m] s else s

def execHeartbeatReceive (record : Vector Word 8) (s : State) : Host.Outcome State Fault Refusal :=
  let m := field (nth 0 record.toList 0) 0 16
  live (fun s => if !serving s then s
    else if s.glb.state = .halted then refuseHalted m (pga (ownId s) 3 (0x01000000 + 32 * m)) s
    else heartbeatReceive record.toList s) s

/-- PEER_CHECK (R385, R387). -/
def peerCheck (i : Nat) (s : State) : State :=
  match s.resil.peers[i]? with
  | none => s
  | some p =>
    let halted := p.hb ≠ [] && field (nth 0 p.hb 0) 16 4 = 7
    let silent := ticksUs (s.resil.miss * s.resil.hbUs) ≤ since p.lastAt s
    if p.lost || !(halted || silent) then s
    else
      let s := modPeers (fun x => x.id = p.id) (fun x => { x with lost := true }) s
      let s := raise 0x8010 3 [word p.id, word (if silent then 0 else 1), word (since p.lastAt s / 500000)] s
      if s.resil.buddy = some p.id then copyFail 4 0 s else s

def execPeerCheck (peer : Fin 64) (s : State) : Host.Outcome State Fault Refusal :=
  live (fun s => if serving s then peerCheck peer s else s) s

/-! The store at the buddy and the copy (R381 to R385). -/

/-- The alignment of a store's areas: w × 64 KiB (R381). -/
def storeAlign (view : Nat) : Nat := viewWays view * 65536

/-- Bytes of a journal half: J index entries and J granules, aligned (R381). -/
def halfBytes (view j : Nat) : Nat :=
  let a := storeAlign view
  if a = 0 then 0 else (j * 4112 + a - 1) / a * a

/-- Offset of a journal half and of the image in a store (R381). -/
def halfOff (view j h : Nat) : Nat := storeAlign view + h * halfBytes view j
def imageOff (view j : Nat) : Nat := halfOff view j 2

/-- Bytes of a store (R381). -/
def storeBytes (view j image : Nat) : Nat :=
  let a := storeAlign view
  if a = 0 then 0 else imageOff view j + (image + a - 1) / a * a

/-- Bytes in the mirror engine's staging buffer: pages not yet sent and operations not yet complete (R380). -/
def stagedBytes (s : State) : Nat :=
  let c := match s.resil.copy with
    | some c => 65536 * c.staged.length
    | none => 0
  let w := ((s.stitch.waitList.filter (fun w => w.purpose = 2)).map (fun w => w.desc.data.length)).sum
  let t := ((s.stitch.table.filter (fun p => p.2.purpose = 2 && incomplete p.2)).map
    (fun p => p.2.desc.data.length)).sum
  c + w + t

/-- The region of the image that a page belonged to at the boundary, with its extent then (R380). -/
def pageRegion (key : Nat) (s : State) : Option (ImageRegion × Extent) :=
  match s.resil.copy with
  | none => none
  | some c => c.places.findSome? (fun p =>
      let e : Extent := ⟨p.2.1, p.2.2.1, p.2.2.2.1, p.2.2.2.2⟩
      if e.pages.contains key then some (p.1, e) else none)

/-- The image offsets of a page's 16 granules, in order (R211, R383, R384). A move to a wider view may put granules past
the room that the region took in the image; they hold no byte of the region and are not sent (log 46). -/
def pageGranules (key : Nat) (r : ImageRegion) (e : Extent) : List Nat :=
  let rel := key % 2 ^ 22 - e.lo
  let off := fun q => ((rel * 16 + q) * e.ways + (key / 2 ^ 22 - e.chan)) * 4096
  ((List.range 16).filter (fun q => off q < r.room)).map (fun q => r.off + off q)

/-- A journal index entry (R382). -/
def indexEntry (n : Word) (off : Nat) : List Byte := leBytes off 8 ++ wordBytes n ++ leBytes 0 4

/-- A page's granules go to the journal half, or to the image itself for a region that has no sealed image; too
many fail the copy (R384, R385). -/
def sendPage (key : Nat) (bs : List Byte) (s : State) : State :=
  match s.resil.copy, pageRegion key s with
  | some c, some (r, e) =>
    let v := s.resil.storeView
    let l := pageGranules key r e
    let j := s.resil.storeJ
    if c.fullRegions.contains (r.job, r.region) then
      forAll l.zipIdx (fun g s => askPool 64 2
        (mirrorPut (imageOff v j + g.1) ((bs.drop (4096 * g.2)).take 4096) s) s) s
    else if j < c.granules + l.length then copyFail 2 0 s
    else if l.isEmpty then s
    else
      let h := halfOff v j c.half
      let s := askPool 64 2 (mirrorPut (h + 16 * j + 4096 * c.granules) (bs.take (4096 * l.length)) s) s
      let s := askPool 64 2 (mirrorPut (h + 16 * c.granules) (l.flatMap (indexEntry c.index)) s) s
      { s with resil.copy := s.resil.copy.map (fun c => { c with granules := c.granules + l.length }) }
  | _, _ => s

/-- The header shows that the other journal half is free: applied equals sealed_old, or the store holds one index alone
after a restore (R384, R390; log 46). -/
def halfFree (header : List Byte) : Bool :=
  bytesAt header 24 4 = bytesAt header 40 4
    || (bytesAt header 24 4 = 0xFFFFFFFF && bytesAt header 20 4 = bytesAt header 40 4)

/-- MIRROR_COPY_START: the header has been read. Once it shows the other half free, since of the regions that this image
gives whole goes into their table entries; until then the header is read again (R382, R384; log 46). -/
def mirrorCopyStart (s : State) : State :=
  match s.resil.copy with
  | none => s
  | some c => match c.header with
    | none => s
    | some h =>
      if c.started then s
      else if !halfFree h then askHeader { s with resil.copy := some { c with header := none } }
      else
        let full := s.resil.image.filter (fun r => c.fullRegions.contains (r.job, r.region))
        let s := { s with resil.copy := some { c with started := true, staged := [] } }
        let s := forAll full (fun r => putTable r.slot (tableEntry { r with since := some c.index }) 2) s
        forAll c.staged (fun p => sendPage p.1 p.2) s

def execMirrorCopyStart (_header : List Byte) (s : State) : Host.Outcome State Fault Refusal :=
  sends mirrorCopyStart s

/-- The page that the mirror engine reads next: one that a write waits for, else the first (R380). -/
def nextPage (c : Copy) (s : State) : Option Nat :=
  let wanted := s.resil.held.flatMap (fun h => heldPages h s) ++ s.bar2.held.filterMap (fun w => barPage w s)
  match wanted.find? (fun k => c.todo.contains k) with
  | some k => some k
  | none => c.todo.head?

/-- The pieces of a page: all of it on one channel. -/
def pagePieces (key : Nat) : List (Nat × Nat × Nat) := [(key / 2 ^ 22, key % 2 ^ 22 * 65536, 65536)]

/-- MIRROR_PAGE_READ: a page that stands in the staging buffer of a copy that has started is sent. Else, within the Mirror
class's share of the channel (R232), a pending page goes into the buffer and writes held on it go on; an uncorrectable line
or a channel out of service fails the copy (R220, R380, R385). -/
def mirrorPageRead (s : State) : State :=
  match s.resil.copy with
  | none => s
  | some c => match (if c.started then c.staged else []), nextPage c s with
    | (k, bs) :: l, _ => sendPage k bs { s with resil.copy := some { c with staged := l } }
    | [], none => s
    | [], some k =>
      let l := pagePieces k
      if 2 ^ 24 < stagedBytes s + 65536 || mirrorLines (frontOf (k / 2 ^ 22) s) s < 1024 then s
      else if !(chanOf s (k / 2 ^ 22)).inService then copyFail 1 1 s
      else
        let bs := piecesBytes l s
        let ue := piecesUe l s
        let s := piecesTouch readerMirror l (chargePieces atMirror 2 l s)
        if ue then copyFail 1 0x13 s
        else
          let todo := c.todo.filter (· ≠ k)
          let s := if c.started then sendPage k bs { s with resil.copy := some { c with todo := todo } }
            else { s with resil.copy := some { c with todo := todo, staged := c.staged ++ [(k, bs)] } }
          retryWindows (releasePage k s)

def execMirrorPageRead (flaws : List Flaw) (s : State) : Host.Outcome State Fault Refusal :=
  sends (fun s => mirrorPageRead (inject flaws s)) s

/-- Words 5 to 9 of the header at a seal (R382). -/
def sealWords (c : Copy) (s : State) : List Byte :=
  wordBytes c.index ++ wordBytes s.resil.sealedNew ++ leBytes c.half 4 ++ wordBytes s.tmu.ns ++ leBytes s.tmu.era.toNat 4

/-- MIRROR_SEAL: every operation of the copy is complete (R384). -/
def mirrorSeal (s : State) : State :=
  match s.resil.copy with
  | none => s
  | some c =>
    let busy := s.stitch.waitList.any (fun w => w.purpose = 2)
      || s.stitch.table.any (fun p => p.2.purpose = 2 && incomplete p.2)
    if !c.started || c.sealing || !c.todo.isEmpty || !c.staged.isEmpty || busy then s
    else askPool 64 3 (mirrorPut 20 (sealWords c s) s) { s with resil.copy := some { c with sealing := true } }

def execMirrorSeal (s : State) : Host.Outcome State Fault Refusal := live mirrorSeal s

end Sys2Proof.Machine
end

