-- ==== Sys2Proof/Machine/Stores.lean ====
section
/-! DEFINITION. Mirror stores that this module holds, its buddy, promotion and restore (R381 to R385, R389 to
R392). -/

namespace Sys2Proof.Machine

/-! Reading and writing a store (R381, R382). -/

/-- The memory of bytes of a store. -/
def storePieces (x : Store) (off n : Nat) (s : State) : Option (List (Nat × Nat × Nat)) := spans (x.base + off) n s

/-- Bytes of a store can be read. -/
def storeGood (x : Store) (off n : Nat) (s : State) : Bool :=
  match storePieces x off n s with
  | some l => !piecesUe l s
  | none => false

/-- Bytes of a store; free where they cannot be read (log 47). -/
def storeGet (x : Store) (off n : Nat) (s : State) : List Byte :=
  match storePieces x off n s with
  | some l => if piecesUe l s then (List.range n).map (Config.freeByte s.fresh) else piecesBytes l s
  | none => (List.range n).map (Config.freeByte s.fresh)

/-- Yarler writes bytes of a store; `dirty` for the Management class (R228). -/
def storePut (dirty : Bool) (x : Store) (off : Nat) (bs : List Byte) (s : State) : State :=
  match storePieces x off bs.length s with
  | some l => piecesWrite dirty readerYarler l bs (chargePieces atYarler 3 l s)
  | none => s

/-- Yarler reads bytes of a store: lines are corrected or found bad, rewrites are queued (R217, R220). -/
def storeRead (x : Store) (off n : Nat) (s : State) : State :=
  match storePieces x off n s with
  | some l => piecesTouch readerYarler l (chargePieces atYarler 3 l s)
  | none => s

/-- Word `i` of a store's header. -/
def hdrGet (x : Store) (i : Nat) (s : State) : Word := word (leNat (storeGet x (4 * i) 4 s))

/-- Words written to a store's header from word `i` on. -/
def hdrPut (x : Store) (i : Nat) (ws : List Word) (s : State) : State := storePut true x (4 * i) (wordsBytes ws) s

/-- Bytes of a store. -/
def Store.bytes (x : Store) : Nat := storeBytes x.view x.journal x.image

/-! STORE_APPLY (R384). -/

/-- Granules of a journal half that carry an index go to the image; none when one cannot be read, with what had
been applied before it. The count is of granules applied. -/
def applyHalf (x : Store) (h : Nat) (n : Word) : Nat → Nat × State → Except State (Nat × State)
  | 0, a => .ok a
  | k + 1, a => match applyHalf x h n k a with
    | .error s => .error s
    | .ok (c, s) =>
      let at0 := halfOff x.view x.journal h + 16 * k
      let src := halfOff x.view x.journal h + 16 * x.journal + 4096 * k
      let e := storeGet x at0 16 s
      let dst := bytesAt e 0 8
      let good := storeGood x at0 16 s
      let s := storeRead x at0 16 s
      if !good then .error s
      else if bytesAt e 8 4 ≠ n.toNat || x.image < dst + 4096 then .ok (c, s)
      else if !storeGood x src 4096 s then .error (storeRead x src 4096 s)
      else .ok (c + 1, storePut false x (imageOff x.view x.journal + dst) (storeGet x src 4096 s) (storeRead x src 4096 s))

/-- Bring the image of a store to a sealed index from a journal half: applied reads none while the apply runs, and stays
so when the journal cannot be read (R382, R384; log 47). -/
def applyIndex (x : Store) (h : Nat) (n : Word) (s : State) : Except State (Nat × State) :=
  match applyHalf x h n x.journal (0, hdrPut x 10 [noIndex] s) with
  | .error s => .error s
  | .ok (c, s) => .ok (c, hdrPut x 10 [n] s)

/-- Bring the image of a store to the older sealed index. -/
def applyOld (x : Store) (s : State) : Except State (Nat × State) :=
  let old := hdrGet x 6 s
  let half := 1 - field (hdrGet x 7 s) 0 1
  if old = noIndex || hdrGet x 10 s = old then .ok (0, s) else applyIndex x half old s

/-- What the holder does on seeing a seal: a header with one index alone, as the first seal and a restore leave it, brings
the image to that index, any other to the older one (R384, R390; log 47). -/
def applySeal (x : Store) (s : State) : Except State (Nat × State) :=
  let alone := hdrGet x 6 s = noIndex && hdrGet x 10 s ≠ hdrGet x 5 s
  let new := hdrGet x 5 s
  let half := field (hdrGet x 7 s) 0 1
  let s := storeRead x 0 64 s
  if alone then applyIndex x half new s else applyOld x s

/-- STORE_APPLY: on seeing a seal the holder applies the older journal half and sets applied (R384). -/
def storeApply (k : Nat) (s : State) : State :=
  match tget none s.resil.stores k with
  | none => s
  | some x =>
    if x.sealAt.isNone then s
    else
      let s := { s with resil.stores := tset none s.resil.stores k (some { x with sealAt := none }) }
      match applySeal x s with
      | .error s => s
      | .ok (_, s) => s

def execStoreApply (store : Fin 4) (s : State) : Host.Outcome State Fault Refusal := fed (storeApply store) s

/-! BUDDY_SET. -/

/-- The numbers of the stores held. -/
def storeNo (source : Nat) (s : State) : Option Nat :=
  (List.range 4).find? (fun k => ((tget none s.resil.stores k).map (·.source)) = some source)

/-- image_bytes and journal_granules of a BUDDY_SET. -/
def reqImage (r : Req) : Nat := (rw r 4).toNat + 2 ^ 32 * rf r 5 0 8
def reqJournal (r : Req) : Nat := rf r 6 0 24

/-- The arguments of a BUDDY_SET. -/
def buddyArgs (r : Req) (s : State) : Bool :=
  let mode := rf r 2 0 2
  let m := rf r 3 0 16
  zeroFrom r 2 2 && zeroFrom r 3 16 && zeroFrom r 5 8 && zeroFrom r 6 24
    && (if mode = 3 then m = 0 else m ≠ 0xFFFF && m ≠ ownId s)
    && (if mode = 1 then reqImage r % 65536 = 0 && 1024 ≤ reqJournal r && reqJournal r ≤ 16777215
        else reqImage r = 0 && reqJournal r = 0)
    && (mode ≠ 2 || (storeNo m s).isSome)

/-- The buddy's header and region table, as mode 0 reads them, when they are of a store for this module. -/
def buddyHeader (r : Req) (s : State) : Option (List Byte) :=
  match dmaOf r 0 with
  | some h => if 64 ≤ h.length && bytesAt h 0 4 = 0x53544F52 && bytesAt h 4 2 = ownId s then some h else none
  | none => none

/-- The table entries in use of a header and region table (R382). -/
def usedSlots (h : List Byte) : List Nat := (List.range 2046).filter (fun i => bytesAt h (64 + 32 * i + 8) 8 ≠ 0)

/-- The buddy of a restore changes: the restore fails (R390; log 47). -/
def restoreCut (s : State) : State :=
  { s with resil.restore := s.resil.restore.map (fun r => { r with error := 0x10, todo := [] }) }

/-- Mode 0: the buddy is set; masked jobs are laid out anew and table entries of no region are cleared (R383;
log 46). The store's address at the buddy is what the surroundings answer second. -/
def setBuddy (m : Nat) (h : List Byte) (addr : Nat) (s : State) : State :=
  let s := restoreCut (copyFail 3 0 s)
  let s := { s with
    resil.buddy := some m, resil.storeBase := pgaOff addr, resil.storeJ := bytesAt h 8 3,
    resil.storeImage := bytesAt h 12 8, resil.storeView := bytesAt h 6 1 % 8,
    resil.sealedNew := word (bytesAt h 20 4), resil.sealedOld := word (bytesAt h 24 4),
    resil.halfNew := bytesAt h 28 1 % 2,
    resil.sealT := BitVec.ofNat 48 (bytesAt h 32 6), resil.image := [], resil.fullDue := true }
  let s := forAll jobNos imageJob s
  forAll ((usedSlots h).filter (fun i => !s.resil.image.any (fun r => r.slot = i)))
    (fun i => putTable i (List.replicate 32 0) 0) s

/-- The bytes of a store's header and region table before anything is written (R382). -/
def emptyTable : List Byte := List.replicate 65536 0

/-- Mode 1: reserve a store (R381, R382); one store for a source (log 47). -/
def reserveStore (r : Req) (s : State) : Ans :=
  let m := rf r 3 0 16
  let v := defaultView s
  let total := storeBytes v (reqJournal r) (reqImage r)
  match (List.range 4).find? (fun k => (tget none s.resil.stores k).isNone), freeView v (viewPages v total) s with
  | some k, some off =>
    if (storeNo m s).isSome then .of .noResource [] s
    else
      let x : Store := { source := m, base := off, view := v, image := reqImage r, journal := reqJournal r }
      let s := (extentOf off total s).own (storeOwner k) s
      let s := { s with resil.stores := tset none s.resil.stores k (some x) }
      let s := storePut true x 0 emptyTable s
      let s := hdrPut x 0 [0x53544F52, word (m + 65536 * v), word (reqJournal r), word (reqImage r % 2 ^ 32),
        word (reqImage r / 2 ^ 32), noIndex, noIndex, 0, 0, 0, noIndex] s
      let a := ownPga 0 off s
      .of .ok [word (a % 2 ^ 32), word (a / 2 ^ 32)] (raise 0x8015 1 (word m :: dwords total) s)
  | _, _ => .of .noResource [] s

/-- Mode 2: free a store. -/
def freeStore (m : Nat) (s : State) : State :=
  match storeNo m s with
  | none => s
  | some k => match tget none s.resil.stores k with
    | none => s
    | some x => raise 0x8015 1 (word m :: dwords x.bytes) { s with
        resil.stores := tset none s.resil.stores k none
        place.owned := s.place.owned.filter (fun o => o.job ≠ storeOwner k) }

/-- BUDDY_SET. A promotion is one step, so a store is never found in promotion. -/
def buddySetCmd : Cmd where
  op := 0x0902
  len := (· = 7)
  unadmitted := []
  object := fun r s => need (rf r 2 0 2 ≠ 0 || (buddyHeader r s).isSome) .wrongState
  args := fun r s => need (buddyArgs r s) .badArg
  run := fun r s =>
    let m := rf r 3 0 16
    match rf r 2 0 2 with
    | 0 => match buddyHeader r s with
      | some h => .ok (setBuddy m h (leNat ((dmaOf r 1).getD [])) s)
      | none => .of .wrongState [] s
    | 1 => reserveStore r s
    | 2 => .ok (freeStore m s)
    | _ => .ok { restoreCut (copyFail 3 0 s) with resil.buddy := none, resil.image := [], resil.fullDue := true }

def execBuddySet (r : Req) (s : State) : Host.Outcome State Fault Refusal := .next (runCmd buddySetCmd r s)

/-! RECOVER_PROMOTE. -/

/-- A region table entry of a store (R382). -/
structure TableRow where
  slot : Nat
  region : Nat
  size : Nat
  off : Nat
deriving DecidableEq, Repr

/-- The regions of a job_tag in a store, with since at or before an index when `n` is given (R382, R389). -/
def storeRegions (x : Store) (tag : Word) (n : Option Word) (s : State) : List TableRow :=
  (List.range 2046).filterMap (fun i =>
    let e := storeGet x (64 + 32 * i) 32 s
    let early := match n with
      | some k => bytesAt e 24 4 ≤ k.toNat
      | none => true
    if bytesAt e 8 8 ≠ 0 && bytesAt e 0 4 = tag.toNat && early && bytesAt e 24 4 ≠ 0xFFFFFFFF then
      some { slot := i, region := bytesAt e 4 2, size := bytesAt e 8 8, off := bytesAt e 16 8 }
    else none)

/-- The store is promotable at an index for a job_tag (R384; log 47). -/
def storePromotable (x : Store) (tag n : Word) (s : State) : Bool :=
  n ≠ noIndex && (n = hdrGet x 5 s || n = hdrGet x 6 s) && !(storeRegions x tag (some n) s).isEmpty

/-- Bring a store's image to an index and leave that index alone in its header (R389, R390). -/
def bringTo (x : Store) (n : Word) (s : State) : Except State (Nat × State) :=
  let keep := fun (a : Nat × State) => (a.1, hdrPut x 10 [n] (hdrPut x 5 [n, noIndex] a.2))
  match applyOld x s with
  | .error s => .error s
  | .ok (c, s) =>
    if n = hdrGet x 6 s || n = hdrGet x 10 s then .ok (keep (c, s))
    else match applyHalf x (field (hdrGet x 7 s) 0 1) n x.journal (c, hdrPut x 10 [noIndex] s) with
      | .error s => .error s
      | .ok a => .ok (keep a)

/-- Ownership of an extent moves from one holder to another (R389). -/
def Extent.hand (a : Extent) (src dst : Nat) (s : State) : State :=
  let cut := fun (o : Own) =>
    if o.job = src && a.chan ≤ o.chan && o.chan < a.chan + a.ways && o.lo < a.hi && a.lo < o.hi then
      (if o.lo < a.lo then [{ o with hi := a.lo }] else []) ++ (if a.hi < o.hi then [{ o with lo := a.hi }] else [])
    else [o]
  a.own dst { s with place.owned := s.place.owned.flatMap cut }

/-- One region becomes a local region of a job at its image range (R389). -/
def promoteRegion (k j : Nat) (x : Store) (e : TableRow) (s : State) : State :=
  let off := x.base + imageOff x.view x.journal + e.off
  let ext := extentOf off e.size s
  let g : Region := { size := e.size, kind := 1, view := x.view, base := some (ownPga 0 off s) }
  let s := setRegion j e.region (some g) s
  let s := rmMod j e.region (fun _ => { valid := true, place := 2, job := j, region := e.region, size := e.size,
                                        base := ownPga 0 off s }) s
  let s := forAll (List.range ext.ways) (fun i =>
    setDirty (ext.chan + i) (ext.lo * 65536) ((ext.hi - ext.lo) * 65536)) (ext.hand (storeOwner k) j s)
  storePut true x (64 + 32 * e.slot) (List.replicate 32 0) s

/-- A promotion or restore that fails part-way: event 0x8014 and INTERNAL with event 0xB008 (R32, R392; log 47).
Causes: 1 the store or the buddy cannot be read. -/
def recoverFailed (r : Req) (s : State) : Ans :=
  let s := raise 0x8014 3 [word (rf r 2 0 1), word (rf r 2 1 4), rw r 4, 1] s
  .of .internal [] (raise 0xB008 3 [word (viaSlot r), 0x0904, r.tag] s)

/-- Bytes of a store's header and region table (R382). -/
def tableBytes : Nat := 64 + 32 * 2046

/-- Mode 0, after the header and region table have been read (R217, R220, R389). -/
def promote (r : Req) (s : State) : Ans :=
  let j := rf r 2 1 4
  let m := rf r 3 0 16
  let n := rw r 4
  match storeNo m s with
  | none => .of .badArg [] s
  | some k => match tget none s.resil.stores k with
    | none => .of .badArg [] s
    | some x =>
      let l := storeRegions x (rw r 5) (some n) s
      let good := storeGood x 0 tableBytes s
      let ok := storePromotable x (rw r 5) n s
      let s := storeRead x 0 tableBytes s
      if !good then recoverFailed r s
      else if !ok then .of .badArg [] s
      else if l.any (fun e => match regionOf j e.region s with
        | some g => g.base.isSome
        | none => false) then .of .noResource [] s
      else match bringTo x n s with
        | .error s => recoverFailed r s
        | .ok (c, s') =>
          let s' := forAll l (promoteRegion k j x) s'
          match formDirectory j s' with
          | .error _ => .of .noResource [] s
          | .ok s' =>
            let s' := { s' with resil.stores := tset none s'.resil.stores k (some { x with sealAt := none }) }
            .of .ok [word l.length, word (c * 4096 / 2 ^ 20)]
              (raise 0x8012 1 [word m, word j, n, word l.length] s')

/-- The regions of a job in the image at the buddy. -/
def imageOf (j : Nat) (s : State) : List ImageRegion := s.resil.image.filter (fun r => r.job = j)

/-- The buddy's store is promotable at an index for every region of a job (R384, R390). -/
def buddyPromotable (j : Nat) (n : Word) (s : State) : Bool :=
  n ≠ noIndex && (n = s.resil.sealedNew || n = s.resil.sealedOld)
    && (imageOf j s).all (fun r => match r.since with
      | some k => k.toNat ≤ n.toNat
      | none => false)

/-- The image offsets that a journal's index names for an image (R382). -/
def journalOffsets (n : Word) (bs : List Byte) : List Nat :=
  ((List.range (bs.length / 16)).filter (fun i => bytesAt bs (16 * i + 8) 4 = n.toNat)).map (fun i => bytesAt bs (16 * i) 8)

/-- A page was written since the boundary: it is dirty, its copy is not sealed, or its image offset is in the journal
index of the seal between (R390). -/
def writtenSince (journal : List Nat) (s : State) (page off : Nat) : Bool :=
  let pend := s.resil.carried ++ (match s.resil.copy with
    | some c => c.pages
    | none => [])
  tget false s.mem.dirty page || pend.contains page || journal.contains off

/-- The reads that copy granules of a region back to a place: all of them, or those of pages written since the boundary
(R390). -/
def restoreReads (x : ImageRegion) (base : Nat) (whole : Bool) (journal : List Nat) (s : State) : List (Nat × Nat × Nat) :=
  (List.range ((x.size + 4095) / 4096)).filterMap (fun g =>
    let n := min 4096 (x.size - 4096 * g)
    let off := x.off + 4096 * g
    match spans (pgaOff base + 4096 * g) n s with
    | some l =>
      if whole || (piecePages l).any (fun p => writtenSince journal s (pageKey p.1 p.2) off) then
        some (imageOff s.resil.storeView s.resil.storeJ + off, base + 4096 * g, n)
      else none
    | none => none)

/-- The journal half that holds a sealed index. -/
def sealedHalf (n : Word) (s : State) : Nat :=
  if n = s.resil.sealedNew then s.resil.halfNew else 1 - s.resil.halfNew

/-- The copy in progress ends before a restore. -/
def restoreStart (s : State) : State :=
  match s.resil.copy with
  | some c => releaseHeld (clearCopy c s)
  | none => s

/-- Mode 1: a restore begins with a read of the store's header, and answers when it has ended (R390). -/
def restore (r : Req) (s : State) : Ans :=
  let s := restoreStart s
  .later (restoreAsk { s with resil.restore := some {
    job := rf r 2 1 4, index := rw r 4, older := decide (rw r 4 = s.resil.sealedOld),
    newest := s.resil.sealedNew, half := s.resil.halfNew,
    todo := [(0, Config.stagingPa s.stitch.issued 0, 64)] } })

/-- The object checks of RECOVER_PROMOTE. -/
def recoverState (r : Req) (s : State) : Bool :=
  let j := rf r 2 1 4
  declStatus.contains (jobOf s j).status && (s.place.move.map (·.job)) ≠ some j
    && (if rb r 2 0 then (match s.resil.buddy with
          | some b => !peerLost b s
          | none => false)
        else rb r 2 5 || peerLost (rf r 3 0 16) s)

/-- The argument checks of RECOVER_PROMOTE. -/
def recoverArgs (r : Req) (s : State) : Bool :=
  zeroFrom r 2 6 && zeroFrom r 3 16
    && (if rb r 2 0 then
          !rb r 2 5 && rf r 3 0 16 = 0 && rw r 5 = 0 && bit s.resil.jobMask (rf r 2 1 4)
            && buddyPromotable (rf r 2 1 4) (rw r 4) s
        else match (storeNo (rf r 3 0 16) s).bind (fun k => tget none s.resil.stores k) with
          | some _ => true
          | none => false)

/-- RECOVER_PROMOTE; a restore that runs keeps it busy (log 47). -/
def recoverPromoteCmd : Cmd where
  op := 0x0904
  len := (· = 6)
  unadmitted := []
  object := fun r s => firstOf [need (recoverState r s) .wrongState, need s.resil.restore.isNone .busy]
  args := fun r s => need (recoverArgs r s) .badArg
  run := fun r s => if rb r 2 0 then restore r s else promote r s

def execRecoverPromote (r : Req) (s : State) : Host.Outcome State Fault Refusal :=
  .next (runCmd recoverPromoteCmd r s)

/-! RESILIENCE_STATUS. -/

/-- The three words of a store. -/
def storeWords (k : Nat) (s : State) : List Word :=
  match tget none s.resil.stores k with
  | none => [0, 0, 0]
  | some x => [word (x.source + 2 ^ 16 + 2 ^ 17 * b2n (peerLost x.source s)), hdrGet x 5 s, hdrGet x 6 s]

/-- Yarler reads the sealed indices of a store (R217, R220). -/
def readSeals (k : Nat) (s : State) : State :=
  match tget none s.resil.stores k with
  | some x => storeRead x 20 8 s
  | none => s

/-- RESILIENCE_STATUS; held_max_ns is of the time since the last query. -/
def resilienceStatusCmd : Cmd where
  op := 0x0905
  len := (· = 2)
  unadmitted := []
  object := fun _ _ => none
  args := fun _ _ => none
  run := fun _ s =>
    let q := s.resil
    let full := match q.copy with
      | some c => c.full
      | none => false
    let pending := match q.copy with
      | some c => c.pages.length
      | none => q.carried.length
    let lost := q.peers.map (·.lost)
    .of .ok
      ([word (bitsNat [q.enabled, q.copy.isSome, full, q.peers.any (·.lost)]),
        word (q.periodMs + 65536 * field q.jobMask 0 16), q.taken, q.sealedNew, q.sealedOld,
        word (q.buddy.getD 0 + 65536 * b2n q.buddy.isSome), word q.heldMax, word pending, q.untaken,
        word (bitsNat (lost.take 32)), word (bitsNat (lost.drop 32))]
        ++ (List.range 4).flatMap (fun k => storeWords k s))
      (useFresh 1 (forAll (List.range 4) readSeals { s with resil.heldMax := 0 }))

def execResilienceStatus (r : Req) (s : State) : Host.Outcome State Fault Refusal :=
  .next (runCmd resilienceStatusCmd r s)

end Sys2Proof.Machine
end

