-- ==== Sys2Proof/Machine/Schedule.lean ====
section
/-! DEFINITION. Firing and disarming schedule entries (R306 to R308, R359, R370 to R376, R432). -/

namespace Sys2Proof.Machine

/-- An Armed entry whose instant has come or that a step has passed (R359, R374). -/
def entDue (s : State) (e : Entry) : Bool := e.st = .armed && (e.passed || reached e.instant s)

/-- The notice of an entry that asks for it (R374, SCHED_QUERY). -/
def notice (e : Entry) (s : State) : State :=
  let s := if s.sched.fired.length < 64 then { s with sched.fired := s.sched.fired ++ [e.seq] }
    else { s with sched.overflow := true }
  raise 0x7010 0 [e.seq.setWidth 32, word e.action, e.tag] (setCause 5 s)

/-- The events of an entry that fires: notice and lateness (R359, R374, R377). -/
def fireEvents (e : Entry) (s : State) : State :=
  let s := if e.notify then notice e s else s
  if e.passed then
    raise 0x7011 2 [e.seq.setWidth 32, word e.action, sword (siteDiff (siteNow s) e.instant)] s
  else s

/-- A lace commit fires: it takes effect, or is spent without effect with event 0x5004 (R288, R306 to R308). -/
def commitFire (i : Nat) (e : Entry) (s : State) : State :=
  match commitFails s with
  | some cause =>
    resumeLanes e.instant
      (spend i true (raise 0x5004 2 [e.instant.setWidth 32, e.seq.setWidth 32, word cause] s))
  | none =>
    let lanes := touchedLanes s.welt.active (shadowAtTick s).bank
    lightBreaks true 0x5002 lanes (commitBank i (e.instant.setWidth 32) s)

/-- Every job stops at once: armed ones return to Defined, Running ones stop with their Stitch operations, none of which is
sent on or completed (R432; log 51). -/
def stopAllJobs (s : State) : State :=
  let stop := fun j s => match (jobOf s j).status with
    | .armed => unarmJob j s
    | .running => modJob j (fun x => { x with stopping := x.stopping.or (some (runningTiles j s).length) }) (stopRoles j s)
    | _ => s
  settleStops { forAll jobNos stop (discardStarts s) with stitch := {} }

/-- A firmware activation fires: event 0x9005, every job stops, boot control Copy; the restart follows (R432, R438). -/
def activate (e : Entry) (s : State) : State :=
  let s := { s with fw := { s.fw with armedEntry := none } }
  let s := raise 0x9005 2 [e.seq.setWidth 32, s.glb.fwVer, hdrVersion s.fw.staged.header] s
  let s := stopAllJobs (closeSession 3 s)
  { s with fw := { s.fw with boot := .copy, restartAt := some s.clk } }

/-- The restart that ends an activation: every domain but the recorder's, at most 50 ms after the firing (R432). -/
def activationRestart (s : State) : State :=
  match s.fw.restartAt with
  | some t => if min Config.restartTicks (ticksMs 50) ≤ since t s then moduleReset .activation false s else s
  | none => s

/-- An entry fires its action (R370, R372). -/
def fireEntry (i : Nat) (e : Entry) (s : State) : State :=
  let s := setSched i { e with st := .firing, late := e.passed } s
  match e.action with
  | 1 => fireEvents e (commitFire i e s)
  | 2 => fireEvents e (modJob e.arg (fun x => { x with firing := true }) s)
  | 3 => boundaryFire i (fireEvents e s)
  | 4 => activate e (fireEvents e s)
  | _ => spend i false (fireEvents e s)

/-- SCHEDULE_ENTRY_FIRE: of the entries that are due, the one of the earliest instant, and of these the one armed
first (R374). -/
def scheduleEntryFire (s : State) : State :=
  match firstEntry (entDue s) s with
  | some (i, e) => fireEntry i e s
  | none => s

def execScheduleEntryFire (s : State) : Host.Outcome State Fault Refusal := live scheduleEntryFire s

/-- The entry that SCHED_DISARM names. -/
def namedEntry (r : Req) (s : State) : Option (Nat × Entry) := findSeq (BitVec.ofNat 16 (rf r 2 0 16)) s

/-- What a disarmed entry does to its job or image (R375, FW_ARM). -/
def disarmed (i : Nat) (e : Entry) (s : State) : State :=
  let s := disarmEntry i s
  if e.action = 2 then unarmJob e.arg s
  else if e.action = 4 then fwDisarmed i .verified s
  else s

/-- SCHED_DISARM. -/
def schedDisarmCmd : Cmd where
  op := 0x0802
  len := (· = 3)
  unadmitted := []
  object := fun r s => match namedEntry r s with
    | some (_, e) => need (e.st ≠ .spent && e.st ≠ .disarmed && e.action ≠ 3) .wrongState
    | none => none
  args := fun r s => firstOf [need (zeroFrom r 2 16 && (namedEntry r s).isSome) .badArg,
    need (match namedEntry r s with
      | some (_, e) => e.st ≠ .firing
      | none => true) .busy]
  run := fun r s => match namedEntry r s with
    | some (i, e) => .ok (disarmed i e s)
    | none => .of .badArg [] s

def execSchedDisarm (r : Req) (s : State) : Host.Outcome State Fault Refusal := .next (runCmd schedDisarmCmd r s)

end Sys2Proof.Machine
end

