-- ==== Sys2Proof/Machine/Clock.lean ====
section
/-! DEFINITION. What a tick of the time oscillator does to the whole block: the clock and its queues, the arbiters and the
mesh (R201, R278, R351). -/

namespace Sys2Proof.Machine

/-- One tick: the clock, then a pass of the mesh and a cycle of every arbiter, while the compute domain has power and no
reset holds it; then the restart of an activation, when it is due (R432; logs 1, 51 and 70). -/
def clock (s : State) : State :=
  let s := tick s
  activationRestart (if s.power.on && !s.power.held then lookAll (meshPass s) else s)

end Sys2Proof.Machine
end

