-- ==== Sys2Proof/Machine/HostRegs.lean ====
section
/-! DEFINITION. Rings, done bits, interrupt masks, coalescing, D3hot, bad accesses and the counts of the
GLB_ block (R7, R20, R27, R37 to R49). -/

namespace Sys2Proof.Machine

/-- The number of a slot's condition in event 0xB002 (log 13). -/
def condCode : SlotCond → Nat
  | .free => 0 | .pending => 1 | .busy => 2 | .done => 3

/-- One ring: a Free slot becomes Pending; a ring of another slot is counted with event 0xB002 (R38). -/
def ringSlot (n : Nat) (s : State) : State :=
  let x := slotOf s n
  if x.cond = .free then
    let s := setSlot n { x with cond := .pending, after := s.bar2.writes } s
    { s with mbx.rung := s.mbx.rung ++ [n] }
  else
    let c := s.mbx.badRings
    raise 0xB002 2 [word n, word (condCode x.cond)]
      { s with mbx.badRings := if c = 0xFFFF then c else c + 1 }

/-- The slots that the bits of a _LO or _HI register name, in ascending order (R37, R39). -/
def namedSlots (hi : Bool) (value : Word) : List Nat :=
  ((List.range 32).filter (fun k => bit value k)).map (fun k => k + 32 * b2n hi)

/-- MBX_RING_WRITE (R38, R39). -/
def execMbxRingWrite (hi : Bool) (value : Word) (s : State) : Host.Outcome State Fault Refusal :=
  onWrite (forAll (namedSlots hi value) ringSlot) s

/-- A vector with no done bit left has no message pending in the MSI-X table (R48, R49; log 4). -/
def dropPending (n : Nat) (s : State) : State :=
  if (slotOf s (n % 32)).cond = .done || (slotOf s (n % 32 + 32)).cond = .done then s
  else { s with irq := { s.irq with pba := s.irq.pba &&& ~~~(BitVec.ofNat 64 (2 ^ (32 + n % 32))) } }

/-- A done bit written 1 frees the slot; its contents stay (R37, R42). -/
def freeSlot (n : Nat) (s : State) : State :=
  if (slotOf s n).cond = .done then dropPending n (modSlot n (fun x => { x with cond := .free }) s) else s

/-- MBX_DONE_WRITE (R42). -/
def execMbxDoneWrite (hi : Bool) (value : Word) (s : State) : Host.Outcome State Fault Refusal :=
  onWrite (forAll (namedSlots hi value) freeSlot) s

/-- MBX_ERR is read and cleared (R8, R37). -/
def mbxErrRead (s : State) : State :=
  emit (.regValue 0x10020 (s.mbx.badRings.setWidth 32)) { s with mbx.badRings := 0 }

/-- MBX_ERR_READ (R37). -/
def execMbxErrRead (s : State) : Host.Outcome State Fault Refusal := onRead 0x10020 mbxErrRead s

/-- Send the message that vector `v` owes when its mask bit is clear now (R48). -/
def sendOwed (v : Nat) (masked : Bool) (s : State) : State :=
  if bit s.irq.owed v && !masked then
    sendMsix v { s with irq.owed := s.irq.owed &&& ~~~(BitVec.ofNat 24 (2 ^ v)) }
  else s

/-- IRQ_MASK takes a value; vectors that it unmasks send the messages they owe (R48). -/
def irqMaskWrite (value : Word) (s : State) : State :=
  let m : BitVec 8 := value.setWidth 8
  forAll (List.range 8) (fun v => sendOwed v (bit m v)) { s with irq.mask := m }

/-- IRQ_MASK_WRITE (R48). -/
def execIrqMaskWrite (value : Word) (s : State) : Host.Outcome State Fault Refusal :=
  onWrite (irqMaskWrite value) s

/-- IRQ_JOB_MASK takes a value (R48). -/
def irqJobMaskWrite (value : Word) (s : State) : State :=
  let m : BitVec 16 := value.setWidth 16
  forAll (List.range 16) (fun j => sendOwed (8 + j) (bit m j)) { s with irq.jobMask := m }

/-- IRQ_JOB_MASK_WRITE (R48). -/
def execIrqJobMaskWrite (value : Word) (s : State) : Host.Outcome State Fault Refusal :=
  onWrite (irqJobMaskWrite value) s

/-- The gap of a vector ends: one message covers the done bits of the gap and begins the next (R49). -/
def gapEnd (v : Nat) (s : State) : State :=
  let g := tget {} s.irq.gaps v
  if g.isOpen && !gapRuns v s then
    if g.owed then sendSlotVector v s else { s with irq.gaps := tset {} s.irq.gaps v {} }
  else s

/-- COALESCE_GAP_END of vector 32 + k (R49). -/
def execCoalesceGapEnd (k : Fin 32) (s : State) : Host.Outcome State Fault Refusal :=
  live (gapEnd (32 + k)) s

/-- A BAR0 offset lies in the slot memory (R23). -/
def inSlots (off : Nat) : Bool := 0x100000 ≤ off && off < 0x140000

/-- A BAR0 access has the width and alignment of R7 and R25. -/
def goodAccess (off width : Nat) : Bool :=
  (width = 4 && off % 4 = 0) || (inSlots off && width = 8 && off % 8 = 0)

/-- A bad access: a read returns all ones, a write changes nothing, and 0xB001 is raised with the width in bits,
as R7 counts it (R7; log 63). -/
def badAccess (off width : Nat) (isRead : Bool) (s : State) : State :=
  let s := if isRead then emit (.regValue off 0xFFFFFFFF) s else s
  raise 0xB001 2 [word off, word (8 * width)] s

/-- A BAR0 access of a wrong width or alignment, in every state in which the function answers (R7; log 48). -/
def bar0Bad (off width : Nat) (isRead : Bool) (s : State) : State :=
  if !answersBar s || goodAccess off width then s else badAccess off width isRead s

/-- BAR0_BAD_ACCESS (R7). -/
def execBar0BadAccess (off : BitVec 26) (width : Nat) (isRead : Bool) (s : State) :
    Host.Outcome State Fault Refusal :=
  .next (bar0Bad off.toNat width isRead s)

/-- D3HOT_ENTRY: BAR accesses are ignored and messages held from now on (R20). -/
def execD3hotEntry (s : State) : Host.Outcome State Fault Refusal :=
  live (fun s => { s with irq.d3hot := true }) s

/-- D0_RETURN: the held messages are sent (R20). -/
def execD0Return (s : State) : Host.Outcome State Fault Refusal :=
  live (fun s => forAll s.irq.held sendMsix { s with irq.d3hot := false, irq.held := [] }) s

/-- GLB_HEARTBEAT_TICK: the count rises while Yarler firmware runs (R27). -/
def execGlbHeartbeatTick (s : State) : Host.Outcome State Fault Refusal :=
  live (fun s => if s.glb.yarlerUp then { s with glb.heartbeat := s.glb.heartbeat + 1 } else s) s

/-- OPSEC_TICK: an operating second has passed (R27). -/
def execOpsecTick (s : State) : Host.Outcome State Fault Refusal :=
  powered (fun s => { s with glb.opsec := s.glb.opsec + 1 }) s

end Sys2Proof.Machine
end

