-- ==== Sys2Proof/Machine/Recovery.lean ====
section
/-! DEFINITION. A restore from the buddy's store, and the rows that carry it on as its Stitch operations end (R155, R173,
R185, R190, R191, R390, R392). -/

namespace Sys2Proof.Machine

/-! A restore (R390). -/

/-- An operation of the restore is on its way or waits for its entry. -/
def restoreBusy (s : State) : Bool :=
  s.stitch.waitList.any (fun w => w.purpose = 7) || s.stitch.table.any (fun p => p.2.purpose = 7 && incomplete p.2)

/-- The request that a restore answers. -/
def restoresJob (j : Nat) (r : Req) : Bool := rb r 2 0 && rf r 2 1 4 = j

/-- A restore fails part-way: event 0x8014, and INTERNAL with event 0xB008 (R32, R392; log 47). -/
def restoreFails (x : Restore) (s : State) : State :=
  let s := raise 0x8014 3 [1, word x.job, x.index, 1] { s with resil.restore := none }
  let mine := s.mbx.started.filter (fun t => t.opcode = 0x0904 && restoresJob x.job t.req)
  let s := forAll mine (fun t => raise 0xB008 3 [word (viaSlot t.req), 0x0904, t.req.tag]) s
  finish 0x0904 (restoresJob x.job) .internal [] s

/-- The header of the store is read, or read again. -/
def readHeader (x : Restore) (stage : Nat) (s : State) : State :=
  restoreAsk { s with resil.restore := some { x with
    stage := stage, got := [], todo := [(0, Config.stagingPa s.stitch.issued 0, 64)] } }

/-- The source leaves the index alone in its store: words 5 to 7 of the header (R382, R390; log 47). -/
def restoreSeal (x : Restore) (s : State) : State :=
  let h := sealedHalf x.index s
  askPool 65 7 { mirrorPut 20 (wordBytes x.index ++ wordBytes noIndex ++ leBytes h 4) s with cls := 3, source := 2 }
    { s with
      resil.sealedNew := x.index, resil.sealedOld := noIndex, resil.halfNew := h
      resil.restore := some { x with stage := 1, got := [] } }

/-- The reads of the index entries of the newest journal half, by 64 KiB (R382, R390). -/
def journalReads (x : Restore) (s : State) : List (Nat × Nat × Nat) :=
  let n := 16 * s.resil.storeJ
  (List.range ((n + 65535) / 65536)).map (fun i =>
    (halfOff s.resil.storeView s.resil.storeJ x.half + 65536 * i, Config.stagingPa s.stitch.issued (i + 1),
      min 65536 (n - 65536 * i)))

/-- What is to be copied back for the regions of a job, a lost one placed anew first; none when one finds no room
(R390). -/
def restorePlan (journal : List Nat) : List ImageRegion → Restore → State → Option (Restore × State)
  | [], x, s => some (x, s)
  | r :: l, x, s => match regionOf r.job r.region s, rmLookup r.job r.region s with
    | some g, some e =>
      if !e.lost then restorePlan journal l { x with todo := x.todo ++ restoreReads r e.base false journal s } s
      else match freeView (viewOf g s) (viewPages (viewOf g s) g.size) s with
        | none => none
        | some off =>
          let new := ownPga 0 off s
          let s := takePlace r.job new g.size s
          restorePlan journal l { x with todo := x.todo ++ restoreReads r new true journal s
                                         lost := x.lost ++ [(r.region, e.base, new)] } s
    | _, _ => restorePlan journal l x s

/-- The pages are copied back; NO_RESOURCE when a lost region finds no room. -/
def restorePages (x : Restore) (s : State) : State :=
  let journal := if x.older then x.got.flatMap (journalOffsets x.newest) else []
  match restorePlan journal (imageOf x.job s) { x with stage := 4, got := [], todo := [] } s with
  | none => finish 0x0904 (restoresJob x.job) .noResource [] { s with resil.restore := none }
  | some (x, s) => restoreAsk { s with resil.restore := some { x with granules := x.todo.length } }

/-- A lost region that has been copied whole flips as a move, its lost flag clears (R390). -/
def restoreFlip (j : Nat) (p : Nat × Nat × Nat) (s : State) : State :=
  match regionOf j p.1 s with
  | none => s
  | some g =>
    let s := rmMod j p.1 (fun e => { e with base := p.2.2, place := 2, lost := false }) s
    let s := setRegion j p.1 (some { g with base := some p.2.2, pin := repin g.pin p.2.2 }) s
    let s := { s with place.settling := s.place.settling ++
      [{ job := j, region := p.1, oldBase := p.2.1, size := g.size, flipAt := s.clk, waiting := otherModules j s,
         lastAck := s.clk }] }
    sendUpdates j p.1 0 p.2.2 0 s

/-- A restore ends: the flips, event 0x8013 and the answer (R390, R392). -/
def restoreEnds (x : Restore) (s : State) : State :=
  let mib := x.granules * 4096 / 2 ^ 20
  let s := forAll x.lost (restoreFlip x.job) { s with resil.restore := none }
  finish 0x0904 (restoresJob x.job) .ok [word (imageOf x.job s).length, word mib]
    (raise 0x8013 1 [word x.job, x.index, word mib] s)

/-- A restore whose operations have ended goes on: the buddy has applied its older half, it is told the index, its image is
there, the journal index is read where the index is sealed_old, the pages are copied back; no flip while a dirty drain
sweeps (R253, R390). -/
def restoreStep (x : Restore) (s : State) : State :=
  let header := (x.got.head?).getD []
  if x.error ≠ 0 then restoreFails x s
  else match x.stage with
    | 0 => if halfFree header then restoreSeal x s else readHeader x 0 s
    | 1 => readHeader x 2 s
    | 2 =>
      if bytesAt header 40 4 ≠ x.index.toNat then readHeader x 2 s
      else restoreAsk { s with resil.restore := some { x with
        stage := 3, got := [], todo := if x.older then journalReads x s else [] } }
    | 3 => restorePages x s
    | _ => if s.resil.draining.isSome && !x.lost.isEmpty then s else restoreEnds x s

/-- A restore goes on as far as it can without an answer. -/
def restoreGo : Nat → State → State
  | 0, s => s
  | n + 1, s => match s.resil.restore with
    | none => s
    | some x => if restoreBusy s then s else restoreGo n (restoreStep x s)

/-- Stages of a restore. -/
def restoreStages : Nat := 6

/-! The rows of Stitch operations at their initiator. -/

/-- STITCH_ENTRY_GRANT, R185. -/
def execStitchEntryGrant (s : State) : Host.Outcome State Fault Refusal :=
  sends (fun s => restoreGo restoreStages (entryGrant s)) s

/-- STITCH_SEGMENT_SEND, R173. -/
def execStitchSegmentSend (tag : Fin 16384) (part : Fin 17) (flaws : List Flaw) (s : State) :
    Host.Outcome State Fault Refusal :=
  sends (fun s => restoreGo restoreStages (segmentSendRow tag part (inject flaws s))) s

/-- STITCH_RESPONSE_RECEIVE, R191. -/
def execStitchResponseReceive (s : State) : Host.Outcome State Fault Refusal :=
  sends (fun s => restoreGo restoreStages (responseReceive s)) s

/-- STITCH_TIMEOUT, R190. -/
def execStitchTimeout (tag : Fin 16384) (s : State) : Host.Outcome State Fault Refusal :=
  sends (fun s => restoreGo restoreStages (stitchTimeout tag s)) s

/-- DIRTY_DRAIN_END: the flips that have waited for it follow (R229, R253). -/
def execDirtyDrainEnd (s : State) : Host.Outcome State Fault Refusal :=
  sends (fun s => restoreGo restoreStages (dirtyDrainEnd s)) s

end Sys2Proof.Machine
end

