-- ==== Sys2Proof/Machine/TimingPort.lean ====
section
/-! DEFINITION. The timing port and its rings (R363 to R366, TIME_PORT_CONFIG). -/

namespace Sys2Proof.Machine

/-- The multicast addresses of ptp_mcast (R363). -/
def ptpAddresses : List (BitVec 48) :=
  [0x011B19000000, 0x0180C200000E, 0x01005E000181, 0x01005E00006B, 0x333300000181, 0x33330000006B]

/-- A frame's destination address, byte 0 in the top bits. -/
def destination (bs : List Byte) : BitVec 48 :=
  BitVec.ofNat 48 ((bs.take 6).foldl (fun a b => 256 * a + b.toNat) 0)

/-- The receive filter (R363). -/
def filterPass (bs : List Byte) (p : Tpm) : Bool :=
  let d := destination bs
  d = p.mac || d = 0xFFFFFFFFFFFF || p.promisc || (p.allMcast && bit d 40)
    || (p.ptpMcast && ptpAddresses.contains d)

/-- Tenths of a nanosecond added to a timestamp, by speed (R363). -/
def stampTenths (tx : Bool) (speed : Nat) : Int :=
  if tx then (if speed = 1 then 1120 else if speed = 2 then 384 else 198)
  else (if speed = 1 then -1840 else if speed = 2 then -614 else -317)

/-- The corrected timestamp in units of 2^-3 ns on the extended counter, the unit of ts_frac (R363,
R365, log 14). -/
def stamp (tx : Bool) (s : State) : Nat :=
  let x : Int := (siteNs s : Int) * 2 ^ 32 + s.tmu.frac.toNat
  ((((x * 10 + stampTenths tx s.tpm.speed * 2 ^ 32) / (10 * 2 ^ 29)) % 2 ^ 51)).toNat

/-- The words of a write-back (R365). -/
def writeBack (len stamp8 speed : Nat) : List Word :=
  [word (len + 2 ^ 31), word (stamp8 / 8), word (stamp8 % 8 * 2 ^ 29), word (stamp8 / 2 ^ 35 % 65536 + 65536 * speed)]

/-- The bus address of a ring's base. -/
def ringBase (x : Ring) : Nat := x.baseLo.toNat + 2 ^ 32 * x.baseHi.toNat

/-- The link of the timing port is up: with an empty cage it never is (R377, R469). -/
def portUp (p : Tpm) : Bool := p.linkUp && p.cage

/-- A ring runs and gives the module a descriptor (R364). -/
def ringHas (x : Ring) (p : Tpm) : Bool := x.size ≠ 0 && portUp p && x.head % x.size ≠ x.tail % x.size

/-- The head after a write-back (R364, R366). -/
def ringNext (x : Ring) : Ring := { x with head := (x.head + 1) % x.size }

/-- Bytes that a DMA read answers; where it fails, free values stand for them (R365, log 15). -/
def portRead (n : Nat) (a : Option (List Byte)) (s : State) : List Byte × State :=
  match a with
  | some bs => (padTo 0 n bs, s)
  | none => ((List.range n).map (Config.freeByte s.fresh), useFresh 1 s)

/-- A saturating 16-bit count. -/
def sat16 (x : BitVec 16) : BitVec 16 := if x = 0xFFFF then x else x + 1

/-- A received frame: dropped and counted, or timestamped, written and written back (R363 to R366). -/
def tpmReceive (f : EthFrame) (dma : Dma) (s : State) : State :=
  let p := s.tpm
  if !portUp p || p.speed = 0 then s
  else if !f.fcsOk || 2000 < f.bytes.length then { s with tpm.bad := sat16 p.bad }
  else if !filterPass f.bytes p then s
  else if !ringHas p.rx p then { s with tpm.noDesc := sat16 p.noDesc }
  else
    let st := stamp false s
    let (d, s) := portRead 16 (nth none dma 0) s
    let s := emit (.ringDma (leNat (d.take 8)) f.bytes) s
    let s := emit (.ringDma (ringBase p.rx + 16 * p.rx.head) (wordsBytes (writeBack f.bytes.length st p.speed))) s
    setCause 2 { s with tpm.rx := ringNext p.rx }

/-- TPM_FRAME_RECEIVE (R366). -/
def execTpmFrameReceive (f : EthFrame) (dma : Dma) (s : State) : Host.Outcome State Fault Refusal :=
  live (tpmReceive f dma) s

/-- A frame padded to 60 bytes (R363). -/
def padFrame (bs : List Byte) : List Byte := bs ++ List.replicate (60 - bs.length) 0

/-- A frame with its frame check sequence, as it goes out (R363; log 72). -/
def withFcs (bs : List Byte) : List Byte :=
  bs ++ leBytes (crcResult ethernetCrc (crcBytes ethernetCrc ethernetCrc.init bs)) 4

/-- The next transmit descriptor: its frame is sent, or a length that breaks R365 is written back as 0,
with a free timestamp (R366, log 15). -/
def tpmTransmit (dma : Dma) (s : State) : State :=
  let p := s.tpm
  if !ringHas p.tx p || p.speed = 0 then s
  else
    let (d, s) := portRead 16 (nth none dma 0) s
    let len := leNat ((d.drop 8).take 4) % 4096
    let (back, s) := if 14 ≤ len && len ≤ 2000 then
        let st := stamp true s
        let (bs, s) := portRead len (nth none dma 1) s
        (writeBack len st p.speed, emit (.ethFrame (withFcs (padFrame bs))) s)
      else (writeBack 0 (Config.freeNat s.fresh % 2 ^ 51) p.speed, useFresh 1 s)
    let s := emit (.ringDma (ringBase p.tx + 16 * p.tx.head) (wordsBytes back)) s
    setCause 3 { s with tpm.tx := ringNext p.tx }

/-- TPM_FRAME_TRANSMIT (R366). -/
def execTpmFrameTransmit (dma : Dma) (s : State) : Host.Outcome State Fault Refusal :=
  live (tpmTransmit dma) s

/-- TPM_TX_TAIL_WRITE: the descriptors up to the tail are the module's (R364). -/
def execTpmTxTailWrite (value : Word) (s : State) : Host.Outcome State Fault Refusal :=
  onWrite (fun s => { s with tpm.tx := { s.tpm.tx with tail := field value 0 12 } }) s

/-- A size that R364 allows. -/
def ringSizeOk (n : Nat) : Bool := n = 0 || [16, 32, 64, 128, 256, 512, 1024, 2048, 4096].contains n

/-- A ring after a write of its size: head is 0; a size that R364 does not allow leaves a free legal one
(log 16). -/
def resizeRing (n fresh : Nat) (x : Ring) : Ring :=
  let k := Config.freeNat fresh % 10
  { x with head := 0, size := if ringSizeOk n then n else if k = 0 then 0 else 2 ^ (3 + k) }

/-- A write of a ring's size (R364). -/
def ringSizeWrite (tx : Bool) (value : Word) (s : State) : State :=
  let n := field value 0 13
  let s' := if ringSizeOk n then s else useFresh 1 s
  if tx then { s' with tpm.tx := resizeRing n s.fresh s.tpm.tx }
  else { s' with tpm.rx := resizeRing n s.fresh s.tpm.rx }

/-- TPM_RING_SIZE_WRITE (R364). -/
def execTpmRingSizeWrite (tx : Bool) (value : Word) (s : State) : Host.Outcome State Fault Refusal :=
  onWrite (ringSizeWrite tx value) s

/-- TPM_DROP is read and cleared (R364). -/
def tpmDropRead (s : State) : State :=
  emit (.regValue 0x60040 (s.tpm.bad ++ s.tpm.noDesc)) { s with tpm.bad := 0, tpm.noDesc := 0 }

/-- TPM_DROP_READ (R364). -/
def execTpmDropRead (s : State) : Host.Outcome State Fault Refusal := onRead 0x60040 tpmDropRead s

/-- The link goes up or down, with event 0x7013 (R377). -/
def portLink (up : Bool) (s : State) : State :=
  if s.tpm.linkUp = up then s
  else raise 0x7013 1 [word (b2n up), word s.tpm.speed] { s with tpm.linkUp := up }

/-- TIME_PORT_LINK_CHANGE: a port that is off, or whose cage is empty, gains no link (R377, R469, TIME_PORT_CONFIG). -/
def execTimePortLinkChange (up : Bool) (s : State) : Host.Outcome State Fault Refusal :=
  live (fun s => if up && (s.tpm.speed = 0 || !s.tpm.cage) then s else portLink up s) s

/-- TIME_PORT_CONFIG. -/
def timePortConfigCmd : Cmd where
  op := 0x0804
  len := (· = 5)
  unadmitted := []
  object := fun _ _ => none
  args := fun r _ => need (zeroFrom r 2 6 && zeroFrom r 4 16 && (!rb r 2 2 || rf r 2 0 2 = 1) && !rb r 4 8) .badArg
  run := fun r s =>
    let s := if rf r 2 0 2 = s.tpm.speed then s else portLink false s
    let s := { s with
      tpm.speed := rf r 2 0 2, tpm.autoneg := rb r 2 2, tpm.ptpMcast := rb r 2 3,
      tpm.allMcast := rb r 2 4, tpm.promisc := rb r 2 5,
      tpm.mac := (rw r 4).setWidth 16 ++ rw r 3 }
    .of .ok [word (b2n (portUp s.tpm) + 2 * s.tpm.speed)] s

def execTimePortConfig (r : Req) (s : State) : Host.Outcome State Fault Refusal :=
  .next (runCmd timePortConfigCmd r s)

end Sys2Proof.Machine
end

