-- ==== Sys2Proof/Machine/Registers.lean ====
section
/-! DEFINITION. A host write to BAR0 by its offset: the access codes of R8, the MSI-X table and slot memory (R7, R8,
R23 to R28, R47, R48, R353, R364, R412, R414). -/

namespace Sys2Proof.Machine

/-- W1C of IRQ_CAUSE: a cleared cause owes no message any more, and its vector's pending bit clears, as the base
specification asks of an event that software has met (R47, R48; logs 4 and 54). -/
def clearCause (v : Word) (s : State) : State :=
  { s with irq := { s.irq with cause := s.irq.cause &&& ~~~(v.setWidth 8),
                               owed := s.irq.owed &&& ~~~((v &&& 0xFF).setWidth 24),
                               pba := s.irq.pba &&& ~~~((v &&& 0xFF).setWidth 64) } }

/-- W1C of IRQ_JOB_CAUSE (R47, R48; logs 4 and 54). -/
def clearJobCause (v : Word) (s : State) : State :=
  { s with irq := { s.irq with jobCause := s.irq.jobCause &&& ~~~(v.setWidth 16),
                               owed := s.irq.owed &&& ~~~((v.setWidth 16).setWidth 24 <<< 8),
                               pba := s.irq.pba &&& ~~~((v.setWidth 16).setWidth 64 <<< 8) } }

/-- An MSI-X entry after a write of one of its words; bits [31:1] of the control word are reserved (R23; log 4). -/
def msixWord (k : Nat) (v : Word) (e : MsixEntry) : MsixEntry :=
  match k with
  | 0 => { e with addrLo := v }
  | 1 => { e with addrHi := v }
  | 2 => { e with data := v }
  | _ => { e with ctrl := v &&& 1 }

/-- A write to the MSI-X table: unmasking a vector whose pending bit is set sends its message (R48). -/
def msixWrite (off : Nat) (v : Word) (s : State) : State :=
  let n := off / 16
  let s := { s with irq := { s.irq with msix := tset {} s.irq.msix n (msixWord (off / 4 % 4) v (tget {} s.irq.msix n)) } }
  if bit s.irq.pba n && !bit (tget {} s.irq.msix n).ctrl 0 && !s.irq.fnMask then
    sendMsix n { s with irq := { s.irq with pba := s.irq.pba &&& ~~~(BitVec.ofNat 64 (2 ^ n)) } }
  else s

/-- A register of the IRQ_ block, the MSI-X table or the pending bit array, by its offset in the block (R47). -/
def irqWrite (off : Nat) (v : Word) (s : State) : State :=
  if off = 0x00 then clearCause v s
  else if off = 0x04 then clearJobCause v s
  else if off = 0x08 then irqMaskWrite v s
  else if off = 0x0C then irqJobMaskWrite v s
  else if off = 0x10 then { s with irq := { s.irq with evtLevel := v.setWidth 3 } }
  else if off = 0x14 then { s with irq := { s.irq with coalesce := v.setWidth 16 } }
  else if 0x1000 ≤ off && off < 0x1400 then msixWrite (off - 0x1000) v s
  else s

/-- A register of the MBX_ block (R37). -/
def mbxWrite (off : Nat) (v : Word) (s : State) : State :=
  if off = 0x00 || off = 0x04 then forAll (namedSlots (off = 0x04) v) ringSlot s
  else if off = 0x18 || off = 0x1C then forAll (namedSlots (off = 0x1C) v) freeSlot s
  else s

/-- A register of the TMU_ block (R353). -/
def tmuWrite (off : Nat) (v : Word) (s : State) : State :=
  if off = 0x08 then tmuAddendWrite v s
  else if off = 0x0C then tmuStepWrite v s
  else if off = 0x10 then { s with tmu := { s.tmu with status := s.tmu.status &&& ~~~(v.setWidth 8) } }
  else if off = 0x14 then tmuWdogWrite v s
  else if off = 0x2C then { s with tmu := { s.tmu with irqEn := (v >>> 1).setWidth 7 } }
  else s

/-- A register of a check-value unit (R414). -/
def cvuRegWrite (off : Nat) (v : Word) (s : State) : State :=
  if off < 0x800 then cvuWrite (off / 0x100) (off % 0x100) v s else s

/-- A register of the LOG_ block (R412). -/
def logWrite (off : Nat) (v : Word) (s : State) : State :=
  if off = 0x00 then
    { s with log := { s.log with freezeDone := s.log.freezeDone && !bit v 4, threshBit := s.log.threshBit && !bit v 5 } }
  else if off = 0x0C then { s with log := { s.log with thresh := field v 0 19 } }
  else s

/-- A ring after a write of its base, which a running ring ignores; bits [5:0] that are not zero leave free ones
(R364; log 16). -/
def ringBaseWrite (hi : Bool) (v : Word) (fresh : Nat) (x : Ring) : Ring :=
  if x.size ≠ 0 then x
  else if hi then { x with baseHi := v }
  else if field v 0 6 = 0 then { x with baseLo := v }
  else { x with baseLo := word (v.toNat / 64 * 64 + Config.freeNat fresh % 64) }

/-- A register of one ring of the TPM_ block, by its offset in the ring's registers (R364). -/
def ringWrite (tx : Bool) (off : Nat) (v : Word) (s : State) : State :=
  let put := fun (x : Ring) (s : State) =>
    if tx then { s with tpm := { s.tpm with tx := x } } else { s with tpm := { s.tpm with rx := x } }
  let x := if tx then s.tpm.tx else s.tpm.rx
  if off = 0x00 then put (ringBaseWrite false v s.fresh x) (if field v 0 6 = 0 then s else useFresh 1 s)
  else if off = 0x04 then put (ringBaseWrite true v s.fresh x) s
  else if off = 0x08 then ringSizeWrite tx v s
  else if off = 0x0C then put { x with tail := field v 0 12 } s
  else s

/-- A register of the TPM_ block (R364). -/
def tpmWrite (off : Nat) (v : Word) (s : State) : State :=
  if off < 0x20 then ringWrite false off v s
  else if off < 0x40 then ringWrite true (off - 0x20) v s
  else s

/-- A word of a slot's request area; the response area ignores host writes (R28). -/
def slotWrite (off : Nat) (v : Word) (s : State) : State :=
  if off % 4096 < 2048 then
    modSlot (off / 4096) (fun x => { x with req := tset 0 x.req (off % 4096 / 4) v }) s
  else s

/-- A 32-bit write to a BAR0 offset (R8, R23, R24, R26). -/
def wordWrite (off : Nat) (v : Word) (s : State) : State :=
  if off = 0x34 then { s with glb := { s.glb with scratch := v } }
  else if !reachable s || off < 0x10000 then s
  else if off < 0x20000 then mbxWrite (off - 0x10000) v s
  else if off < 0x30000 then irqWrite (off - 0x20000) v s
  else if off < 0x40000 then tmuWrite (off - 0x30000) v s
  else if off < 0x50000 then cvuRegWrite (off - 0x40000) v s
  else if off < 0x60000 then logWrite (off - 0x50000) v s
  else if off < 0x70000 then tpmWrite (off - 0x60000) v s
  else if inSlots off then slotWrite (off - 0x100000) v s
  else s

/-- REGISTER_WRITE: a host write of 32 bits, or of 64 to slot memory (R7, R8, R25). A register that has a row of its
own is written as that row says. -/
def registerWrite (off : Nat) (value : DWord) (wide : Bool) (s : State) : State :=
  if !answersBar s then s
  else if !goodAccess off (if wide then 8 else 4) then bar0Bad off (if wide then 8 else 4) false s
  else
    let s := wordWrite off (value.setWidth 32) s
    if wide then wordWrite (off + 4) ((value >>> 32).setWidth 32) s else s

def execRegisterWrite (off : BitVec 26) (value : DWord) (wide : Bool) (s : State) : Host.Outcome State Fault Refusal :=
  .next (registerWrite off.toNat value wide s)

end Sys2Proof.Machine
end

