-- ==== Sys2Proof/Machine/System.lean ====
section
/-! DEFINITION. The system commands that read, commit and leave the configuration (R51, R52, R57, R58, R207, R209,
R317). -/

namespace Sys2Proof.Machine

/-- Usable MRDIMM capacity in whole GiB (R209). -/
def memoryGib (s : State) : Nat := (inServiceChans s).length * (capGiB s * 1024 - 1) / 1024

/-- The jobs that are defined. -/
def jobsDefined (s : State) : Nat := jobMask (fun x => x ≠ .free) s

/-- Tiles that no job holds. -/
def tilesFree (s : State) : Nat := (tileNos.filter (fun t => (tileOf s t).job.isNone)).length

/-- SYS_INFO; its channel bits are those in service (R207; log 53). -/
def sysInfoCmd : Cmd where
  op := 0x0101
  len := (· = 2)
  unadmitted := []
  object := fun _ _ => none
  args := fun _ _ => none
  run := fun _ s =>
    let mem := [word ((inServiceChans s).map (2 ^ ·)).sum, word (memoryGib s)]
    .of .ok (mem ++ (if s.glb.state = .migrate then [0, 0, 0, 0, 0] else
      [word (s.glb.moduleId.toNat + 65536 * b2n s.glb.moduleIdValid),
       word (jobsDefined s + 65536 * jobMask (fun x => x = .running) s),
       word s.power.eclk, word (tilesFree s), word (degrading s)])) s

def execSysInfo (r : Req) (s : State) : Host.Outcome State Fault Refusal := .next (runCmd sysInfoCmd r s)

/-- The items that SYS_COMMIT_CONFIG finds missing. -/
def missingConfig (s : State) : List Bool :=
  let noSet := fun p => (planeOf s p).active.isNone
  let noLim := fun p => (planeOf s p).limits.isNone && (planeOf s p).limitsDue.isNone
  [!s.fabric.planLoaded, noSet 0, noSet 1, noLim 0 || noLim 1, !s.tmu.addendWritten]

/-- SYS_COMMIT_CONFIG: from Configurable to an operating state (R52). -/
def sysCommitConfigCmd : Cmd where
  op := 0x0102
  len := (· = 2)
  unadmitted := [0]
  object := fun _ s =>
    if s.glb.state ≠ .configurable then some (.wrongState, [0])
    else if (missingConfig s).any (·) then some (.wrongState, [word (bitsNat (missingConfig s))])
    else none
  args := fun _ _ => none
  run := fun _ s => .of .ok [0] (enter (operatingState s) 0 s)

def execSysCommitConfig (r : Req) (s : State) : Host.Outcome State Fault Refusal :=
  .next (runCmd sysCommitConfigCmd r s)

/-- SYS_DECONFIG: back to Configurable, with no BAR2 mapping (R51). -/
def sysDeconfigCmd : Cmd where
  op := 0x0103
  len := (· = 2)
  unadmitted := []
  object := fun _ s =>
    need ((s.glb.state = .ready || s.glb.state = .degraded) && jobsDefined s = 0) .wrongState
  args := fun _ _ => none
  run := fun _ s => .ok (enter .configurable 0 { s with bar2 := { s.bar2 with pages := [] } })

def execSysDeconfig (r : Req) (s : State) : Host.Outcome State Fault Refusal := .next (runCmd sysDeconfigCmd r s)

/-- SYS_MAINTENANCE: clearing the flag releases every force (R58, R317). -/
def sysMaintenanceCmd : Cmd where
  op := 0x0104
  len := (· = 3)
  unadmitted := []
  object := fun r s => need (!(rb r 2 0 && anyRunning s)) .wrongState
  args := fun r _ => need (zeroFrom r 2 1) .badArg
  run := fun r s =>
    let s := { s with glb := { s.glb with maint := rb r 2 0 } }
    .ok (if rb r 2 0 then s else releaseForces s)

def execSysMaintenance (r : Req) (s : State) : Host.Outcome State Fault Refusal :=
  .next (runCmd sysMaintenanceCmd r s)

end Sys2Proof.Machine
end

