-- ==== Sys2Proof/Machine/Requests.lean ====
section
/-! DEFINITION. Taking a slot, the commands by their opcodes, the order between them, and the messages of the service
port (R28 to R30, R39, R43, R65, R439, R441). -/

namespace Sys2Proof.Machine

/-- The commands of R65. -/
def commands : List Cmd :=
  [sysInfoCmd, sysCommitConfigCmd, sysDeconfigCmd, sysMaintenanceCmd, sysResetCmd, sysPowerStatusCmd, mapWindowCmd]
  ++ [jobDefineCmd, jobLoadPatternCmd, jobStartCmd, jobStopCmd, jobStatusCmd, jobReleaseCmd, jobTallyReadCmd]
  ++ [regionDeclareCmd, roleDeclareCmd, regionPinCmd, rolePinCmd, placeJobCmd, regionQueryCmd, roleQueryCmd,
      regionMoveCmd]
  ++ [fabricPlanLoadCmd, fabricStatusCmd, routeLoadCmd, eyeletDefineCmd, classWeightsCmd, fabricCountersCmd]
  ++ [lacePlanCompileCmd, laceBankQueryCmd, laceStatusCmd, weltPowerCmd, weltForceCmd]
  ++ [shankCoefLoadCmd, shankCoefSwapCmd, shankLimitsCmd, shankRateCmd, shankStatusCmd]
  ++ [calRunCmd, calStatusCmd, monitorReadCmd]
  ++ [schedArmCmd, schedDisarmCmd, schedQueryCmd, timePortConfigCmd, ppsConfigCmd]
  ++ [epochConfigCmd, buddySetCmd, heartbeatConfigCmd, recoverPromoteCmd, resilienceStatusCmd]
  ++ [logReadCmd, logFreezeCmd, logLastgaspCmd, logFilterCmd]
  ++ [fwBeginCmd, fwBlockCmd, fwVerifyCmd, fwArmCmd, fwStatusCmd, fwAbortCmd]
  ++ [idCertReadCmd, attestReportCmd, svcTokenKeyCmd, testUnlockCmd]

/-- The command of an opcode; none is unassigned (R65). -/
def commandOf (op : Nat) : Option Cmd := commands.find? (fun c => c.op = op)

/-- The objects that a command acts on, as kind and number: job, region, window page, lace bank, plane, schedule
entry, fabric plan, staging area. A command on a region or role of a job acts on the job too, and the commands of the
job wait for it (R43; log 55). -/
def objects (op : Nat) (r : Req) : List (Nat × Nat) :=
  let job := rf r 2 0 4
  let g := op / 256
  if g = 2 || g = 3 then [(1, job)]
  else if op = 0x0904 then [(1, rf r 2 1 4)]
  else if op = 0x0120 then [(3, rf r 2 0 10)]
  else if op = 0x0501 then [(4, 1)]
  else if op = 0x0502 then [(4, rf r 2 0 1)]
  else if op = 0x0601 || op = 0x0602 then [(5, rf r 2 0 1)]
  else if op = 0x0802 then [(6, rf r 2 0 16)]
  else if op = 0x0803 then [(6, rf r 2 16 16)]
  else if op = 0x0401 || op = 0x0403 || op = 0x0404 then [(7, 0)]
  else if g = 11 then [(8, 0)]
  else []

/-- A taken command may start: none taken earlier keeps it waiting (R43), and no BAR2 write that came before its ring
is held any more (R44); a promotion or restore waits for a restore that runs (log 47). -/
def mayStart (t : Taken) (s : State) : Bool :=
  let before := (s.mbx.started ++ s.mbx.waiting).filter (fun x => x.order < t.order)
  !s.bar2.held.any (fun w => w.no ≤ t.after) && !(t.opcode = 0x0904 && s.resil.restore.isSome)
    && (if isOrdered t.req then before.isEmpty
      else !before.any (fun x => (objects x.opcode.toNat x.req).any (objects t.opcode.toNat t.req).contains))

/-- A taken command runs; an unassigned opcode is refused (R30). -/
def runTaken (t : Taken) (s : State) : State :=
  match commandOf t.opcode.toNat with
  | some c => match answer c t.req s with
    | .reply st ws bulk s => complete t.req (c.op = 0x0110) st ws bulk s
    | .later s => { s with mbx := { s.mbx with started := s.mbx.started ++ [t] } }
  | none => complete t.req false .badOpcode [] [] s

/-- The first waiting command that may start does (R43; log 55). -/
def startWaiting (s : State) : State :=
  match s.mbx.waiting.find? (fun t => mayStart t s) with
  | some t =>
    if serving s then
      runTaken t { s with mbx := { s.mbx with waiting := s.mbx.waiting.filter (fun x => x.order ≠ t.order) } }
    else s
  | none => s

/-- A request of words: header word 0, word 1, and the words that its length gives (R29). -/
def requestOf (via : Via) (word0 word1 : Word) (rest : Nat → Word) (env : Env) : Req :=
  { via := via, flags := (word0 >>> 16).setWidth 16, tag := word1,
    args := (List.range (min (field word0 20 10) 512 - 2)).map (fun k => rest (k + 2)), env := env }

/-- SLOT_TAKE: the oldest Pending slot is taken and its command starts, or waits by R43 (R39). -/
def slotTake (env : Env) (s : State) : State :=
  match s.mbx.rung with
  | [] => s
  | n :: rest =>
    if h : n < 64 then
      let x := slotOf s n
      let w0 := tget 0 x.req 0
      let r := requestOf (.slot ⟨n, h⟩) w0 (tget 0 x.req 1) (tget 0 x.req) env
      let t : Taken := ⟨w0.setWidth 16, r, s.mbx.orders, x.after⟩
      let s := setSlot n { x with cond := .busy } s
      let s := { s with mbx := { s.mbx with rung := rest, orders := s.mbx.orders + 1 } }
      if mayStart t s then runTaken t s else { s with mbx := { s.mbx with waiting := s.mbx.waiting ++ [t] } }
    else s

def execSlotTake (env : Env) (s : State) : Host.Outcome State Fault Refusal :=
  .next (if serving s then slotTake env s else s)

/-! The service port (R439, R441). -/

/-- The right that a session needs for an opcode: a bit of the token's rights (R440, R441). -/
def rightFor (op : Nat) : Option Nat :=
  if [0x0101, 0x0A01, 0x0A03, 0x0B05, 0x0C01, 0x0C02].contains op then some 0
  else if [0x0B01, 0x0B02, 0x0B03, 0x0B06].contains op then some 1
  else if op = 0x0B04 then some 2
  else none

/-- The buffers of a service-port message: the bytes after the request words are those of the input buffer that FW_BEGIN
and FW_BLOCK have, and an output buffer always takes its data (R439). A message without all the bytes of its buffer gives
none (log 74). -/
def svcEnv (r : Req) (op : Nat) (data : List Byte) : Env :=
  let input := fun n => if bulkLen r n ≤ data.length then some (data.take (bulkLen r n)) else none
  { r.env with dma := [if op = 0x0B01 then input 2 else if op = 0x0B02 then input 7 else some []] }

/-- A message of the open session, without its byte count: a mailbox request and the bytes of its buffers (R439, R441). One
with fewer words than its header gives is answered BAD_LENGTH (log 74). -/
def svcMessage (words : List Word) (env : Env) (s : State) : State :=
  match s.fw.session with
  | none => s
  | some x =>
    let w0 := nth 0 words 0
    let op := field w0 0 16
    let r := requestOf .service w0 (nth 0 words 1) (nth 0 words) env
    let r := { r with env := svcEnv r op (wordsBytes (words.drop (reqLength r))) }
    let s := svcSeen { s with fw := { s.fw with session := some { x with lastMsg := s.clk } } }
    match rightFor op with
    | none => complete r false .badOpcode [] [] s
    | some b =>
      if !bit x.rights b then
        complete r false .authFail [] [] (raise 0x9011 2 ([5] ++ dwords x.tokenId.toNat ++ [word op]) s)
      else if words.length < reqLength r then complete r false .badLength [] [] s
      else runTaken ⟨BitVec.ofNat 16 op, r, s.mbx.orders, 0⟩ s

def execSvcMessage (words : List Word) (env : Env) (s : State) : Host.Outcome State Fault Refusal :=
  .next (if serving s then svcMessage words env s else s)

end Sys2Proof.Machine
end

