-- ==== Sys2Proof/Machine/Dispatch.lean ====
section
/-! DEFINITION. One arm per command: the meaning that it calls. -/

namespace Sys2Proof.Machine

def exec (i : Instr) (s : State) : Host.Outcome State Fault Refusal :=
  match i with
  | .sysInfo r => Sys2Proof.Machine.execSysInfo r s
  | .sysCommitConfig r => Sys2Proof.Machine.execSysCommitConfig r s
  | .sysDeconfig r => Sys2Proof.Machine.execSysDeconfig r s
  | .sysMaintenance r => Sys2Proof.Machine.execSysMaintenance r s
  | .sysReset r => Sys2Proof.Machine.execSysReset r s
  | .sysPowerStatus r => Sys2Proof.Machine.execSysPowerStatus r s
  | .mapWindow r => Sys2Proof.Machine.execMapWindow r s
  | .jobDefine r => Sys2Proof.Machine.execJobDefine r s
  | .jobLoadPattern r => Sys2Proof.Machine.execJobLoadPattern r s
  | .jobStart r => Sys2Proof.Machine.execJobStart r s
  | .jobStop r => Sys2Proof.Machine.execJobStop r s
  | .jobStatus r => Sys2Proof.Machine.execJobStatus r s
  | .jobRelease r => Sys2Proof.Machine.execJobRelease r s
  | .jobTallyRead r => Sys2Proof.Machine.execJobTallyRead r s
  | .regionDeclare r => Sys2Proof.Machine.execRegionDeclare r s
  | .roleDeclare r => Sys2Proof.Machine.execRoleDeclare r s
  | .regionPin r => Sys2Proof.Machine.execRegionPin r s
  | .rolePin r => Sys2Proof.Machine.execRolePin r s
  | .placeJob r => Sys2Proof.Machine.execPlaceJob r s
  | .regionQuery r => Sys2Proof.Machine.execRegionQuery r s
  | .roleQuery r => Sys2Proof.Machine.execRoleQuery r s
  | .regionMove r => Sys2Proof.Machine.execRegionMove r s
  | .fabricPlanLoad r => Sys2Proof.Machine.execFabricPlanLoad r s
  | .fabricStatus r => Sys2Proof.Machine.execFabricStatus r s
  | .routeLoad r => Sys2Proof.Machine.execRouteLoad r s
  | .eyeletDefine r => Sys2Proof.Machine.execEyeletDefine r s
  | .classWeights r => Sys2Proof.Machine.execClassWeights r s
  | .fabricCounters r => Sys2Proof.Machine.execFabricCounters r s
  | .lacePlanCompile r => Sys2Proof.Machine.execLacePlanCompile r s
  | .laceBankQuery r => Sys2Proof.Machine.execLaceBankQuery r s
  | .laceStatus r => Sys2Proof.Machine.execLaceStatus r s
  | .weltPower r => Sys2Proof.Machine.execWeltPower r s
  | .weltForce r => Sys2Proof.Machine.execWeltForce r s
  | .shankCoefLoad r => Sys2Proof.Machine.execShankCoefLoad r s
  | .shankCoefSwap r => Sys2Proof.Machine.execShankCoefSwap r s
  | .shankLimits r => Sys2Proof.Machine.execShankLimits r s
  | .shankRate r => Sys2Proof.Machine.execShankRate r s
  | .shankStatus r => Sys2Proof.Machine.execShankStatus r s
  | .calRun r => Sys2Proof.Machine.execCalRun r s
  | .calStatus r => Sys2Proof.Machine.execCalStatus r s
  | .monitorRead r => Sys2Proof.Machine.execMonitorRead r s
  | .schedArm r => Sys2Proof.Machine.execSchedArm r s
  | .schedDisarm r => Sys2Proof.Machine.execSchedDisarm r s
  | .schedQuery r => Sys2Proof.Machine.execSchedQuery r s
  | .timePortConfig r => Sys2Proof.Machine.execTimePortConfig r s
  | .ppsConfig r => Sys2Proof.Machine.execPpsConfig r s
  | .epochConfig r => Sys2Proof.Machine.execEpochConfig r s
  | .buddySet r => Sys2Proof.Machine.execBuddySet r s
  | .heartbeatConfig r => Sys2Proof.Machine.execHeartbeatConfig r s
  | .recoverPromote r => Sys2Proof.Machine.execRecoverPromote r s
  | .resilienceStatus r => Sys2Proof.Machine.execResilienceStatus r s
  | .logRead r => Sys2Proof.Machine.execLogRead r s
  | .logFreeze r => Sys2Proof.Machine.execLogFreeze r s
  | .logLastgaspRead r => Sys2Proof.Machine.execLogLastgaspRead r s
  | .logFilter r => Sys2Proof.Machine.execLogFilter r s
  | .fwBegin r => Sys2Proof.Machine.execFwBegin r s
  | .fwBlock r => Sys2Proof.Machine.execFwBlock r s
  | .fwVerify r => Sys2Proof.Machine.execFwVerify r s
  | .fwArm r => Sys2Proof.Machine.execFwArm r s
  | .fwStatus r => Sys2Proof.Machine.execFwStatus r s
  | .fwAbort r => Sys2Proof.Machine.execFwAbort r s
  | .idCertRead r => Sys2Proof.Machine.execIdCertRead r s
  | .attestReport r => Sys2Proof.Machine.execAttestReport r s
  | .svcTokenKey r => Sys2Proof.Machine.execSvcTokenKey r s
  | .testUnlock r => Sys2Proof.Machine.execTestUnlock r s
  | .mbxRingWrite hi value => Sys2Proof.Machine.execMbxRingWrite hi value s
  | .slotTake env => Sys2Proof.Machine.execSlotTake env s
  | .mbxDoneWrite hi value => Sys2Proof.Machine.execMbxDoneWrite hi value s
  | .mbxErrRead => Sys2Proof.Machine.execMbxErrRead s
  | .irqMaskWrite value => Sys2Proof.Machine.execIrqMaskWrite value s
  | .irqJobMaskWrite value => Sys2Proof.Machine.execIrqJobMaskWrite value s
  | .coalesceGapEnd k => Sys2Proof.Machine.execCoalesceGapEnd k s
  | .registerWrite off value wide => Sys2Proof.Machine.execRegisterWrite off value wide s
  | .bar0BadAccess off width isRead => Sys2Proof.Machine.execBar0BadAccess off width isRead s
  | .bar2Read addr len flaws => Sys2Proof.Machine.execBar2Read addr len flaws s
  | .bar2Write addr bytes flaws => Sys2Proof.Machine.execBar2Write addr bytes flaws s
  | .functionLevelReset => Sys2Proof.Machine.execFunctionLevelReset s
  | .d3hotEntry => Sys2Proof.Machine.execD3hotEntry s
  | .d0Return => Sys2Proof.Machine.execD0Return s
  | .hostLinkReset => Sys2Proof.Machine.execHostLinkReset s
  | .moduleReset => Sys2Proof.Machine.execModuleReset s
  | .powerOn => Sys2Proof.Machine.execPowerOn s
  | .bootRomStart => Sys2Proof.Machine.execBootRomStart s
  | .trialTimeout => Sys2Proof.Machine.execTrialTimeout s
  | .migration flashOk => Sys2Proof.Machine.execMigration flashOk s
  | .startupComplete fusesBlown => Sys2Proof.Machine.execStartupComplete fusesBlown s
  | .glbHeartbeatTick => Sys2Proof.Machine.execGlbHeartbeatTick s
  | .opsecTick => Sys2Proof.Machine.execOpsecTick s
  | .powerFail vin10mV => Sys2Proof.Machine.execPowerFail vin10mV s
  | .holdupEnd inputPresent => Sys2Proof.Machine.execHoldupEnd inputPresent s
  | .inputRangeChange vin10mV => Sys2Proof.Machine.execInputRangeChange vin10mV s
  | .holdupCheck capUf vhold10mV => Sys2Proof.Machine.execHoldupCheck capUf vhold10mV s
  | .powerLoopSample r => Sys2Proof.Machine.execPowerLoopSample r s
  | .eclkStepUp => Sys2Proof.Machine.execEclkStepUp s
  | .powerLimitTrip => Sys2Proof.Machine.execPowerLimitTrip s
  | .dieOvertempTrip sensor => Sys2Proof.Machine.execDieOvertempTrip sensor s
  | .converterTempChange temp => Sys2Proof.Machine.execConverterTempChange temp s
  | .matrix tile flaws => Sys2Proof.Machine.execMatrix tile flaws s
  | .matrixComplete tile => Sys2Proof.Machine.execMatrixComplete tile s
  | .vector tile flaws => Sys2Proof.Machine.execVector tile flaws s
  | .vectorComplete tile => Sys2Proof.Machine.execVectorComplete tile s
  | .stitch tile flaws => Sys2Proof.Machine.execStitch tile flaws s
  | .wait tile => Sys2Proof.Machine.execWait tile s
  | .waitMet tile => Sys2Proof.Machine.execWaitMet tile s
  | .waitTimeout tile => Sys2Proof.Machine.execWaitTimeout tile s
  | .timewait tile => Sys2Proof.Machine.execTimewait tile s
  | .timewaitRelease tile => Sys2Proof.Machine.execTimewaitRelease tile s
  | .loop tile => Sys2Proof.Machine.execLoop tile s
  | .fence tile => Sys2Proof.Machine.execFence tile s
  | .fenceRelease tile => Sys2Proof.Machine.execFenceRelease tile s
  | .endStep tile => Sys2Proof.Machine.execEndStep tile s
  | .roleEnd tile => Sys2Proof.Machine.execRoleEnd tile s
  | .jobStartInstant job => Sys2Proof.Machine.execJobStartInstant job s
  | .stitchEntryGrant => Sys2Proof.Machine.execStitchEntryGrant s
  | .stitchSegmentSend tag part flaws => Sys2Proof.Machine.execStitchSegmentSend tag part flaws s
  | .heldOperationRelease tag => Sys2Proof.Machine.execHeldOperationRelease tag s
  | .stitchRequestReceive flaws => Sys2Proof.Machine.execStitchRequestReceive flaws s
  | .stitchResponseReceive => Sys2Proof.Machine.execStitchResponseReceive s
  | .stitchTimeout tag => Sys2Proof.Machine.execStitchTimeout tag s
  | .quarantineEnd tag => Sys2Proof.Machine.execQuarantineEnd tag s
  | .sramCorrectionRewrite tile word => Sys2Proof.Machine.execSramCorrectionRewrite tile word s
  | .sramBankScrub tile bank flaws => Sys2Proof.Machine.execSramBankScrub tile bank flaws s
  | .mrdimmCorrectionRewrite chan line => Sys2Proof.Machine.execMrdimmCorrectionRewrite chan line s
  | .patrolScrubRead chan sub flaws => Sys2Proof.Machine.execPatrolScrubRead chan sub flaws s
  | .scrubPeriodChange chan => Sys2Proof.Machine.execScrubPeriodChange chan s
  | .dimmTempRead chan temp => Sys2Proof.Machine.execDimmTempRead chan temp s
  | .caParityError chan fails => Sys2Proof.Machine.execCaParityError chan fails s
  | .channelZeroComplete chan => Sys2Proof.Machine.execChannelZeroComplete chan s
  | .moveUpdateReceive u => Sys2Proof.Machine.execMoveUpdateReceive u s
  | .moveCopyComplete flaws => Sys2Proof.Machine.execMoveCopyComplete flaws s
  | .moveDrainAck module flaws => Sys2Proof.Machine.execMoveDrainAck module flaws s
  | .moveFlip => Sys2Proof.Machine.execMoveFlip s
  | .moveFlipAck module => Sys2Proof.Machine.execMoveFlipAck module s
  | .moveOldPlaceRelease => Sys2Proof.Machine.execMoveOldPlaceRelease s
  | .moveDrainTimeout => Sys2Proof.Machine.execMoveDrainTimeout s
  | .moveFlipAckTimeout => Sys2Proof.Machine.execMoveFlipAckTimeout s
  | .helloSend unit lane => Sys2Proof.Machine.execHelloSend unit lane s
  | .helloReceive unit lane body => Sys2Proof.Machine.execHelloReceive unit lane body s
  | .frameReceive unit lane cw => Sys2Proof.Machine.execFrameReceive unit lane cw s
  | .replayRequestReceive port ack => Sys2Proof.Machine.execReplayRequestReceive port ack s
  | .eyeletSeqGapTimeout eyelet => Sys2Proof.Machine.execEyeletSeqGapTimeout eyelet s
  | .packetSend unit => Sys2Proof.Machine.execPacketSend unit s
  | .packetForward unit buf => Sys2Proof.Machine.execPacketForward unit buf s
  | .laneLockTimeout unit lane deaf => Sys2Proof.Machine.execLaneLockTimeout unit lane deaf s
  | .laneErrorCheck unit lane uncorrectable corrected received => Sys2Proof.Machine.execLaneErrorCheck unit lane uncorrectable corrected received s
  | .laneRetry unit lane => Sys2Proof.Machine.execLaneRetry unit lane s
  | .laneReturn unit lane => Sys2Proof.Machine.execLaneReturn unit lane s
  | .unitMissing unit => Sys2Proof.Machine.execUnitMissing unit s
  | .relaceQuiesce seq => Sys2Proof.Machine.execRelaceQuiesce seq s
  | .laneDealResume lane => Sys2Proof.Machine.execLaneDealResume lane s
  | .scheduleEntryFire => Sys2Proof.Machine.execScheduleEntryFire s
  | .relaceComplete => Sys2Proof.Machine.execRelaceComplete s
  | .laceDark index => Sys2Proof.Machine.execLaceDark index s
  | .laceLightReturn index => Sys2Proof.Machine.execLaceLightReturn index s
  | .laceSettleTimeout index => Sys2Proof.Machine.execLaceSettleTimeout index s
  | .laceLockLoss index => Sys2Proof.Machine.execLaceLockLoss index s
  | .laceLossAlarm index => Sys2Proof.Machine.execLaceLossAlarm index s
  | .shankSample plane => Sys2Proof.Machine.execShankSample plane s
  | .shankThermalTrip plane => Sys2Proof.Machine.execShankThermalTrip plane s
  | .monitorScan group readings => Sys2Proof.Machine.execMonitorScan group readings s
  | .bandgapCompare bg0uV bg1uV => Sys2Proof.Machine.execBandgapCompare bg0uV bg1uV s
  | .bandgapFail => Sys2Proof.Machine.execBandgapFail s
  | .calDriftTest => Sys2Proof.Machine.execCalDriftTest s
  | .calDeferredStart => Sys2Proof.Machine.execCalDeferredStart s
  | .calRunComplete items => Sys2Proof.Machine.execCalRunComplete items s
  | .calRecordWrite ok => Sys2Proof.Machine.execCalRecordWrite ok s
  | .tmuAddendWrite value => Sys2Proof.Machine.execTmuAddendWrite value s
  | .tmuStepWrite value => Sys2Proof.Machine.execTmuStepWrite value s
  | .tmuWdogWrite value => Sys2Proof.Machine.execTmuWdogWrite value s
  | .tmuNsRead => Sys2Proof.Machine.execTmuNsRead s
  | .holdoverEnter => Sys2Proof.Machine.execHoldoverEnter s
  | .nsWrap => Sys2Proof.Machine.execNsWrap s
  | .secondBoundary => Sys2Proof.Machine.execSecondBoundary s
  | .ppsInputEdge rising pulse => Sys2Proof.Machine.execPpsInputEdge rising pulse s
  | .ppsLost => Sys2Proof.Machine.execPpsLost s
  | .schedRecordExpire index => Sys2Proof.Machine.execSchedRecordExpire index s
  | .tpmFrameReceive f dma => Sys2Proof.Machine.execTpmFrameReceive f dma s
  | .tpmTxTailWrite value => Sys2Proof.Machine.execTpmTxTailWrite value s
  | .tpmFrameTransmit dma => Sys2Proof.Machine.execTpmFrameTransmit dma s
  | .tpmRingSizeWrite tx value => Sys2Proof.Machine.execTpmRingSizeWrite tx value s
  | .tpmDropRead => Sys2Proof.Machine.execTpmDropRead s
  | .timePortLinkChange up => Sys2Proof.Machine.execTimePortLinkChange up s
  | .dirtyDrainEnd => Sys2Proof.Machine.execDirtyDrainEnd s
  | .mirrorCopyStart header => Sys2Proof.Machine.execMirrorCopyStart header s
  | .mirrorPageRead flaws => Sys2Proof.Machine.execMirrorPageRead flaws s
  | .mirrorSeal => Sys2Proof.Machine.execMirrorSeal s
  | .storeApply store => Sys2Proof.Machine.execStoreApply store s
  | .heartbeatSend => Sys2Proof.Machine.execHeartbeatSend s
  | .heartbeatReceive record => Sys2Proof.Machine.execHeartbeatReceive record s
  | .peerCheck peer => Sys2Proof.Machine.execPeerCheck peer s
  | .eventRaise e => Sys2Proof.Machine.execEventRaise e s
  | .logChunkWrite => Sys2Proof.Machine.execLogChunkWrite s
  | .logChunkComplete ok => Sys2Proof.Machine.execLogChunkComplete ok s
  | .lossRecordWrite => Sys2Proof.Machine.execLossRecordWrite s
  | .toeEraseComplete ok => Sys2Proof.Machine.execToeEraseComplete ok s
  | .logFreezeTimeout => Sys2Proof.Machine.execLogFreezeTimeout s
  | .logScanComplete bad => Sys2Proof.Machine.execLogScanComplete bad s
  | .logFillPeakRead => Sys2Proof.Machine.execLogFillPeakRead s
  | .logLostRead => Sys2Proof.Machine.execLogLostRead s
  | .cvuStart unit andCheck => Sys2Proof.Machine.execCvuStart unit andCheck s
  | .cvuCheck unit => Sys2Proof.Machine.execCvuCheck unit s
  | .cvuFeedB unit value => Sys2Proof.Machine.execCvuFeedB unit value s
  | .cvuFeedH unit value => Sys2Proof.Machine.execCvuFeedH unit value s
  | .cvuFeedW unit value => Sys2Proof.Machine.execCvuFeedW unit value s
  | .cvuCtrlWrite unit value => Sys2Proof.Machine.execCvuCtrlWrite unit value s
  | .svcSessionOpen token peer => Sys2Proof.Machine.execSvcSessionOpen token peer s
  | .svcMessage words env => Sys2Proof.Machine.execSvcMessage words env s
  | .svcSessionIdleTimeout => Sys2Proof.Machine.execSvcSessionIdleTimeout s
  | .svcSessionClose => Sys2Proof.Machine.execSvcSessionClose s
  | .testNonceExpiry => Sys2Proof.Machine.execTestNonceExpiry s
  | .resetDelayExpiry => Sys2Proof.Machine.execResetDelayExpiry s
  | .modResetRelease => Sys2Proof.Machine.execModResetRelease s
  | .holdupStoreCharged vhold10mV => Sys2Proof.Machine.execHoldupStoreCharged vhold10mV s
  | .dimmTrainingComplete chan spd => Sys2Proof.Machine.execDimmTrainingComplete chan spd s
  | .dimmShutdownCondition chan => Sys2Proof.Machine.execDimmShutdownCondition chan s
  | .memoryRetrainComplete chan ok => Sys2Proof.Machine.execMemoryRetrainComplete chan ok s
  | .linkTrainingComplete port ok => Sys2Proof.Machine.execLinkTrainingComplete port ok s
  | .laneLockGained unit lane => Sys2Proof.Machine.execLaneLockGained unit lane s
  | .ppsOutRise => Sys2Proof.Machine.execPpsOutRise s
  | .ppsOutFall => Sys2Proof.Machine.execPpsOutFall s

end Sys2Proof.Machine
end

