-- ==== Sys2Proof/Machine/Leds.lean ====
section
/-! DEFINITION. The outputs that follow the state: the faceplate LEDs (R477, R478) and the timing port's
transmit-disable signal (R469). -/

namespace Sys2Proof.Machine

/-- What an LED shows. -/
inductive LedPattern where
  | off | green | greenBlink | greenAmber | amber | amberBlink | amberFast | red | redBlink
deriving DecidableEq, Repr

/-- LED PWR, in the order of R478. -/
def ledPwr (s : State) : LedPattern :=
  if !s.power.on then .off
  else if s.power.failing then .amberBlink
  else if (alarms s).any (·) then .amber
  else if pwrGood s then .green
  else .off

/-- LED STATE (R477). -/
def ledState (s : State) : LedPattern :=
  if !s.power.on then .off
  else match s.glb.state with
    | .boot => .amberBlink
    | .migrate => .amberFast
    | .configurable => .amber
    | .ready => .green
    | .running => .greenBlink
    | .degraded => .greenAmber
    | .halted => .red
    | .dead => .redBlink

/-- The LEDs but PWR and STATE are off in Boot, in Dead and without power (R478). -/
def ledsDriven (s : State) : Bool := s.power.on && s.glb.state ≠ .boot && s.glb.state ≠ .dead

/-- LED SVC, in the order of R478. -/
def ledSvc (s : State) : LedPattern :=
  if !ledsDriven s then .off
  else if s.fw.unlocked then .redBlink
  else if s.glb.maint then .amber
  else if s.fw.session.isSome then .green
  else .off

/-- A port of the Welt is on faceplate receptacle `k`: ports 32 to 159 are F000 to F127 (R466). -/
def onReceptacle (k port : Nat) : Bool := 32 ≤ port && (port - 32) / 16 = k

/-- How the active laces that name a port of receptacle `k` stand. -/
def lacesAt (k : Nat) (s : State) : List LaceSt :=
  s.welt.active.filterMap (fun e => match e.2 with
    | some x => if onReceptacle k (e.1 % 160) || onReceptacle k x.outlet
        then some (tget {} s.welt.laces e.1).st else none
    | none => none)

/-- LED LACE0 to LACE7, in the order of R478. -/
def ledLace (k : Nat) (s : State) : LedPattern :=
  let l := lacesAt k s
  if !ledsDriven s || !s.welt.powered || l.isEmpty then .off
  else if l.contains .unlocked then .red
  else if l.contains .forced then .amberBlink
  else if l.contains .dark then .amber
  else if l.contains .settling then .greenBlink
  else if l.all (· = .locked) then .green
  else .off

/-- The two LEDs of the service port, link and activity: green while a 1000BASE-T link is up, amber for some time after a
message, and off without power (R470; log 75). -/
def ledSvcPort (s : State) : LedPattern × LedPattern :=
  let active := match s.fw.svcAt with
    | some t => decide (since t s < Config.activityTicks)
    | none => false
  (if s.power.on && s.fw.svcLink then .green else .off, if s.power.on && s.fw.svcLink && active then .amber else .off)

/-- The transceiver's transmit-disable input, high while the port is off or its cage is empty (R469). -/
def portTxDisable (s : State) : Bool := s.tpm.speed = 0 || !s.tpm.cage

/-! The carrier's pins (R465). PWR_GOOD and PWR_ALERT are in Power.lean, the input pins are commands. -/

/-- MOD_PRESENT_N is tied to ground: low (R465). -/
def modPresentN : Bool := false

/-- TDO: high impedance unless the boundary scan is unlocked (R444, R465). -/
def tdoHighZ (s : State) : Bool := !s.fw.unlocked

/-- The state of the TAP controller after a rising edge of TCK with a level of TMS (IEEE 1149.1, PRESUMED, log 76). -/
def tapNext (tms : Bool) : Tap → Tap
  | .testLogicReset => if tms then .testLogicReset else .runTestIdle
  | .runTestIdle => if tms then .selectDr else .runTestIdle
  | .selectDr => if tms then .selectIr else .captureDr
  | .captureDr => if tms then .exit1Dr else .shiftDr
  | .shiftDr => if tms then .exit1Dr else .shiftDr
  | .exit1Dr => if tms then .updateDr else .pauseDr
  | .pauseDr => if tms then .exit2Dr else .pauseDr
  | .exit2Dr => if tms then .updateDr else .shiftDr
  | .updateDr => if tms then .selectDr else .runTestIdle
  | .selectIr => if tms then .testLogicReset else .captureIr
  | .captureIr => if tms then .exit1Ir else .shiftIr
  | .shiftIr => if tms then .exit1Ir else .shiftIr
  | .exit1Ir => if tms then .updateIr else .pauseIr
  | .pauseIr => if tms then .exit2Ir else .pauseIr
  | .exit2Ir => if tms then .updateIr else .shiftIr
  | .updateIr => if tms then .selectDr else .runTestIdle

/-- An edge of TCK: while the boundary scan is locked, the module ignores it and holds the TAP in Test-Logic-Reset (R444,
R465). No row of the table stands for TCK. -/
def tckEdge (tms : Bool) (s : State) : State :=
  { s with fw := { s.fw with tap := if s.fw.unlocked then tapNext tms s.fw.tap else .testLogicReset } }

/-- TRST_N low puts the TAP in Test-Logic-Reset (IEEE 1149.1, R465). -/
def trst (s : State) : State := { s with fw := { s.fw with tap := .testLogicReset } }

end Sys2Proof.Machine
end

