-- ==== Sys2Proof/Machine/RegisterRead.lean ====
section
/-! DEFINITION. What a host read of a BAR0 register returns: the fields of the register tables, gathered from State
(R8, R23 to R28, R37, R47, R353, R364, R412, R414). Reads have no effect but where a row of the table gives them one. -/

namespace Sys2Proof.Machine

/-- Bits from a position on, as a number. -/
def atBit (n k : Nat) : Nat := n * 2 ^ k

/-- GLB_STATE (R27). -/
def glbStateWord (s : State) : Word :=
  word (stateCode s.glb.state + atBit s.glb.prev.toNat 4 + atBit (b2n s.glb.maint) 8 + atBit (b2n s.log.mediaFail) 9
    + atBit (b2n (s.mon.stale.any (·.2))) 10 + atBit (b2n s.glb.holdover) 11 + atBit (b2n (s.power.eclk < 2200)) 12
    + atBit (b2n s.fw.armedEntry.isSome) 13 + atBit s.glb.seq.toNat 24)

/-- The GLB_ block (R27). -/
def glbRead (off : Nat) (s : State) : Word :=
  match off with
  | 0x00 => word (0x2460 + atBit s.glb.dieRev.toNat 16 + atBit s.glb.boardRev.toNat 24)
  | 0x04 => 0x24601F7C
  | 0x08 => s.glb.serial.setWidth 32
  | 0x0C => (s.glb.serial >>> 32).setWidth 32
  | 0x10 => s.glb.fwVer
  | 0x14 => s.glb.svn.setWidth 32
  | 0x18 => word (s.glb.moduleId.toNat + atBit (b2n s.glb.moduleIdValid) 31)
  | 0x20 => glbStateWord s
  | 0x24 => s.glb.cause.setWidth 32
  | 0x28 => s.glb.opsec
  | 0x2C => s.glb.pcycle.setWidth 32
  | 0x30 => s.glb.heartbeat
  | 0x34 => s.glb.scratch
  | _ => 0

/-- The slots of a half that stand in a condition, as a mask (R37). -/
def slotMask (hi : Bool) (c : SlotCond) (s : State) : Word :=
  word (bitsNat ((List.range 32).map (fun k => (slotOf s (32 * b2n hi + k)).cond = c)))

/-- The MBX_ block (R37). -/
def mbxRead (off : Nat) (s : State) : Word :=
  match off with
  | 0x08 => slotMask false .pending s
  | 0x0C => slotMask true .pending s
  | 0x10 => slotMask false .busy s
  | 0x14 => slotMask true .busy s
  | 0x18 => slotMask false .done s
  | 0x1C => slotMask true .done s
  | 0x20 => s.mbx.badRings.setWidth 32
  | _ => 0

/-- An entry of the MSI-X table (R23). -/
def msixRead (off : Nat) (s : State) : Word :=
  let e := tget {} s.irq.msix (off / 16)
  match off / 4 % 4 with
  | 0 => e.addrLo
  | 1 => e.addrHi
  | 2 => e.data
  | _ => e.ctrl

/-- The IRQ_ block, the MSI-X table and the pending bit array (R23, R47). -/
def irqRead (off : Nat) (s : State) : Word :=
  match off with
  | 0x00 => s.irq.cause.setWidth 32
  | 0x04 => s.irq.jobCause.setWidth 32
  | 0x08 => s.irq.mask.setWidth 32
  | 0x0C => s.irq.jobMask.setWidth 32
  | 0x10 => s.irq.evtLevel.setWidth 32
  | 0x14 => s.irq.coalesce.setWidth 32
  | 0x18 => s.irq.evtSeq
  | 0x2000 => s.irq.pba.setWidth 32
  | 0x2004 => (s.irq.pba >>> 32).setWidth 32
  | _ => if 0x1000 ≤ off && off < 0x1400 then msixRead (off - 0x1000) s else 0

/-- Whole seconds before the watchdog expires (R353, R356). Its value after reset is not defined (R10): the model counts
down from the reset value of timeout_s, a choice (log 67). -/
def wdogLeft (s : State) : Nat :=
  if s.tmu.wdogDone then 0 else (ticksS s.tmu.timeoutS.toNat - since s.tmu.wdogStart s) / ticksS 1

/-- The TMU_ block (R353). -/
def tmuRead (off : Nat) (s : State) : Word :=
  match off with
  | 0x00 => s.tmu.ns
  | 0x04 => s.tmu.latFrac
  | 0x08 => s.tmu.addend
  | 0x10 => word (s.tmu.status.toNat / 2 * 2 + b2n s.tmu.holdover)
  | 0x14 => word (s.tmu.timeoutS.toNat + atBit (wdogLeft s) 8)
  | 0x18 => s.tmu.latSec
  | 0x1C => s.tmu.latEra.setWidth 32
  | 0x20 => s.tmu.ppsTs
  | 0x24 => s.tmu.ppsFrac
  | 0x28 => s.tmu.ppsEra.setWidth 32
  | 0x2C => word (atBit s.tmu.irqEn.toNat 1)
  | _ => 0

/-- A check-value unit, as a read finds it after the writes that came before (R414, R418). -/
def cvuRead (off : Nat) (s : State) : Word :=
  let u := cvuOf (cvuSettled (off / 0x100) s) (off / 0x100)
  if 8 ≤ off / 0x100 then 0
  else match off % 0x100 with
    | 0x00 => word (u.width + atBit (b2n u.refin) 8 + atBit (b2n u.refout) 9 + atBit u.prefixWords 10 + atBit (b2n u.irqEn) 13)
    | 0x04 => u.poly
    | 0x08 => u.init
    | 0x0C => u.xorout
    | 0x20 => word (u.state.toNat % 2 ^ u.width)
    | 0x24 => u.result
    | 0x28 => u.expect
    | 0x2C => word (bitsNat [!u.queue.isEmpty, u.matched, u.mismatch, u.overrun, u.cfgErr, u.checked])
    | 0x30 => u.count
    | o => if 0x40 ≤ o && o < 0x50 then tget 0 u.pfx ((o - 0x40) / 4) else 0

/-- The LOG_ block (R412). -/
def logRegRead (off : Nat) (s : State) : Word :=
  match off with
  | 0x00 => logStatus s.log
  | 0x04 => word (fill s)
  | 0x08 => word s.log.peak
  | 0x0C => word s.log.thresh
  | 0x10 => s.log.seqNew
  | 0x14 => s.log.seqFlash
  | 0x18 => oldestToe s.log
  | 0x1C => word (4096 * min s.log.heelNext 896)
  | 0x20 => word s.log.lost
  | 0x24 => word s.log.lastgasp.length
  | _ => 0

/-- One ring of the TPM_ block (R364). -/
def ringRead (off : Nat) (x : Ring) : Word :=
  match off with
  | 0x00 => x.baseLo
  | 0x04 => x.baseHi
  | 0x08 => word x.size
  | 0x0C => word x.tail
  | 0x10 => word x.head
  | _ => 0

/-- The TPM_ block (R364). -/
def tpmRead (off : Nat) (s : State) : Word :=
  if off < 0x20 then ringRead off s.tpm.rx
  else if off < 0x40 then ringRead (off - 0x20) s.tpm.tx
  else if off = 0x40 then word (s.tpm.noDesc.toNat + atBit s.tpm.bad.toNat 16)
  else 0

/-- A word of slot memory (R28). -/
def slotRead (off : Nat) (s : State) : Word :=
  let x := slotOf s (off / 4096)
  if off % 4096 < 2048 then tget 0 x.req (off % 4096 / 4) else tget 0 x.resp (off % 4096 / 4 - 512)

/-- What an aligned 32-bit host read of a BAR0 offset returns (R8, R23, R24, R26): none while the function ignores
accesses. A register that a read clears shows its value before the read. -/
def registerRead (off : Nat) (s : State) : Option Word :=
  if !answersBar s then none
  else if off < 0x10000 then some (glbRead off s)
  else if !reachable s then some 0
  else if off < 0x20000 then some (mbxRead (off - 0x10000) s)
  else if off < 0x30000 then some (irqRead (off - 0x20000) s)
  else if off < 0x40000 then some (tmuRead (off - 0x30000) s)
  else if off < 0x50000 then some (cvuRead (off - 0x40000) s)
  else if off < 0x60000 then some (logRegRead (off - 0x50000) s)
  else if off < 0x70000 then some (tpmRead (off - 0x60000) s)
  else if inSlots off then some (slotRead (off - 0x100000) s)
  else some 0

end Sys2Proof.Machine
end

