-- ==== Sys2Proof/Machine/PciFunction.lean ====
section
/-! DEFINITION. The PCIe function: its identity, its BARs, the attributes of what it sends, and what an access that no
row of the table stands for gets (R18, R19, R22, R25, R63). Configuration space beyond R19 and R22 is the base
specification's, which the rules name and do not describe (log 69). -/

namespace Sys2Proof.Machine

/-- Vendor ID, device ID, subsystem vendor ID and subsystem ID (R19). -/
def pciIds : List Nat := [0x1F7C, 0x2460, 0x1F7C, 0x2460]

/-- Class code: processing accelerator (R19). -/
def pciClass : Nat := 0x120000

/-- A base address register (R22). -/
structure Bar where
  number : Nat
  configRegisters : Nat × Nat
  is64 : Bool
  prefetchable : Bool
  bytes : Nat
deriving DecidableEq, Repr

/-- The two BARs (R22). -/
def bars : List Bar :=
  [⟨0, (0, 1), true, false, 64 * 2 ^ 20⟩, ⟨2, (2, 3), true, true, 16 * 2 ^ 30⟩]

/-- The bits that a base address register reads back beside its address: 64-bit type in bits [2:1], prefetchable in
bit 3. The values are the PCI base specification's, PRESUMED (log 69). -/
def barType (b : Bar) : Nat := 4 * b2n b.is64 + 8 * b2n b.prefetchable

/-- Link speeds in units of 0.5 GT/s, link widths, payload sizes and read request sizes in bytes (R19). -/
def linkSpeeds : List Nat := [128, 64, 32, 16, 10, 5]
def linkWidths : List Nat := [16, 8, 4, 2, 1]
def payloadSizes : List Nat := [128, 256, 512]
def readRequestSizes : List Nat := [128, 256, 512, 1024, 2048, 4096]

/-- MSI-X vectors, and the non-posted requests that may be outstanding (R19). -/
def msixVectors : Nat := 64
def outstandingRequests : Nat := 768

/-- Relaxed ordering of what the module sends to the host: set on writes of bulk-buffer data, never on MSI-X writes or
on completions of BAR0 reads (R19), nor on the writes to the receive ring (R366), nor on those to the transmit ring,
which carry no bulk-buffer data (DEDUCED, log 69). For the completion of a BAR2 read the table says nothing: none, and
the rest is no packet of the link. -/
def relaxedOrdering : Output → Option Bool
  | .dma .. => some true
  | .msix .. | .regValue .. | .ringDma .. => some false
  | _ => none

/-- No-snoop is never set (R19). -/
def noSnoop : Output → Bool := fun _ => false

/-- The writes that carry data to host memory, none longer than the payload size in force (R19). -/
def payloads (size : Nat) : Nat → Nat → List Byte → List (Nat × List Byte)
  | 0, _, _ => []
  | n + 1, a, bs =>
    if bs.isEmpty then []
    else
      let k := size - a % size
      (a, bs.take k) :: payloads size n (a + k) (bs.drop k)

/-- A memory write that the function sends on the link: address, data, relaxed ordering and no-snoop. -/
structure WriteTlp where
  addr : Nat
  data : List Byte
  relaxed : Option Bool
  noSnoop : Bool
deriving DecidableEq, Repr

/-- The writes by which an output reaches host memory, with the payload size in force: `Output.dma` and `Output.ringDma` keep
a buffer whole, and no row of the table tells one of its packets from another (R19; log 69). -/
def writesOf (size : Nat) (o : Output) : List WriteTlp :=
  let send := fun (l : List (Nat × List Byte)) => l.map (fun p => ⟨p.1, p.2, relaxedOrdering o, noSnoop o⟩)
  match o with
  | .dma a bs | .ringDma a bs => send (payloads size bs.length a bs)
  | .msix _ a d => send [(a.toNat, wordBytes d)]
  | _ => []

/-- The reads of a buffer in host memory: none longer than the read request size in force, none across a multiple of it
(R19). -/
def readsOf (size : Nat) : Nat → Nat → Nat → List (Nat × Nat)
  | 0, _, _ => []
  | fuel + 1, a, n => if n = 0 then [] else
      let k := min n (size - a % size)
      (a, k) :: readsOf size fuel (a + k) (n - k)

/-- A read may be issued: fewer than 768 non-posted requests are outstanding (R19). -/
def mayRead (outstanding : Nat) : Bool := outstanding < outstandingRequests

/-! Error reporting: AER with all the error classes of the base specification (R19). The classes and the places of their bits
are the base specification's, PRESUMED (log 69); no row of the table is an error of the link. -/

/-- The correctable error classes. -/
inductive CorrectableError where
  | receiver | badTlp | badDllp | replayNumRollover | replayTimerTimeout | advisoryNonFatal | internal | headerLogOverflow
deriving DecidableEq, Repr

/-- The uncorrectable error classes. -/
inductive UncorrectableError where
  | dataLinkProtocol | surpriseDown | poisonedTlp | flowControl | completionTimeout | completerAbort
  | unexpectedCompletion | receiverOverflow | malformedTlp | ecrc | unsupportedRequest | acsViolation | internal
  | mcBlockedTlp | atomicOpEgressBlocked | tlpPrefixBlocked | poisonedTlpEgressBlocked
deriving DecidableEq, Repr

/-- The bit of a correctable error in its status and mask registers. -/
def CorrectableError.bit : CorrectableError → Nat
  | .receiver => 0 | .badTlp => 6 | .badDllp => 7 | .replayNumRollover => 8 | .replayTimerTimeout => 12
  | .advisoryNonFatal => 13 | .internal => 14 | .headerLogOverflow => 15

/-- The bit of an uncorrectable error in its status, mask and severity registers. -/
def UncorrectableError.bit : UncorrectableError → Nat
  | .dataLinkProtocol => 4 | .surpriseDown => 5 | .poisonedTlp => 12 | .flowControl => 13 | .completionTimeout => 14
  | .completerAbort => 15 | .unexpectedCompletion => 16 | .receiverOverflow => 17 | .malformedTlp => 18 | .ecrc => 19
  | .unsupportedRequest => 20 | .acsViolation => 21 | .internal => 22 | .mcBlockedTlp => 23
  | .atomicOpEgressBlocked => 24 | .tlpPrefixBlocked => 25 | .poisonedTlpEgressBlocked => 26

/-- The registers of the AER capability. -/
structure Aer where
  correctable : Word := 0
  correctableMask : Word := 0x2000
  uncorrectable : Word := 0
  uncorrectableMask : Word := 0
  /-- 1 fatal, 0 non-fatal, by the bit of the class. -/
  severity : Word := 0x00462030
deriving DecidableEq, Repr

/-- The message that an error sends to the root port. -/
inductive ErrorMessage where
  | correctable | nonFatal | fatal
deriving DecidableEq, Repr

/-- A correctable error: its status bit, and a message unless it is masked. -/
def Aer.correctableError (e : CorrectableError) (x : Aer) : Aer × Option ErrorMessage :=
  ({ x with correctable := x.correctable ||| BitVec.ofNat 32 (2 ^ e.bit) },
    if Sys2Proof.Machine.bit x.correctableMask e.bit then none else some .correctable)

/-- An uncorrectable error: its status bit, and unless it is masked a message by its severity. -/
def Aer.uncorrectableError (e : UncorrectableError) (x : Aer) : Aer × Option ErrorMessage :=
  ({ x with uncorrectable := x.uncorrectable ||| BitVec.ofNat 32 (2 ^ e.bit) },
    if Sys2Proof.Machine.bit x.uncorrectableMask e.bit then none
    else some (if Sys2Proof.Machine.bit x.severity e.bit then .fatal else .nonFatal))

/-- A request that targets a BAR. -/
inductive BarRequest where
  | read | write | atomic
deriving DecidableEq, Repr

/-- A completion. -/
inductive Completion where
  | data | unsupportedRequest
deriving DecidableEq, Repr

/-- The completion of a request while the function answers: a write is posted, an AtomicOp is not supported (R19,
R63). -/
def completionOf : BarRequest → Option Completion
  | .read => some .data
  | .write => none
  | .atomic => some .unsupportedRequest

/-- What a good host read of BAR0 returns: 32 bits anywhere, or 64 bits of slot memory, low word first (R4, R8, R25). -/
def bar0Read (off width : Nat) (s : State) : Option DWord :=
  if !goodAccess off width then none
  else if width = 8 then
    match registerRead off s, registerRead (off + 4) s with
    | some lo, some hi => some (hi ++ lo)
    | _, _ => none
  else (registerRead off s).map (fun w => w.setWidth 64)

end Sys2Proof.Machine
end

