-- ==== Sys2Proof/Safety.lean ====
section
/-! DEFINITION. What a safe step is, and the words in which the statements speak of requests, responses and frames. -/

namespace Sys2Proof

open Machine

/-- A step that goes on. -/
def StepGoes (s : Machine.State) : Prop := ∃ t, Machine.step s = .next t

/-- A request that reaches its command's own checks: Yarler takes slots, the header keeps R29, the length is as the
command's table gives it, and the module state admits the command (R30, R57). -/
abbrev Asked (op len : Nat) (r : Req) (s : Machine.State) : Prop :=
  serving s = true ∧ reqLength r = len ∧ headerOk r = true ∧ admits op s = true

/-- The module acts: powered and not held in reset (R454). -/
abbrev Alive (s : Machine.State) : Prop := s.power.on = true ∧ s.power.held = false

/-- The module acts and its rails are fed: no domain is shed in a hold-up (R448). -/
abbrev Fed (s : Machine.State) : Prop := Alive s ∧ s.power.failing = false

/-- Stitch operations are sent and completed: no activation waits for its restart (R432). -/
abbrev Sends (s : Machine.State) : Prop := Fed s ∧ s.fw.restartAt = none

/-- The next state in which a command completes with a status and response words from word 2 on (R40). -/
abbrev Answers (r : Req) (st : Status) (ws : List Word) (s : Machine.State) : Host.Outcome Machine.State Fault Refusal :=
  .next (complete r false st ws [] s)

/-- The commands that may write tile SRAM or MRDIMM, directly or through what they start or stop; every other command
leaves both memories alone. -/
def mayStore : Instr → Bool
  | .jobStart _ | .jobStop _ | .placeJob _ | .jobRelease _ | .buddySet _ | .recoverPromote _ => true
  | .slotTake _ | .svcMessage _ _ | .bar2Write _ _ _ => true
  | .moduleReset | .powerOn | .powerFail _ | .holdupEnd _ | .resetDelayExpiry => true
  | .powerLimitTrip | .dieOvertempTrip _ | .shankThermalTrip _ | .dimmShutdownCondition _ | .eventRaise _ => true
  | .matrix _ _ | .vector _ _ | .stitch _ _ | .wait _ | .waitTimeout _ | .timewait _ | .loop _ | .fence _ => true
  | .fenceRelease _ | .endStep _ | .jobStartInstant _ => true
  | .stitchEntryGrant | .stitchSegmentSend _ _ _ | .stitchRequestReceive _ | .stitchResponseReceive | .stitchTimeout _ => true
  | .mrdimmCorrectionRewrite _ _ | .dimmTempRead _ _ | .caParityError _ _ | .channelZeroComplete _ => true
  | .memoryRetrainComplete _ _ => true
  | .moveFlip | .moveDrainTimeout => true
  | .scheduleEntryFire | .mirrorCopyStart _ | .mirrorPageRead _ | .storeApply _ | .peerCheck _ => true
  | _ => false

/-! The bytes that a command leaves: an address stands for one byte of tile SRAM (`sramAddr`) or of MRDIMM
(`dramAddr`). -/

/-- An address lies outside some ranges, each a first address and a length. -/
def Outside (l : List (Nat × Nat)) (x : Nat) : Prop := ∀ q ∈ l, x < q.1 ∨ q.1 + q.2 ≤ x

/-- Every byte outside some ranges of tile SRAM and some of MRDIMM is as before. -/
def KeepsOutside (sram dram : List (Nat × Nat)) (s t : Machine.State) : Prop :=
  (∀ x, Outside sram x → readByte t.mem.sram x = readByte s.mem.sram x)
    ∧ ∀ x, Outside dram x → readByte t.mem.dram x = readByte s.mem.dram x

/-- Ranges of a tile's SRAM as addresses. -/
def tileRanges (t : Nat) (l : List (Nat × Nat)) : List (Nat × Nat) := l.map (fun q => (sramAddr t q.1, q.2))

/-- The lines of 64 bytes that pieces of MRDIMM touch: a line is read, corrected and written whole (R216, R220). -/
def pieceLines (l : List (Nat × Nat × Nat)) : List (Nat × Nat) :=
  l.flatMap (fun p => (linesOf p.2.1 p.2.2).map (fun k => (dramAddr p.1 (64 * k), 64)))

/-- The bytes of tile SRAM that a place of `n` bytes names. -/
def storedSram (n : Nat) : Place0 → List (Nat × Nat)
  | .sram t off => tileRanges t [(off, n)]
  | _ => []

/-- The lines of MRDIMM that a place touches. -/
def storedDram : Place0 → List (Nat × Nat)
  | .dram l => pieceLines l
  | _ => []

end Sys2Proof
end

