-- ==== Sys2Proof/Certificates/Slice0/Obligations.lean ====
section
/-! DEFINITION. The statements about the model, for the provers. Each cites the rules of the specification that it
formalises. -/

open Sys2Proof Sys2Proof.Machine

/-- What the system commands do when they complete: SYS_INFO and SYS_POWER_STATUS report; SYS_COMMIT_CONFIG enters
an operating state; SYS_DECONFIG goes back to Configurable and unmaps every window; SYS_MAINTENANCE sets or
clears the flag; SYS_RESET asks for a reset, which follows the done bit. That word 2 of SYS_INFO gives the
channels in service (06_memory.md R207 and R209) is the model's reading (log 53, DEDUCED). -/
def Obligations.SystemCommands : Prop :=
  (∀ (r : Req) (s : State),
    Asked 0x0101 2 r s →
    s.glb.state ≠ .migrate →
      exec (.sysInfo r) s = Answers r .ok
        [word ((inServiceChans s).map (2 ^ ·)).sum, word (memoryGib s),
         word (s.glb.moduleId.toNat + 65536 * b2n s.glb.moduleIdValid),
         word (jobsDefined s + 65536 * jobMask (fun x => x = .running) s), word s.power.eclk, word (tilesFree s),
         word (degrading s)] s) ∧
  (∀ (r : Req) (s : State),
    Asked 0x0102 2 r s →
    s.glb.state = .configurable →
    s.fabric.planLoaded = true →
    (∀ p, p < 2 → (planeOf s p).active.isSome ∧ ((planeOf s p).limits.isSome ∨ (planeOf s p).limitsDue.isSome)) →
    s.tmu.addendWritten = true →
      exec (.sysCommitConfig r) s = Answers r .ok [0] (enter (operatingState s) 0 s)) ∧
  (∀ (r : Req) (s : State),
    Asked 0x0103 2 r s →
    (s.glb.state = .ready ∨ s.glb.state = .degraded) →
    jobsDefined s = 0 →
      exec (.sysDeconfig r) s = Answers r .ok [] (enter .configurable 0 { s with bar2 := { s.bar2 with pages := [] } })) ∧
  (∀ (r : Req) (s : State),
    Asked 0x0104 3 r s →
    zeroFrom r 2 1 = true →
    rb r 2 0 = true →
    anyRunning s = false →
      exec (.sysMaintenance r) s = Answers r .ok [] { s with glb := { s.glb with maint := true } }) ∧
  (∀ (r : Req) (s : State),
    Asked 0x0104 3 r s →
    zeroFrom r 2 1 = true →
    rb r 2 0 = false →
      exec (.sysMaintenance r) s = Answers r .ok [] (releaseForces { s with glb := { s.glb with maint := false } })) ∧
  (∀ (r : Req) (s : State),
    Asked 0x0110 4 r s →
    zeroFrom r 2 2 = true →
    rw r 3 = 0x2460 →
    (rb r 2 0 = true ∨ rb r 2 1 = true ∨ resetUnsafe s = false) →
    activationFiring s = false →
      exec (.sysReset r) s = .next (complete r true .ok [] []
        { s with power := { s.power with
            resetDue := s.power.resetDue ++ [(if rb r 2 0 then .hostLink else .module, s.clk)] } })) ∧
  (∀ (r : Req) (s : State),
    Asked 0x0111 2 r s →
      exec (.sysPowerStatus r) s = Answers r .ok
        [word (s.power.sample.vin10mV % 65536 + 65536 * (s.power.sample.iinMa % 65536)),
         word (s.power.sample.pinW % 65536 + 65536 * (s.power.sample.pdieW % 65536)),
         word (s.power.eclk + 65536 * unsignedOf 8 (wholeDegrees s.power.tdie)),
         word (s.power.sample.vhold10mV % 65536 + 65536 * b2n (s.power.charged && !s.power.holdupFault)),
         word (bitsNat (alarms s ++ [powerLimited s, s.power.tLimit])), s.power.stepsDown] s) ∧
  (∀ (r : Req) (s : State),
    Asked 0x0120 6 r s →
    rf r 2 10 6 = 0 →
    zeroFrom r 2 18 = true →
    winUnmaps r = true →
    zeroWords r 3 5 = true →
      exec (.mapWindow r) s = Answers r .ok [] (setPage (rf r 2 0 10) {} s)) ∧
  (∀ (r : Req) (s : State),
    Asked 0x0120 6 r s →
    rf r 2 10 6 = 0 →
    zeroFrom r 2 18 = true →
    winUnmaps r = false →
    operating s = true →
    winOk r s = true →
      exec (.mapWindow r) s = Answers r .ok []
        (setPage (rf r 2 0 10)
          { cond := .mapped, rd := rb r 2 16, wr := rb r 2 17, job := rf r 3 16 4, region := rf r 3 0 16, offset := winOffset r } s))

/-- What the job commands do when they complete. A JOB_START with sched set is answered ACCEPTED and arms the job; a
JOB_STOP of a running job whose operations are not yet complete is answered later. An immediate JOB_START fixes
the start instant to the Sitetime of the command: R150 allows up to 10 ms, and this is the model's choice (log
60). That tiles may be given work only while the compute domain is fed and no activation has fired is log 51. -/
def Obligations.JobCommands : Prop :=
  (∀ (r : Req) (s : State),
    Asked 0x0201 6 r s →
    jobIs [.free] r s = true →
    zeroFrom r 2 4 = true →
    zeroFrom r 3 18 = true →
    (∀ j ∈ jobNos, j = reqJob r ∨ (jobOf s j).status = .free ∨ (jobOf s j).tag ≠ rw r 5) →
      exec (.jobDefine r) s = Answers r .ok []
        (changeStatus (reqJob r) .defined
          (setJob (reqJob r) { nRoles := rf r 3 0 18 + 1, seed := rw r 4, tag := rw r 5 } s))) ∧
  (∀ (r : Req) (s : State),
    Asked 0x0202 16 r s →
    jobIs [.free, .armed, .running] r s = false →
    loadOk r s = true →
    dmaGood r 0 = true →
    (hasPreload r = true → dmaGood r 1 = true) →
    checkSteps (jobOf s (reqJob r)).nRoles (patternOfReq r).steps = none →
    storeUsed (reqJob r) (rf r 2 4 6) s + patternBytes (patternOfReq r) ≤ 134217728 →
      exec (.jobLoadPattern r) s = Answers r .ok []
        (modJob (reqJob r) (fun x => { x with patterns := tset none x.patterns (rf r 2 4 6) (some (patternOfReq r)) }) s)) ∧
  (∀ (r : Req) (s : State),
    Asked 0x0203 4 r s →
    operating s = true →
    s.glb.maint = false →
    jobIs [.defined, .done, .stopped, .faulted] r s = true →
    jobPlaced (jobOf s (reqJob r)) s = true →
    (∀ t ∈ roleTiles (reqJob r) s, (patternOf (jobOf s (reqJob r)) (roleOf t s)).isSome) →
    zeroFrom r 2 5 = true →
    rb r 2 4 = false →
    rw r 3 = 0 →
    mayRun s = true →
      exec (.jobStart r) s = Answers r .ok [] (startJob (reqJob r) s.tmu.ns s)) ∧
  (∀ (r : Req) (s : State) (i : Nat),
    Asked 0x0203 4 r s →
    operating s = true →
    s.glb.maint = false →
    jobIs [.defined, .done, .stopped, .faulted] r s = true →
    jobPlaced (jobOf s (reqJob r)) s = true →
    (∀ t ∈ roleTiles (reqJob r) s, (patternOf (jobOf s (reqJob r)) (roleOf t s)).isSome) →
    zeroFrom r 2 5 = true →
    rb r 2 4 = true →
    leadOk (rw r 3) 10000000 s = true →
    takeIndex s = some i →
    mayRun s = true →
      exec (.jobStart r) s = Answers r .accepted [(schedOf (armAt i 2 (rw r 3) false (reqJob r) 0 s) i).seq.setWidth 32]
        (changeStatus (reqJob r) .armed
          (modJob (reqJob r) (fun x => { x with entry := some i, firing := false })
            (armAt i 2 (rw r 3) false (reqJob r) 0 s)))) ∧
  (∀ (r : Req) (s : State) (i : Nat),
    Asked 0x0204 3 r s →
    zeroFrom r 2 4 = true →
    (jobOf s (reqJob r)).status = .armed →
    (jobOf s (reqJob r)).firing = false →
    (jobOf s (reqJob r)).entry = some i →
      exec (.jobStop r) s = Answers r .ok [] (unarmJob (reqJob r) (disarmEntry i s))) ∧
  (∀ (r : Req) (s : State),
    Asked 0x0204 3 r s →
    zeroFrom r 2 4 = true →
    ((jobOf s (reqJob r)).status = .done ∨ (jobOf s (reqJob r)).status = .stopped ∨ (jobOf s (reqJob r)).status = .faulted) →
      exec (.jobStop r) s = Answers r .ok [] s) ∧
  (∀ (r : Req) (s : State) (t : State),
    Asked 0x0204 3 r s →
    zeroFrom r 2 4 = true →
    (jobOf s (reqJob r)).status = .running →
    (jobOf s (reqJob r)).stopping = none →
    (t = modJob (reqJob r) (fun x => { x with stopping := some (runningTiles (reqJob r) s).length }) (stopRoles (reqJob r) s)) →
    jobQuiet (reqJob r) t = true →
      exec (.jobStop r) s = Answers r .ok [] (settleStops t)) ∧
  (∀ (r : Req) (s : State) (t : State),
    Asked 0x0204 3 r s →
    zeroFrom r 2 4 = true →
    (jobOf s (reqJob r)).status = .running →
    (jobOf s (reqJob r)).stopping = none →
    (t = modJob (reqJob r) (fun x => { x with stopping := some (runningTiles (reqJob r) s).length }) (stopRoles (reqJob r) s)) →
    jobQuiet (reqJob r) t = false →
      exec (.jobStop r) s = .next { t with mbx := { t.mbx with
        started := t.mbx.started ++ [⟨0x0204, r, t.mbx.orders, 0⟩], orders := t.mbx.orders + 1 } }) ∧
  (∀ (r : Req) (s : State),
    Asked 0x0205 3 r s →
    jobIs [.free] r s = false →
    zeroFrom r 2 11 = true →
    rb r 2 4 = false →
      exec (.jobStatus r) s = Answers r .ok (jobStatusWords (reqJob r) none s) s) ∧
  (∀ (r : Req) (s : State),
    Asked 0x0205 3 r s →
    jobIs [.free] r s = false →
    zeroFrom r 2 11 = true →
    rb r 2 4 = true →
    (tileOf s (rf r 2 5 6)).job = some (reqJob r) →
      exec (.jobStatus r) s = Answers r .ok (jobStatusWords (reqJob r) (some (rf r 2 5 6)) s) s) ∧
  (∀ (r : Req) (s : State),
    Asked 0x0206 3 r s →
    jobIs [.free, .armed, .running] r s = false →
    zeroFrom r 2 4 = true →
      exec (.jobRelease r) s = Answers r .ok [] (releaseJob (reqJob r) s)) ∧
  (∀ (r : Req) (s : State) (t : Nat),
    Asked 0x0207 4 r s →
    jobIs [.free, .defined] r s = false →
    zeroFrom r 2 4 = true →
    zeroFrom r 3 18 = true →
    rf r 3 0 18 < (jobOf s (reqJob r)).nRoles →
    tileOfRole (reqJob r) (rf r 3 0 18) s = some t →
      exec (.jobTallyRead r) s = Answers r .ok ((List.range 64).map (fun k => tget 0 (tileOf s t).tallies k)) s)

/-- What the placement commands do when they complete. PLACE_JOB is stated for a job whose steps of R241 all
succeed, and for the transit ledger alone, whose entry leaves or comes; REGION_MOVE for a destination that is
free. The zero response words and the job 0 of event 0x3020 of a ledger-only PLACE_JOB, and an import counted as
a pin in REGION_QUERY, are the model's choices (log 43). -/
def Obligations.PlacementCommands : Prop :=
  (∀ (r : Req) (s : State),
    Asked 0x0301 8 r s →
    jobIs declStatus r s = true →
    (∀ x, regionOf (reqJob r) (rf r 3 0 16) s = some x → regionHeld x = false) →
    declOk r s = true →
    ((regionOf (reqJob r) (rf r 3 0 16) s).isSome ∨ regionCount s < 65536) →
      exec (.regionDeclare r) s = Answers r .ok []
        (modJob (reqJob r) (fun x => { x with placed := false })
          (setRegion (reqJob r) (rf r 3 0 16)
            (some { size := declSize r, kind := rf r 6 0 2, view := rf r 6 2 3, movable := rb r 6 5, home := rf r 7 0 16 })
            (if (rmLookup (reqJob r) (rf r 3 0 16) s).isSome then rmMod (reqJob r) (rf r 3 0 16) (fun _ => {}) s else s)))) ∧
  (∀ (r : Req) (s : State),
    Asked 0x0302 6 r s →
    jobIs declStatus r s = true →
    (∀ k ∈ declRoles r, roleHeld (jobOf s (reqJob r)) k = false) →
    zeroFrom r 2 4 = true →
    zeroFrom r 3 18 = true →
    zeroFrom r 4 18 = true →
    zeroFrom r 5 16 = true →
    rf r 3 0 18 ≤ rf r 4 0 18 →
    rf r 4 0 18 < (jobOf s (reqJob r)).nRoles →
      exec (.roleDeclare r) s = Answers r .ok []
        (modJob (reqJob r) (fun x => { x with
          homes := (rf r 3 0 18, rf r 4 0 18, rf r 5 0 16) :: x.homes
          roles := x.roles.filter (fun p => !(declRoles r).contains p.1)
          placed := false }) s)) ∧
  (∀ (r : Req) (s : State) (x : Region),
    Asked 0x0303 8 r s →
    jobIs [.free] r s = false →
    pinFields r = true →
    regionOf (reqJob r) (rf r 3 0 16) s = some x →
    rf r 4 0 2 ≠ 2 →
    x.base = none →
    pinOk (reqJob r) (rf r 3 0 16) x (pinOf r) s = true →
    pinFree (reqJob r) x (pinOf r) s = true →
      exec (.regionPin r) s = Answers r .ok [] (setRegion (reqJob r) (rf r 3 0 16) (some { x with pin := pinOf r }) s)) ∧
  (∀ (r : Req) (s : State) (x : Region),
    Asked 0x0303 8 r s →
    jobIs [.free] r s = false →
    pinFields r = true →
    regionOf (reqJob r) (rf r 3 0 16) s = some x →
    rf r 4 0 2 = 2 →
    importOk x (pinAddr r 6) = true →
      exec (.regionPin r) s = Answers r .ok []
        (rmMod (reqJob r) (rf r 3 0 16) (fun _ => importEntry (reqJob r) (rf r 3 0 16) x (pinAddr r 6))
          (setRegion (reqJob r) (rf r 3 0 16) (some { x with imported := some (pinAddr r 6) }) s))) ∧
  (∀ (r : Req) (s : State),
    Asked 0x0304 6 r s →
    jobIs [.free] r s = false →
    (roleEnt (jobOf s (reqJob r)) (rf r 3 0 18)).bound = none →
    rolePinOk r s = true →
    (rf r 5 0 16 ≠ ownId s ∨ (tileOf s (rf r 4 0 6)).job = none ∨ (tileOf s (rf r 4 0 6)).job = some (reqJob r)) →
    ((roleEnt (jobOf s (reqJob r)) (rf r 3 0 18)).pin.isSome ∨ roleCount s < 65536) →
      exec (.rolePin r) s = Answers r .ok []
        (modJob (reqJob r) (fun x => { x with
          roles := tset {} x.roles (rf r 3 0 18) { roleEnt x (rf r 3 0 18) with pin := some (rf r 4 0 6) } }) s)) ∧
  (∀ (r : Req) (s t m : State) (regions : Nat),
    Asked 0x0305 12 r s →
    operating s = true →
    jobIs declStatus r s = true →
    rb r 2 4 = false →
    rb r 2 5 = false →
    zeroFrom r 2 19 = true →
    rw r 3 = 0 →
    1 ≤ rf r 2 6 13 →
    rf r 2 6 13 ≤ 4096 →
    bulkOk r 4 = true →
    idBytes (rf r 2 6 13) ≤ bulkLen r 4 →
    zeroWords r 8 11 = true →
    dmaGood r 0 = true →
    listOk r (reqJob r) false s = true →
    (∀ k, k < (jobOf s (reqJob r)).nRoles → (homeOf (jobOf s (reqJob r)) k).isSome) →
    placeSteps (reqJob r) (idsOf (rf r 2 6 13) (bulkBytes r 0 4)) s = .ok t →
    (m = modJob (reqJob r) (fun x => { x with placed := true, modules := idsOf (rf r 2 6 13) (bulkBytes r 0 4) }) t) →
    (regions = ((jobOf m (reqJob r)).regions.filter (fun e => match e.2 with | some g => g.base.isSome | none => false)).length) →
    mayRun s = true →
      exec (.placeJob r) s = Answers r .ok [0, word (roleTiles (reqJob r) m).length, word regions, word (rolesOpen (jobOf m (reqJob r)) (raise 0x3020 1 [word (reqJob r), (jobOf m (reqJob r)).tag,
          word (roleTiles (reqJob r) m).length, word regions, word (tilesOf (reqJob r) m).length] m)),
          word (regionsOpen (jobOf m (reqJob r))), 0]
        (imageJob (reqJob r) (raise 0x3020 1 [word (reqJob r), (jobOf m (reqJob r)).tag,
          word (roleTiles (reqJob r) m).length, word regions, word (tilesOf (reqJob r) m).length] m))) ∧
  (∀ (r : Req) (s : State),
    Asked 0x0305 12 r s →
    operating s = true →
    rb r 2 4 = true →
    reqJob r = 0 →
    zeroFrom r 2 19 = true →
    1 ≤ rf r 2 6 13 →
    rf r 2 6 13 ≤ 4096 →
    bulkOk r 4 = true →
    idBytes (rf r 2 6 13) ≤ bulkLen r 4 →
    zeroWords r 8 11 = true →
    dmaGood r 0 = true →
    listOk r 0 true s = true →
    rb r 2 5 = true →
    mayRun s = true →
      exec (.placeJob r) s = Answers r .ok [0, 0, 0, 0, 0, 0]
        (raise 0x3020 1 [0, rw r 3, 0, 0, 0]
          { s with place := { s.place with ledger := s.place.ledger.filter (fun e => e.2 ≠ rw r 3) } })) ∧
  (∀ (r : Req) (s : State) (p : PathSet) (new : List Nat),
    Asked 0x0305 12 r s →
    operating s = true →
    rb r 2 4 = true →
    reqJob r = 0 →
    zeroFrom r 2 19 = true →
    1 ≤ rf r 2 6 13 →
    rf r 2 6 13 ≤ 4096 →
    bulkOk r 4 = true →
    idBytes (rf r 2 6 13) ≤ bulkLen r 4 →
    zeroWords r 8 11 = true →
    dmaGood r 0 = true →
    listOk r 0 true s = true →
    rb r 2 5 = false →
    mayRun s = true →
    p = pathSet (idsOf (rf r 2 6 13) (bulkBytes r 0 4)) s →
    p.bad = none →
    (new = p.ports.filter (fun q => !s.place.ledger.contains (q, rw r 3))) →
    (∀ q ∈ new, (ledgerOf q s).length < 4) →
      exec (.placeJob r) s = Answers r .ok [0, 0, 0, 0, 0, 0]
        (raise 0x3020 1 [0, rw r 3, 0, 0, 0]
          { s with place.ledger :=
              s.place.ledger.filter (fun e => e.2 ≠ rw r 3 || p.ports.contains e.1) ++ new.map (fun q => (q, rw r 3)) })) ∧
  (∀ (r : Req) (s : State) (x : Region),
    Asked 0x0306 4 r s →
    jobIs [.free] r s = false →
    zeroFrom r 2 4 = true →
    zeroFrom r 3 16 = true →
    regionOf (reqJob r) (rf r 3 0 16) s = some x →
      exec (.regionQuery r) s = Answers r .ok
        ((match rmLookup (reqJob r) (rf r 3 0 16) s with
          | some e => rmWords e
          | none => List.replicate 8 0) ++
         [word (b2n (x.pin ≠ .none || x.imported.isSome) + 2 * b2n (x.base.isSome || x.imported.isSome)
           + 4 * ((rmIndex (reqJob r) (rf r 3 0 16) s).getD 0))]) s) ∧
  (∀ (r : Req) (s : State) (h : Nat) (e : RoleEnt) (tile : Option Nat),
    Asked 0x0307 4 r s →
    jobIs [.free] r s = false →
    zeroFrom r 2 4 = true →
    zeroFrom r 3 18 = true →
    rf r 3 0 18 < (jobOf s (reqJob r)).nRoles →
    homeOf (jobOf s (reqJob r)) (rf r 3 0 18) = some h →
    e = roleEnt (jobOf s (reqJob r)) (rf r 3 0 18) →
    (tile = if h = ownId s then e.bound else e.pin) →
      exec (.roleQuery r) s = Answers r .ok [word (h + 65536 * tile.getD 0 + 2 ^ 22 * b2n (h = ownId s) + 2 ^ 23 * b2n tile.isSome
          + 2 ^ 24 * b2n e.pin.isSome)] s) ∧
  (∀ (r : Req) (s : State) (x : Region) (old : Nat) (e : RmEntry) (new : Nat),
    Asked 0x0308 7 r s →
    operating s = true →
    s.place.move = none →
    regionOf (reqJob r) (rf r 3 0 16) s = some x →
    x.kind ≠ 3 →
    x.base = some old →
    rmLookup (reqJob r) (rf r 3 0 16) s = some e →
    e.lost = false →
    e.move = 0 →
    zeroFrom r 2 4 = true →
    zeroFrom r 3 16 = true →
    zeroFrom r 4 8 = true →
    rf r 4 0 2 ≠ 3 →
    (rf r 4 0 2 = 2 ∨ rf r 4 2 6 = 0) →
    inRoleTile x s = false →
    moveOk r (reqJob r) (rf r 3 0 16) x s = true →
    moveChoice r (reqJob r) x s = some new →
      exec (.regionMove r) s = Answers r .accepted [] (moveStart (reqJob r) (rf r 3 0 16) old new x.size s))

/-- What the fabric commands do when they complete. A ROUTE_LOAD is stated for a table that R269 does not refuse. -/
def Obligations.FabricCommands : Prop :=
  (∀ (r : Req) (s : State) (t e : Nat),
    Asked 0x0401 9 r s →
    (operating s = false ∨ anyDefined s = false ∨ (rf r 2 0 16 = s.glb.moduleId.toNat ∧ planSize r = s.fabric.size ∧ planCoords r = s.fabric.coords)) →
    planOk r = true →
    t = rf r 7 0 17 →
    e = rf r 8 0 17 →
      exec (.fabricPlanLoad r) s = Answers r .ok []
        (evalUnits 0 (regrace (List.range 22) { s with
          glb.moduleId := BitVec.ofNat 16 (rf r 2 0 16), glb.moduleIdValid := true, fabric.planLoaded := true, fabric.size := planSize r, fabric.coords := planCoords r, fabric.planned := BitVec.ofNat 6 (rf r 3 10 6), fabric.nb := (List.range 6).foldl (fun t p => tset 0 t p (planNb r p)) [], fabric.torusUs := if t = 0 then 2000 else t, fabric.eyeletUs := if e = 0 then 20000 else e }))) ∧
  (∀ (r : Req) (s : State) (new : List (Nat × DWord)) (table : Tbl DWord),
    Asked 0x0403 7 r s →
    s.fabric.planLoaded = true →
    zeroFrom r 2 25 = true →
    1 ≤ rf r 2 12 13 →
    rf r 2 12 13 ≤ 4096 →
    rf r 2 0 12 + rf r 2 12 13 ≤ 4096 →
    bulkOk r 3 = true →
    bulkLen r 3 = 8 * rf r 2 12 13 →
    dmaGood r 0 = true →
    new = loadEntries (rf r 2 0 12) (bytesWords (bulkBytes r 0 3)) →
    (table = new.foldl (fun t e => tset 0 t e.1 e.2) s.fabric.routes) →
    firstRefused new table s = none →
      exec (.routeLoad r) s = Answers r .ok [] { s with fabric.routes := table }) ∧
  (∀ (r : Req) (s : State) (x : Eyelet),
    Asked 0x0404 5 r s →
    s.fabric.planLoaded = true →
    eyeletOk r s = true →
    rb r 2 4 = false →
    eyeletOf s (rf r 2 0 4) = none →
    x = { lanes := rw r 3, farModule := rf r 4 0 16, farEyelet := rf r 4 16 4 } →
      exec (.eyeletDefine r) s = Answers r .ok []
        (evalUnit 0 (6 + rf r 2 0 4) (regrace [6 + rf r 2 0 4] (moveLanes 0 x.lanes
          { s with fabric.eyelets := tset none s.fabric.eyelets (rf r 2 0 4) (some x) })))) ∧
  (∀ (r : Req) (s : State) (x : Eyelet),
    Asked 0x0404 5 r s →
    s.fabric.planLoaded = true →
    eyeletOk r s = true →
    rb r 2 4 = true →
    eyeletOf s (rf r 2 0 4) = some x →
      exec (.eyeletDefine r) s = Answers r .ok []
        (evalUnit 0 (6 + rf r 2 0 4) (regrace [6 + rf r 2 0 4] (moveLanes x.lanes 0
          { flushQueue (6 + rf r 2 0 4) s with
            fabric.eyelets := tset none (flushQueue (6 + rf r 2 0 4) s).fabric.eyelets (rf r 2 0 4) none })))) ∧
  (∀ (r : Req) (s : State),
    Asked 0x0405 4 r s →
    zeroFrom r 2 5 = true →
    (rf r 2 0 5 < 22 ∨ rf r 2 0 5 = 31) →
    (∀ w ∈ weightsOf r, w ≠ 0) →
    rf r 3 0 8 ≤ rf r 3 8 8 →
      exec (.classWeights r) s = Answers r .ok []
        (forAll (if rf r 2 0 5 = 31 then List.range 22 else [rf r 2 0 5])
          (fun u s => modUnit u (fun x => { x with weights := weightsOf r }) s) s)) ∧
  (∀ (r : Req) (s : State),
    Asked 0x0402 2 r s →
      exec (.fabricStatus r) s = Answers r .ok
        (word (b2n s.fabric.planLoaded + 2 * b2n (s.fabric.units.any (fun x => x.2.missing)) + 4 * b2n (laneOut s)
            + 8 * bitsNat ((List.range 6).map (fun p => (unitOf s p).state = 1))) ::
          ((List.range 6).map (fun p => word ((unitOf s p).state + 16 * lanesInService p s
              + 2 ^ 12 * (ledgerOf p s).length + 65536 * seenId p s))
            ++ (List.range 16).flatMap (fun e =>
              [word ((unitOf s (6 + e)).state
                  + 8 * (if unitHears (6 + e) s then ((unitOf s (6 + e)).seenUnit + 10) % 16 else 0)
                  + 65536 * seenId (6 + e) s), word (lanesInService (6 + e) s)])
            ++ (List.range 6).flatMap (fun p => padTo 0 4 (ledgerOf p s)))) s) ∧
  (∀ (r : Req) (s : State),
    Asked 0x0406 3 r s →
    zeroFrom r 2 6 = true →
    rf r 2 0 5 = 22 →
      exec (.fabricCounters r) s = Answers r .ok
        ([0, 1, 2, 3, 4, 17, 18, 19, 20].map (fun k => tget 0 s.stitch.counts k) ++ [word s.stitch.peak])
        (if rb r 2 5 then { s with stitch.peak := sharedHeld s } else s)) ∧
  (∀ (r : Req) (s : State),
    Asked 0x0406 3 r s →
    zeroFrom r 2 6 = true →
    rf r 2 0 5 < 22 →
      exec (.fabricCounters r) s = Answers r .ok
        ((List.range 7).map (fun k => tget 0 (unitOf s (rf r 2 0 5)).counts k)
          ++ [word ((unitOf s (rf r 2 0 5)).bytesSent / 1048576)]) s)

/-- What the Welt commands do when they complete. Cause 0 of event 0x5007 for a WELT_POWER off (log 26) and the
predicted lock time and the rounding of the heater power of LACE_PLAN_COMPILE (log 22) are the model's choices. -/
def Obligations.WeltCommands : Prop :=
  (∀ (r : Req) (s : State) (l : List PlanLace) (a : Tbl (Option Lace)) (g : BitVec 16) (b : Tbl (Option Lace)) (t : List (Nat × Nat)) (data : List Byte),
    Asked 0x0501 12 r s →
    zeroFrom r 2 2 = true →
    zeroFrom r 3 9 = true →
    1 ≤ rf r 3 0 9 →
    rf r 3 0 9 ≤ 160 →
    bulkOk r 4 = true →
    bulkLen r 4 = 8 * rf r 3 0 9 →
    bulkOk r 8 = true →
    5120 ≤ bulkLen r 8 →
    dmaGood r 0 = true →
    dmaGood r 1 = true →
    readPlan (bytesWords (bulkBytes r 0 4)) 0 [] = .ok l →
    comparedBank s = (a, g) →
    compile (rb r 2 0) l a = .ok b →
    t = touchedList a b →
    data = wordsBytes (t.flatMap (touchWords a b)) →
      exec (.lacePlanCompile r) s = .next (complete r false .ok
        [word (laceCount b + 512 * t.length), g.setWidth 32, word 0x1FF,
         word (Config.predictedUs ((bankCells b).map (·.1)) % 65536 + 65536 * (heaterDw b s % 65536))]
        (if data.isEmpty then [] else [(bulkAddr r 8, data)])
        (if rb r 2 1 then
            raise 0x5001 1 [g.setWidth 32, word (laceCount b), word t.length, word (b2n (rb r 2 0))]
              (loadShadow b (rb r 2 0) s)
          else s))) ∧
  (∀ (r : Req) (s : State) (b : Tbl (Option Lace)),
    Asked 0x0502 7 r s →
    zeroFrom r 2 1 = true →
    zeroWords r 3 6 = true →
    (b = if rb r 2 0 then s.welt.shadow else s.welt.active) →
      exec (.laceBankQuery r) s = Answers r .ok
        [word (laceCount b + 65536 * s.welt.activeGen.toNat),
         word ((if rb r 2 0 then s.welt.baseGen.toNat else 0)
           + 65536 * bitsNat [s.welt.loaded, s.welt.keep, s.welt.baseGen ≠ s.welt.activeGen]),
         s.welt.lastT, word (s.welt.lastLock + 65536 * s.welt.lastTouched),
         word (lacesIn .unlocked s + 512 * lacesIn .dark s), word (b2n s.welt.powered)] s) ∧
  (∀ (r : Req) (s : State) (b : Tbl (Option Lace)),
    Asked 0x0502 7 r s →
    zeroFrom r 2 1 = true →
    zeroWords r 3 6 = false →
    bulkOk r 3 = true →
    2560 ≤ bulkLen r 3 →
    dmaGood r 0 = true →
    (b = if rb r 2 0 then s.welt.shadow else s.welt.active) →
      exec (.laceBankQuery r) s = .next (complete r false .ok
        [word (laceCount b + 65536 * s.welt.activeGen.toNat),
         word ((if rb r 2 0 then s.welt.baseGen.toNat else 0)
           + 65536 * bitsNat [s.welt.loaded, s.welt.keep, s.welt.baseGen ≠ s.welt.activeGen]),
         s.welt.lastT, word (s.welt.lastLock + 65536 * s.welt.lastTouched),
         word (lacesIn .unlocked s + 512 * lacesIn .dark s), word (b2n s.welt.powered)]
        [(bulkAddr r 3, wordsBytes ((List.range 320).flatMap (fun i => laceWords i (laceOf b i))))] s)) ∧
  (∀ (r : Req) (s : State),
    Asked 0x0503 3 r s →
    zeroFrom r 2 16 = true →
    1 ≤ rf r 2 9 7 →
    rf r 2 9 7 ≤ 64 →
    rf r 2 0 9 + rf r 2 9 7 ≤ 320 →
      exec (.laceStatus r) s = Answers r .ok ((List.range (rf r 2 9 7)).flatMap (fun k => laceStatusWords s (rf r 2 0 9 + k))) s) ∧
  (∀ (r : Req) (s : State),
    Asked 0x0504 3 r s →
    zeroFrom r 2 1 = true →
    rb r 2 0 = true →
    s.glb.weltKilled = false →
    s.power.failing = false →
      exec (.weltPower r) s = Answers r .ok [] (weltOn 0 s)) ∧
  (∀ (r : Req) (s : State),
    Asked 0x0504 3 r s →
    zeroFrom r 2 1 = true →
    rb r 2 0 = false →
      exec (.weltPower r) s = Answers r .ok [] (weltDark 0 s)) ∧
  (∀ (r : Req) (s : State) (f : Option Force),
    Asked 0x0505 4 r s →
    s.glb.maint = true →
    s.welt.powered = true →
    zeroFrom r 2 14 = true →
    zeroFrom r 3 16 = true →
    rf r 2 0 12 ≤ 3839 →
    (rf r 2 12 2 = 3 ∨ rf r 3 0 16 = 0) →
    (f = if rf r 2 12 2 = 0 then none else some { mode := rf r 2 12 2, drive := rf r 3 0 16 : Force }) →
      exec (.weltForce r) s = Answers r .ok []
        (raise 0x5008 1 [word (rf r 2 0 12), word (rf r 2 12 2)]
          { s with welt.forces := tset none s.welt.forces (rf r 2 0 12) f }))

/-- What the Shank commands do when they complete, with the Welt powered and unpowered. Event 0x5015 as SHANK_LIMITS
is taken, though the limits apply at a sample (log 31), and event 0x5014 once for both planes of SHANK_RATE (log
28) are the model's choices. -/
def Obligations.ShankCommands : Prop :=
  (∀ (r : Req) (s t : State),
    Asked 0x0601 19 r s →
    zeroFrom r 2 1 = true →
    zeroFrom r 11 8 = true →
    zeroFrom r 18 16 = true →
    coefOk (coefOf r) = true →
    t = setPlane (rf r 2 0 1) { planeOf s (rf r 2 0 1) with pending := some (coefOf r) } s →
      exec (.shankCoefLoad r) s = Answers r .ok [] (if s.welt.powered then t else firstLoad (rf r 2 0 1) t)) ∧
  (∀ (r : Req) (s : State),
    Asked 0x0602 3 r s →
    (planeOf s (rf r 2 0 1)).pending.isSome →
    (planeOf s (rf r 2 0 1)).active.isSome →
    zeroFrom r 2 1 = true →
    s.welt.powered = false →
      exec (.shankCoefSwap r) s = Answers r .ok [s.tmu.ns] (offlineNow (rf r 2 0 1) (setPlane (rf r 2 0 1) { planeOf s (rf r 2 0 1) with swapDue := true } s))) ∧
  (∀ (r : Req) (s t : State),
    Asked 0x0602 3 r s →
    (planeOf s (rf r 2 0 1)).pending.isSome →
    (planeOf s (rf r 2 0 1)).active.isSome →
    zeroFrom r 2 1 = true →
    s.welt.powered = true →
    t = setPlane (rf r 2 0 1) { planeOf s (rf r 2 0 1) with swapDue := true } s →
      exec (.shankCoefSwap r) s = .next { t with mbx := { t.mbx with
        started := t.mbx.started ++ [⟨0x0602, r, t.mbx.orders, 0⟩], orders := t.mbx.orders + 1 } }) ∧
  (∀ (r : Req) (s t : State),
    Asked 0x0603 6 r s →
    zeroFrom r 2 1 = true →
    within (limitsOf r).pCell 1 40 = true →
    qi 1 ≤ (limitsOf r).pPlane →
    (limitsOf r).pPlane ≤ 0x4CCCCD →
    within (limitsOf r).tLim 20 95 = true →
    t = setPlane (rf r 2 0 1) { planeOf s (rf r 2 0 1) with limitsDue := some (limitsOf r) } s →
      exec (.shankLimits r) s = Answers r .ok []
        (raise 0x5015 1 [word (rf r 2 0 1), rw r 3, rw r 4, rw r 5]
          (if s.welt.powered then t else applyLimits (rf r 2 0 1) t))) ∧
  (∀ (r : Req) (s : State),
    Asked 0x0604 3 r s →
    zeroFrom r 2 18 = true →
    25000 ≤ ratePeriod r →
    ratePeriod r ≤ 200000 →
    ratePeriod r % 1000 = 0 →
    s.welt.powered = false →
      exec (.shankRate r) s = Answers r .ok []
        (rateChange 1 (rateChange 0
          (forAll [0, 1] (fun p s => setPlane p { planeOf s p with rateDue := some (ratePeriod r) } s) s)))) ∧
  (∀ (r : Req) (s t : State),
    Asked 0x0604 3 r s →
    zeroFrom r 2 18 = true →
    25000 ≤ ratePeriod r →
    ratePeriod r ≤ 200000 →
    ratePeriod r % 1000 = 0 →
    s.welt.powered = true →
    (t = forAll [0, 1] (fun p s => setPlane p { planeOf s p with rateDue := some (ratePeriod r) } s) s) →
      exec (.shankRate r) s = .next { t with mbx := { t.mbx with
        started := t.mbx.started ++ [⟨0x0604, r, t.mbx.orders, 0⟩], orders := t.mbx.orders + 1 } }) ∧
  (∀ (r : Req) (s : State) (x : Plane) (count : (Cell → Bool) → Nat),
    Asked 0x0605 3 r s →
    zeroFrom r 2 14 = true →
    rb r 2 1 = false →
    x = planeOf s (rf r 2 0 1) →
    (count = fun f => ((usedCells (rf r 2 0 1) s).filter (fun i => f (cellOf s i))).length) →
      exec (.shankStatus r) s = Answers r .ok
        ([word ((match x.active with | some c => c.setTag | none => 0)
            + 65536 * bitsNat [x.active.isSome, x.pending.isSome, x.limits.isSome || x.limitsDue.isSome]),
          x.ts, word (count (·.sat) + 65536 * count (·.stale)), word (x.wonB + 65536 * x.wonD), x.heater,
          qWord x.tp, qWord x.vd, qWord x.h, word x.nOver] ++ List.replicate 9 0) s) ∧
  (∀ (r : Req) (s : State) (x : Plane) (count : (Cell → Bool) → Nat),
    Asked 0x0605 3 r s →
    zeroFrom r 2 14 = true →
    rb r 2 1 = true →
    rf r 2 2 12 / 1920 = rf r 2 0 1 →
    x = planeOf s (rf r 2 0 1) →
    (count = fun f => ((usedCells (rf r 2 0 1) s).filter (fun i => f (cellOf s i))).length) →
      exec (.shankStatus r) s = Answers r .ok
        ([word ((match x.active with | some c => c.setTag | none => 0)
            + 65536 * bitsNat [x.active.isSome, x.pending.isSome, x.limits.isSome || x.limitsDue.isSome]),
          x.ts, word (count (·.sat) + 65536 * count (·.stale)), word (x.wonB + 65536 * x.wonD), x.heater,
          qWord x.tp, qWord x.vd, qWord x.h, word x.nOver] ++ cellWords (cellOf s (rf r 2 2 12))) s)

/-- What the calibration and monitor commands do when they complete. -/
def Obligations.CalibrationCommands : Prop :=
  (∀ (r : Req) (s : State),
    Asked 0x0701 3 r s →
    calBusy s = false →
    zeroFrom r 2 6 = true →
    rf r 2 0 6 ≠ 0 →
      exec (.calRun r) s = Answers r .accepted [] (startRun (rf r 2 0 6) .command s)) ∧
  (∀ (r : Req) (s : State) (version : Option Nat),
    Asked 0x0702 2 r s →
    (version = match s.mon.current with
      | some n => (tget none s.mon.slots n).map CalRec.version
      | none => none) →
      exec (.calStatus r) s = Answers r .ok
        [word (s.mon.running + 64 * b2n s.mon.deferred.isSome + 256 * s.mon.lastMask + 65536 * s.mon.failed
           + 2 ^ 24 * b2n s.mon.current.isNone),
         s.mon.count, s.mon.opsec, s.mon.pcycle.setWidth 32, word (version.getD 0), qWord (largestDrift s),
         sword (s.mon.bg1 - s.mon.bg0), word (s.mon.stale.filter (·.2)).length] s) ∧
  (∀ (r : Req) (s : State),
    Asked 0x0703 3 r s →
    zeroFrom r 2 24 = true →
    rf r 2 0 3 ≤ 5 →
    1 ≤ rf r 2 16 8 →
    rf r 2 3 13 + rf r 2 16 8 ≤ kindCount (rf r 2 0 3) →
      exec (.monitorRead r) s = Answers r .ok ((List.range (rf r 2 16 8)).flatMap (fun k =>
          [qWord (monitorValue (rf r 2 0 3) (rf r 2 3 13 + k) s),
           word (b2n (isStale (rf r 2 0 3) (rf r 2 3 13 + k) s) + 2 * b2n (slewing (rf r 2 0 3) (rf r 2 3 13 + k) s))])) s)

/-- What the schedule and time commands do when they complete. -/
def Obligations.ScheduleCommands : Prop :=
  (∀ (r : Req) (s : State) (i : Nat) (t : State),
    Asked 0x0801 5 r s →
    zeroFrom r 2 5 = true →
    (rf r 2 0 4 = 1 ∨ rf r 2 0 4 = 5) →
    leadOk (rw r 3) (if rf r 2 0 4 = 1 then 1000000 else 100000) s = true →
    takeIndex s = some i →
    t = armAt i (rf r 2 0 4) (rw r 3) (rb r 2 4) 0 (rw r 4) s →
      exec (.schedArm r) s = Answers r .accepted
        [word ((schedOf t i).seq.toNat + 65536 * i), word ((schedOf t i).instant >>> 32).toNat] t) ∧
  (∀ (r : Req) (s : State) (i : Nat) (e : Entry),
    Asked 0x0802 3 r s →
    zeroFrom r 2 16 = true →
    namedEntry r s = some (i, e) →
    e.st = .armed →
    e.action ≠ 3 →
      exec (.schedDisarm r) s = Answers r .ok [] (disarmed i e s)) ∧
  (∀ (r : Req) (s : State),
    Asked 0x0803 3 r s →
    rf r 2 1 15 = 0 →
    rb r 2 0 = true →
      exec (.schedQuery r) s = Answers r .ok
        (word (s.sched.fired.length + 128 * b2n s.sched.overflow) :: seqWords s.sched.fired)
        { s with sched.fired := [], sched.overflow := false }) ∧
  (∀ (r : Req) (s : State) (i : Nat) (e : Entry),
    Asked 0x0803 3 r s →
    rf r 2 1 15 = 0 →
    rb r 2 0 = false →
    findSeq (BitVec.ofNat 16 (rf r 2 16 16)) s = some (i, e) →
      exec (.schedQuery r) s = Answers r .ok
        (entRecord e ++ [word ((s.sched.entries.filter (fun p => p.2.st = .armed)).length
          + 65536 * (1024 - (s.sched.entries.filter (fun p => entHolds p.2 s)).length))]) s) ∧
  (∀ (r : Req) (s t : State),
    Asked 0x0804 5 r s →
    zeroFrom r 2 6 = true →
    zeroFrom r 4 16 = true →
    (rb r 2 2 = false ∨ rf r 2 0 2 = 1) →
    rb r 4 8 = false →
    (t = if rf r 2 0 2 = s.tpm.speed then s else portLink false s) →
      exec (.timePortConfig r) s = Answers r .ok [word (b2n (t.tpm.linkUp && t.tpm.cage) + 2 * rf r 2 0 2)]
        { t with
          tpm.speed := rf r 2 0 2, tpm.autoneg := rb r 2 2, tpm.ptpMcast := rb r 2 3, tpm.allMcast := rb r 2 4, tpm.promisc := rb r 2 5, tpm.mac := (rw r 4).setWidth 16 ++ rw r 3 }) ∧
  (∀ (r : Req) (s : State) (t : Tmu),
    Asked 0x0805 7 r s →
    zeroFrom r 2 4 = true →
    zeroFrom r 6 20 = true →
    rb r 2 3 = false →
    rw r 4 = 0 →
    rw r 5 = 0 →
    rf r 6 0 20 ≤ 500000 →
    (t = { s.tmu with
        inEn := rb r 2 0, inFall := rb r 2 1, outEn := rb r 2 2
        enabledAt := if rb r 2 0 && !s.tmu.inEn then s.clk else s.tmu.enabledAt
        lostTold := if rb r 2 0 && !s.tmu.inEn then false else s.tmu.lostTold
        inDelay := BitVec.ofNat 16 (rf r 3 0 16), outDelay := BitVec.ofNat 16 (rf r 3 16 16)
        widthUs := if rf r 6 0 20 = 0 then 100000 else rf r 6 0 20 }) →
      exec (.ppsConfig r) s = Answers r .ok [] { s with tmu := { t with ppsGiven := some (lastDue { s with tmu := t }) } })

/-- What the resilience commands do when they complete. That EPOCH_CONFIG with enable 0 stores its other settings
(log 46), and that a store takes the lowest free number, one for a source (log 47), are the model's choices; so
is a restore that begins with a read of the header of the store (log 47). -/
def Obligations.ResilienceCommands : Prop :=
  (∀ (r : Req) (s t : State),
    Asked 0x0901 7 r s →
    zeroFrom r 2 1 = true →
    zeroFrom r 3 11 = true →
    zeroFrom r 6 16 = true →
    50 ≤ reqPeriod r →
    reqPeriod r ≤ 2000 →
    rb r 2 0 = false →
    rw r 4 = 0 →
    t = disarmBoundary s →
      exec (.epochConfig r) s = Answers r .ok []
        (joinMask t.resil.jobMask (rw r 6)
          { t with resil.enabled := false, resil.periodMs := reqPeriod r, resil.first := rw r 5 })) ∧
  (∀ (r : Req) (s t : State) (i : Nat) (u v : State),
    Asked 0x0901 7 r s →
    zeroFrom r 2 1 = true →
    zeroFrom r 3 11 = true →
    zeroFrom r 6 16 = true →
    50 ≤ reqPeriod r →
    reqPeriod r ≤ 2000 →
    rb r 2 0 = true →
    s.resil.buddy.isSome →
    t = disarmBoundary s →
    leadOk (rw r 4) 1000000 t = true →
    takeIndex t = some i →
    u = armAt i 3 (rw r 4) false 0 0 t →
    v = joinMask u.resil.jobMask (rw r 6)
      { u with resil.enabled := true, resil.periodMs := reqPeriod r, resil.first := rw r 5 } →
      exec (.epochConfig r) s = Answers r .accepted [(schedOf u i).seq.setWidth 32]
        { v with resil.origin := (schedOf u i).instant, resil.armed := some (rw r 5, i), resil.untaken := 0 }) ∧
  (∀ (r : Req) (s : State) (h : List Byte),
    Asked 0x0902 7 r s →
    rf r 2 0 2 = 0 →
    buddyHeader r s = some h →
    buddyArgs r s = true →
      exec (.buddySet r) s = Answers r .ok [] (setBuddy (rf r 3 0 16) h (leNat ((dmaOf r 1).getD [])) s)) ∧
  (∀ (r : Req) (s : State) (k off total : Nat) (x : Store) (t u : State),
    Asked 0x0902 7 r s →
    rf r 2 0 2 = 1 →
    buddyArgs r s = true →
    storeNo (rf r 3 0 16) s = none →
    ((List.range 4).find? (fun k => (tget none s.resil.stores k).isNone) = some k) →
    total = storeBytes (defaultView s) (reqJournal r) (reqImage r) →
    freeView (defaultView s) (viewPages (defaultView s) total) s = some off →
    x = { source := rf r 3 0 16, base := off, view := defaultView s, image := reqImage r, journal := reqJournal r } →
    t = (extentOf off total s).own (storeOwner k) s →
    u = hdrPut x 0 [0x53544F52, word (rf r 3 0 16 + 65536 * defaultView s), word (reqJournal r),
      word (reqImage r % 2 ^ 32), word (reqImage r / 2 ^ 32), noIndex, noIndex, 0, 0, 0, noIndex]
      (storePut true x 0 emptyTable
        { t with resil := { t.resil with stores := tset none t.resil.stores k (some x) } }) →
      exec (.buddySet r) s = Answers r .ok [word (ownPga 0 off u % 2 ^ 32), word (ownPga 0 off u / 2 ^ 32)]
        (raise 0x8015 1 (word (rf r 3 0 16) :: dwords total) u)) ∧
  (∀ (r : Req) (s : State),
    Asked 0x0902 7 r s →
    rf r 2 0 2 = 2 →
    buddyArgs r s = true →
      exec (.buddySet r) s = Answers r .ok [] (freeStore (rf r 3 0 16) s)) ∧
  (∀ (r : Req) (s : State),
    Asked 0x0902 7 r s →
    rf r 2 0 2 = 3 →
    buddyArgs r s = true →
      exec (.buddySet r) s = Answers r .ok [] { restoreCut (copyFail 3 0 s) with resil.buddy := none, resil.image := [], resil.fullDue := true }) ∧
  (∀ (r : Req) (s : State) (ids : List Nat),
    Asked 0x0903 8 r s →
    hbOk r = true →
    ids = (if rf r 3 0 7 = 0 then [] else idsOf (rf r 3 0 7) (bulkBytes r 0 4)) →
    (rf r 3 0 7 = 0 ∨ dmaGood r 0 = true) →
    ids.eraseDups.length = rf r 3 0 7 →
    ownId s ∉ ids →
    0xFFFF ∉ ids →
      exec (.heartbeatConfig r) s = Answers r .ok []
        { s with resil.hbUs := reqHbUs r, resil.miss := reqMiss r, resil.peers := ids.map (fun m => { id := m, lastAt := s.clk }) }) ∧
  (∀ (r : Req) (s : State) (k : Nat) (x : Store) (l : List TableRow) (w : State),
    Asked 0x0904 6 r s →
    recoverState r s = true →
    s.resil.restore = none →
    recoverArgs r s = true →
    rb r 2 0 = false →
    storeNo (rf r 3 0 16) s = some k →
    tget none s.resil.stores k = some x →
    l = storeRegions x (rw r 5) (some (rw r 4)) s →
    (∀ e ∈ l, (regionOf (rf r 2 1 4) e.region s).bind (·.base) = none) →
    storeGood x 0 tableBytes s = true →
    storePromotable x (rw r 5) (rw r 4) s = true →
    w = storeRead x 0 tableBytes s →
      exec (.recoverPromote r) s = match bringTo x (rw r 4) w with
        | .error t => .next (deliver recoverPromoteCmd r (recoverFailed r t))
        | .ok (c, u) => match formDirectory (rf r 2 1 4) (forAll l (promoteRegion k (rf r 2 1 4) x) u) with
          | .error _ => Answers r .noResource [] w
          | .ok v => Answers r .ok [word l.length, word (c * 4096 / 2 ^ 20)]
              (raise 0x8012 1 [word (rf r 3 0 16), word (rf r 2 1 4), rw r 4, word l.length]
                { v with resil.stores := tset none v.resil.stores k (some { x with sealAt := none }) })) ∧
  (∀ (r : Req) (s u t : State),
    Asked 0x0904 6 r s →
    recoverState r s = true →
    s.resil.restore = none →
    recoverArgs r s = true →
    rb r 2 0 = true →
    u = restoreStart s →
    t = restoreAsk { u with resil.restore := some {
      job := rf r 2 1 4, index := rw r 4, older := decide (rw r 4 = u.resil.sealedOld), newest := u.resil.sealedNew, half := u.resil.halfNew, todo := [(0, Config.stagingPa u.stitch.issued 0, 64)] } } →
      exec (.recoverPromote r) s = .next { t with mbx := { t.mbx with
        started := t.mbx.started ++ [⟨0x0904, r, t.mbx.orders, 0⟩], orders := t.mbx.orders + 1 } }) ∧
  (∀ (r : Req) (s : State) (full : Bool) (waits : Nat) (lost : List Bool),
    Asked 0x0905 2 r s →
    (full = match s.resil.copy with
      | some c => c.full
      | none => false) →
    (waits = match s.resil.copy with
      | some c => c.pages.length
      | none => s.resil.carried.length) →
    lost = s.resil.peers.map (·.lost) →
      exec (.resilienceStatus r) s = Answers r .ok
        ([word (bitsNat [s.resil.enabled, s.resil.copy.isSome, full, s.resil.peers.any (·.lost)]),
          word (s.resil.periodMs + 65536 * field s.resil.jobMask 0 16), s.resil.taken, s.resil.sealedNew,
          s.resil.sealedOld, word (s.resil.buddy.getD 0 + 65536 * b2n s.resil.buddy.isSome), word s.resil.heldMax,
          word waits, s.resil.untaken, word (bitsNat (lost.take 32)), word (bitsNat (lost.drop 32))]
          ++ (List.range 4).flatMap (fun k => storeWords k s))
        (useFresh 1 (forAll (List.range 4) readSeals { s with resil.heldMax := 0 })))

/-- What the recorder commands do when they complete. A LOG_READ is stated where some record is found or no chunk is
bad. -/
def Obligations.RecorderCommands : Prop :=
  (∀ (r : Req) (s : State) (xs got : List Seen) (nxt : Word) (data : List Byte) (gap : Bool),
    Asked 0x0A01 8 r s →
    zeroFrom r 3 4 = true →
    rf r 3 0 3 ≤ 4 →
    bulkOk r 4 = true →
    1024 ≤ bulkLen r 4 →
    dmaGood r 0 = true →
    (xs = (allSeen s.fw.logVersion s.log).filter (fun x => (rw r 2).toNat ≤ x.record.seq.toNat)) →
    (xs ≠ [] ∨ badChunks s.log = 0) →
    takeSeen (rf r 3 0 3) (rb r 3 3) (bulkLen r 4) xs (rw r 2) = (got, nxt) →
    (data = got.flatMap (fun x => recBytes x.converted x.record)) →
    (gap = match xs with
      | x :: _ => decide (max (rw r 2).toNat 1 < x.record.seq.toNat) ||
        missingSeq nxt.toNat (max (rw r 2).toNat 1) xs
      | [] => decide (max (rw r 2).toNat 1 ≤ s.log.seqNew.toNat)) →
      exec (.logRead r) s = .next (complete r false .ok
        [word got.length, word data.length, match got with
          | x :: _ => x.record.seq
          | [] => noSeq, nxt, oldestToe s.log, s.log.seqNew, word (min (badChunks s.log) 65535 + 65536 * b2n gap)]
        (if data.isEmpty then [] else [(bulkAddr r 4, data)]) s)) ∧
  (∀ (r : Req) (s : State) (q : Word) (t : State),
    Asked 0x0A02 3 r s →
    rf r 2 1 7 = 0 →
    zeroFrom r 2 16 = true →
    rb r 2 0 = true →
    s.log.frozen = none →
    q = s.log.seqNew →
    (t = { s with log.frozen := some q, log.freezeTold := false, log.freezeStart := s.clk, log.freezeSecs := if rf r 2 8 8 = 0 then 30 else rf r 2 8 8 }) →
      exec (.logFreeze r) s = Answers r .ok [q] (checkFreeze (raise 0xA006 0 [q, 0] t))) ∧
  (∀ (r : Req) (s : State) (q : Word),
    Asked 0x0A02 3 r s →
    rf r 2 1 7 = 0 →
    zeroFrom r 2 16 = true →
    rb r 2 0 = true →
    s.log.frozen = some q →
      exec (.logFreeze r) s = Answers r .ok [q] { s with log.freezeStart := s.clk, log.freezeSecs := if rf r 2 8 8 = 0 then 30 else rf r 2 8 8 }) ∧
  (∀ (r : Req) (s : State),
    Asked 0x0A02 3 r s →
    rf r 2 1 7 = 0 →
    zeroFrom r 2 16 = true →
    rb r 2 0 = false →
    rf r 2 8 8 = 0 →
      exec (.logFreeze r) s = Answers r .ok [noSeq] (thaw 1 s)) ∧
  (∀ (r : Req) (s : State) (data : List Byte),
    Asked 0x0A03 6 r s →
    bulkOk r 2 = true →
    65536 ≤ bulkLen r 2 →
    dmaGood r 0 = true →
    data = s.log.lastgasp.flatMap (recBytes false) →
      exec (.logLastgaspRead r) s = .next (complete r false .ok [word s.log.lastgasp.length, word data.length]
        (if data.isEmpty then [] else [(bulkAddr r 2, data)]) s)) ∧
  (∀ (r : Req) (s : State),
    Asked 0x0A04 3 r s →
    rf r 2 0 2 = 0 →
    rf r 2 20 2 = 0 →
    zeroFrom r 2 24 = true →
    (∀ g ∈ List.range 12, rf r 2 (2 * g) 2 ≠ 3) →
    rw r 2 ≠ s.log.filter →
      exec (.logFilter r) s = Answers r .ok [] (raise 0xA00A 1 [rw r 2] { s with log.filter := rw r 2 })) ∧
  (∀ (r : Req) (s : State),
    Asked 0x0A04 3 r s →
    rf r 2 0 2 = 0 →
    rf r 2 20 2 = 0 →
    zeroFrom r 2 24 = true →
    (∀ g ∈ List.range 12, rf r 2 (2 * g) 2 ≠ 3) →
    rw r 2 = s.log.filter →
      exec (.logFilter r) s = Answers r .ok [] s)

/-- What the firmware update commands do: a delivery begins, a block is stored, the image is verified, an activation
is armed, the staging state is reported, a delivery is ended. A header, a block or an image that fails its check
gives the status and event of its rule; the cryptographic primitives are constants without a body (log 8), so
each case is stated as the check gives it. The result and fail_block codes of event 0x9003 (log 17) and the
header fields 0 of FW_STATUS while staging is Empty (log 18) are the model's choices. -/
def Obligations.FirmwareCommands : Prop :=
  (∀ (r : Req) (s : State) (h : List Byte),
    Asked 0x0B01 6 r s →
    s.fw.staging ≠ .armed →
    bulkOk r 2 = true →
    bulkLen r 2 = 4096 →
    (otherAgent r s = false ∨ (s.fw.staging ≠ .receiving ∧ s.fw.staging ≠ .verifying)) →
    dmaGood r 0 = true →
    r.env.mediaOk = true →
    h = bulkBytes r 0 2 →
      exec (.fwBegin r) s = match deliveryRefused h s with
        | some n => Answers r (reasonStatus n) [word n]
            (raise 0x9001 2 [word (b2n (bySvc r)), word n, word (hdrSvn h), hdrVersion h] { s with fw.reason := n })
        | none => Answers r .ok []
            { s with fw.staging := .receiving, fw.bySvc := bySvc r, fw.stored := [], fw.staged := { header := h, tags := [], blocks := s.fw.staged.blocks } }) ∧
  (∀ (r : Req) (s : State) (i : Nat) (ct tag : List Byte) (stored : List Nat),
    Asked 0x0B02 11 r s →
    s.fw.staging = .receiving →
    zeroFrom r 2 9 = true →
    i = rf r 2 0 9 →
    i < hdrBlocks s.fw.staged.header →
    bulkOk r 7 = true →
    bulkLen r 7 = 65536 →
    otherAgent r s = false →
    dmaGood r 0 = true →
    r.env.mediaOk = true →
    ct = bulkBytes r 0 7 →
    tag = wordsBytes [rw r 3, rw r 4, rw r 5, rw r 6] →
    stored = (if s.fw.stored.contains i then s.fw.stored else s.fw.stored ++ [i]) →
      exec (.fwBlock r) s = match openBlock s.fw.staged.header i ct tag with
        | none => Answers r .authFail []
            (raise 0x9002 2 [word (b2n (bySvc r)), word i] { s with fw.reason := 8, fw.failBlock := i })
        | some _ => Answers r .ok [word (hdrBlocks s.fw.staged.header - stored.length)]
            { s with fw.stored := stored, fw.staged := { s.fw.staged with tags := tset [] s.fw.staged.tags i tag, blocks := tset [] s.fw.staged.blocks i ct } }) ∧
  (∀ (r : Req) (s : State),
    Asked 0x0B03 2 r s →
    s.fw.staging = .receiving →
    firstMissing s = none →
    otherAgent r s = false →
    r.env.mediaOk = true →
      exec (.fwVerify r) s = match verifyImage s.fw.staged with
        | none => Answers r .ok [] (raise 0x9003 1 [0, hdrVersion s.fw.staged.header, 0] { s with fw.staging := .verified })
        | some i => Answers r .authFail [word i]
            (raise 0x9003 1 [1, hdrVersion s.fw.staged.header, word i]
              { s with fw.staging := .failed, fw.reason := 9, fw.failBlock := i })) ∧
  (∀ (r : Req) (s : State) (i : Nat) (t : State),
    Asked 0x0B04 3 r s →
    s.fw.staging = .verified →
    (bySvc r = false ∨ s.fw.bySvc = true) →
    leadOk (rw r 2) 100000000 s = true →
    takeIndex s = some i →
    t = armAt i 4 (rw r 2) false 0 0 s →
      exec (.fwArm r) s = Answers r .accepted [(schedOf t i).seq.setWidth 32]
        (activationEvent i true { t with fw.staging := .armed, fw.armedEntry := some i })) ∧
  (∀ (r : Req) (s : State) (h : List Byte) (e : Option Entry),
    Asked 0x0B05 2 r s →
    h = (if s.fw.staging = .empty then [] else s.fw.staged.header) →
    e = s.fw.armedEntry.map (schedOf s) →
      exec (.fwStatus r) s = Answers r .ok
        [word (stagingCode s.fw.staging + 8 * b2n s.fw.bySvc + 16 * b2n s.fw.session.isSome),
         word (s.fw.stored.length + 65536 * hdrBlocks h), hdrVersion h, word (hdrSvn h + 256 * (64 - s.glb.svn.toNat)),
         (match e with | some x => x.seq.setWidth 32 | none => 0),
         (match e with | some x => x.instant.setWidth 32 | none => 0),
         word (s.fw.reason + 65536 * s.fw.failBlock)] s) ∧
  (∀ (r : Req) (s t : State),
    Asked 0x0B06 2 r s →
    activationFiring s = false →
    (bySvc r = false ∨ s.fw.bySvc = true ∨ s.fw.staging = .empty) →
    (t = match s.fw.armedEntry with
      | some i => fwDisarmed i .empty (disarmEntry i s)
      | none => s) →
      exec (.fwAbort r) s = Answers r .ok [] { t with fw.staging := .empty, fw.stored := [] })

/-- What the identity commands do when they complete. The bytes of a certificate, a signature and a nonce are
constants without a body (logs 8 and 9). The grant buffer of 3,384 bytes and the free cause of event 0x9015 are
the model's choices (log 20). -/
def Obligations.IdentityCommands : Prop :=
  (∀ (r : Req) (s : State),
    Asked 0x0C01 7 r s →
    zeroFrom r 2 1 = true →
    bulkOk r 3 = true →
    8192 ≤ bulkLen r 3 →
    r.env.mediaOk = true →
    dmaGood r 0 = true →
      exec (.idCertRead r) s = .next (complete r false .ok [word (certificate (rb r 2 0) s.glb.serial).length]
        [(bulkAddr r 3, certificate (rb r 2 0) s.glb.serial)] s)) ∧
  (∀ (r : Req) (s : State),
    Asked 0x0C02 22 r s →
    bulkOk r 18 = true →
    3696 ≤ bulkLen r 18 →
    dmaGood r 0 = true →
      exec (.attestReport r) s = .next (complete r false .ok [3693]
        [(bulkAddr r 18, report (wordsBytes ((List.range 16).map (fun i => rw r (2 + i)))) s)] s)) ∧
  (∀ (r : Req) (s : State),
    Asked 0x0C03 7 r s →
    zeroFrom r 2 2 = true →
    rb r 2 1 = true →
    zeroWords r 3 6 = true →
      exec (.svcTokenKey r) s = Answers r .ok []
        (closeSession 4 (raise 0x9013 1 [word (rf r 2 0 1), 0]
          { s with fw.keys := tset none s.fw.keys (rf r 2 0 1) none }))) ∧
  (∀ (r : Req) (s : State),
    Asked 0x0C03 7 r s →
    zeroFrom r 2 2 = true →
    rb r 2 1 = false →
    bulkOk r 3 = true →
    bulkLen r 3 = 1952 →
    dmaGood r 0 = true →
      exec (.svcTokenKey r) s = Answers r .ok []
        (closeSession 4 (raise 0x9013 1 [word (rf r 2 0 1), 1]
          { s with fw.keys := tset none s.fw.keys (rf r 2 0 1) (some (bulkBytes r 0 3)) }))) ∧
  (∀ (r : Req) (s : State) (n : List Byte),
    Asked 0x0C04 7 r s →
    s.glb.maint = true →
    zeroFrom r 2 1 = true →
    bulkOk r 3 = true →
    rb r 2 0 = false →
    64 ≤ bulkLen r 3 →
    dmaGood r 0 = true →
    n = (List.range 64).map (Config.nonceByte s.fresh) →
      exec (.testUnlock r) s = .next (complete r false .ok [] [(bulkAddr r 3, n)] (useFresh 1 { s with fw.nonce := some (n, s.clk) }))) ∧
  (∀ (r : Req) (s : State) (n : List Byte) (t : State),
    Asked 0x0C04 7 r s →
    s.glb.maint = true →
    zeroFrom r 2 1 = true →
    bulkOk r 3 = true →
    rb r 2 0 = true →
    bulkLen r 3 = 3384 →
    dmaGood r 0 = true →
    validNonce s = some n →
    t = { s with fw.nonce := none } →
      exec (.testUnlock r) s = if grantOk (bulkBytes r 0 3) n t then
          Answers r .ok [] (raise 0x9014 2 (dwords s.glb.serial.toNat) { t with fw.unlocked := true })
        else Answers r .authFail [] (raise 0x9015 2 [word (Config.freeNat s.fresh)] (useFresh 1 t)))

/-- R38 and R42: rings and done bits, slot by slot, in ascending slot number (R39); and the read of MBX_ERR (R37).
The condition code of event 0xB002 (log 13) and the message dropped with the last done bit of its vector (log 4)
are the model's choices. -/
def Obligations.SlotRegisters : Prop :=
  (∀ (hi : Bool) (v : Word) (s : State),
    reachable s = true →
      exec (.mbxRingWrite hi v) s = .next (forAll (namedSlots hi v) ringSlot s)) ∧
  (∀ (n : Nat) (s : State),
    (slotOf s n).cond = .free →
      ringSlot n s = { setSlot n { slotOf s n with cond := .pending, after := s.bar2.writes } s with
        mbx := { (setSlot n { slotOf s n with cond := .pending, after := s.bar2.writes } s).mbx with
          rung := s.mbx.rung ++ [n] } }) ∧
  (∀ (n : Nat) (s : State),
    (slotOf s n).cond ≠ .free →
      ringSlot n s = raise 0xB002 2 [word n, word (condCode (slotOf s n).cond)]
        { s with mbx := { s.mbx with
            badRings := if s.mbx.badRings = 0xFFFF then 0xFFFF else s.mbx.badRings + 1 } }) ∧
  (∀ (hi : Bool) (v : Word) (s : State),
    reachable s = true →
      exec (.mbxDoneWrite hi v) s = .next (forAll (namedSlots hi v) freeSlot s)) ∧
  (∀ (n : Nat) (s : State),
    (slotOf s n).cond = .done →
      freeSlot n s = dropPending n (setSlot n { slotOf s n with cond := .free } s)) ∧
  (∀ (n : Nat) (s : State),
    (slotOf s n).cond ≠ .done →
      freeSlot n s = s) ∧
  (∀ (s : State),
    reachable s = true →
      exec (.mbxErrRead) s = .next (emit (.regValue 0x10020 (s.mbx.badRings.setWidth 32)) { s with mbx.badRings := 0 }))

/-- R39 and R43: SLOT_TAKE on a module that serves, with slot n rung first, when the command may start and when it
must wait. -/
def Obligations.SlotTaken : Prop :=
  (∀ (env : Env) (s : State) (n : Fin 64) (rest : List Nat) (x : Slot) (r : Req) (t u : State),
    serving s = true →
    s.mbx.rung = n.val :: rest →
    x = slotOf s n.val →
    r = requestOf (.slot n) (tget 0 x.req 0) (tget 0 x.req 1) (tget 0 x.req) env →
    t = setSlot n.val { x with cond := .busy } s →
    u = { t with mbx := { t.mbx with rung := rest, orders := s.mbx.orders + 1 } } →
    mayStart ⟨(tget 0 x.req 0).setWidth 16, r, s.mbx.orders, x.after⟩ u = true →
      exec (.slotTake env) s = .next (runTaken ⟨(tget 0 x.req 0).setWidth 16, r, s.mbx.orders, x.after⟩ u)) ∧
  (∀ (env : Env) (s : State) (n : Fin 64) (rest : List Nat) (x : Slot) (r : Req) (t u : State),
    serving s = true →
    s.mbx.rung = n.val :: rest →
    x = slotOf s n.val →
    r = requestOf (.slot n) (tget 0 x.req 0) (tget 0 x.req 1) (tget 0 x.req) env →
    t = setSlot n.val { x with cond := .busy } s →
    u = { t with mbx := { t.mbx with rung := rest, orders := s.mbx.orders + 1 } } →
    mayStart ⟨(tget 0 x.req 0).setWidth 16, r, s.mbx.orders, x.after⟩ u = false →
      exec (.slotTake env) s = .next { u with mbx := { u.mbx with
        waiting := u.mbx.waiting ++ [⟨(tget 0 x.req 0).setWidth 16, r, s.mbx.orders, x.after⟩] } })

/-- R40 and R29: a completed slot is Done and holds the response; the frame of every completion is the mailbox, the
interrupts and the outputs. -/
def Obligations.CommandCompletion : Prop :=
  (∀ (r : Req) (n : Fin 64) (now : Bool) (st : Status) (ws : List Word) (bulk : List (Nat × List Byte)) (s : State),
    r.via = .slot n →
      (slotOf (complete r now st ws bulk s) n.val).cond = .done ∧
      (slotOf (complete r now st ws bulk s) n.val).req = (slotOf s n.val).req ∧
      (∀ i, i < (responseWords r st ws).length →
        tget 0 (slotOf (complete r now st ws bulk s) n.val).resp i = nth 0 (responseWords r st ws) i) ∧
      (∀ m, m ≠ n.val → slotOf (complete r now st ws bulk s) m = slotOf s m)) ∧
  (∀ (r : Req) (now : Bool) (st : Status) (ws : List Word) (bulk : List (Nat × List Byte)) (s : State),
      ∃ slots irq out, complete r now st ws bulk s = { s with mbx := { s.mbx with slots := slots }, irq := irq, out := out })

/-- R20, R48 and R49: the commands of the interrupt block and of the power states of the function. -/
def Obligations.InterruptCommands : Prop :=
  (∀ (v : Word) (s : State),
    reachable s = true →
      exec (.irqMaskWrite v) s = .next (forAll (List.range 8) (fun k => sendOwed k (bit (v.setWidth 8) k)) { s with irq.mask := v.setWidth 8 })) ∧
  (∀ (v : Word) (s : State),
    reachable s = true →
      exec (.irqJobMaskWrite v) s = .next (forAll (List.range 16) (fun k => sendOwed (8 + k) (bit (v.setWidth 16) k)) { s with irq.jobMask := v.setWidth 16 })) ∧
  (∀ (k : Fin 32) (s : State) (g : Gap),
    Alive s →
    g = tget {} s.irq.gaps (32 + k.val) →
    g.isOpen = true →
    ticksUs g.us ≤ since g.since s →
    g.owed = true →
      exec (.coalesceGapEnd k) s = .next (sendSlotVector (32 + k.val) s)) ∧
  (∀ (k : Fin 32) (s : State) (g : Gap),
    Alive s →
    g = tget {} s.irq.gaps (32 + k.val) →
    g.isOpen = true →
    ticksUs g.us ≤ since g.since s →
    g.owed = false →
      exec (.coalesceGapEnd k) s = .next { s with irq.gaps := tset {} s.irq.gaps (32 + k.val) {} }) ∧
  (∀ (s : State),
    Alive s →
      exec (.d3hotEntry) s = .next { s with irq.d3hot := true }) ∧
  (∀ (v : Nat) (s : State),
    v < 8 →
    bit s.irq.cause v = false →
      setCause v s =
        (if bit s.irq.mask v then
          { s with irq := { s.irq with cause := s.irq.cause ||| BitVec.ofNat 8 (2 ^ v), owed := s.irq.owed ||| BitVec.ofNat 24 (2 ^ v) } }
        else sendMsix v { s with irq := { s.irq with cause := s.irq.cause ||| BitVec.ofNat 8 (2 ^ v) } })) ∧
  (∀ (j : Nat) (s : State),
    j < 16 →
    bit s.irq.jobCause j = false →
      setJobCause j s =
        (if bit s.irq.jobMask j then
          { s with irq := { s.irq with jobCause := s.irq.jobCause ||| BitVec.ofNat 16 (2 ^ j), owed := s.irq.owed ||| BitVec.ofNat 24 (2 ^ (8 + j)) } }
        else sendMsix (8 + j) { s with irq := { s.irq with jobCause := s.irq.jobCause ||| BitVec.ofNat 16 (2 ^ j) } })) ∧
  (∀ (v : Nat) (s : State),
      (bit s.irq.cause v = true → setCause v s = s) ∧ (bit s.irq.jobCause v = true → setJobCause v s = s)) ∧
  (∀ (v : Nat) (e : MsixEntry) (s : State),
    v < 64 →
    e = tget {} s.irq.msix v →
    s.irq.d3hot = false →
      sendMsix v s =
        (if bit e.ctrl 0 = true ∨ s.irq.fnMask = true then { s with irq := { s.irq with pba := s.irq.pba ||| BitVec.ofNat 64 (2 ^ v) } }
        else emit (.msix v (e.addrHi ++ e.addrLo) e.data) s)) ∧
  (∀ (v : Nat) (s : State),
    s.irq.d3hot = true →
      sendMsix v s = { s with irq.held := s.irq.held ++ [v] }) ∧
  (∀ (s : State),
    Alive s →
      exec (.d0Return) s = .next (forAll s.irq.held sendMsix { s with irq.d3hot := false, irq.held := [] })) ∧
  (∀ (s : State),
    answersBar s = false →
      reachable s = false)

/-- R7, R8, R23 to R28, R37, R47, R353, R364, R412, R414, R417 and R418: REGISTER_WRITE and BAR0_BAD_ACCESS by
offset, and what registers read. That the second item of event 0xB001 is the width in bits is the model's
reading (log 63, DEDUCED). -/
def Obligations.RegisterWrites : Prop :=
  (∀ (off : BitVec 26) (v : DWord) (s : State),
    answersBar s = true →
    off.toNat % 4 = 0 →
      exec (.registerWrite off v false) s = .next (wordWrite off.toNat (v.setWidth 32) s)) ∧
  (∀ (off : BitVec 26) (v : DWord) (s : State),
    answersBar s = true →
    inSlots off.toNat = true →
    off.toNat % 8 = 0 →
      exec (.registerWrite off v true) s = .next (wordWrite (off.toNat + 4) ((v >>> 32).setWidth 32) (wordWrite off.toNat (v.setWidth 32) s))) ∧
  (∀ (v : Word) (s : State),
      wordWrite 0x34 v s = { s with glb := { s.glb with scratch := v } }) ∧
  (∀ (off : Nat) (v : Word) (s : State),
    reachable s = false →
    off ≠ 0x34 →
      wordWrite off v s = s) ∧
  (∀ (v : Word) (s : State),
    reachable s = true →
      (wordWrite 0x20000 v s).irq.cause = s.irq.cause &&& ~~~(v.setWidth 8) ∧
      (wordWrite 0x20004 v s).irq.jobCause = s.irq.jobCause &&& ~~~(v.setWidth 16) ∧
      wordWrite 0x20010 v s = { s with irq := { s.irq with evtLevel := v.setWidth 3 } } ∧
      wordWrite 0x20014 v s = { s with irq := { s.irq with coalesce := v.setWidth 16 } }) ∧
  (∀ (off n i : Nat) (v : Word) (s : State),
    reachable s = true →
    n < 64 →
    i < 512 →
    off = 0x100000 + 4096 * n + 4 * i →
      wordWrite off v s = setSlot n { slotOf s n with req := tset 0 (slotOf s n).req i v } s) ∧
  (∀ (off n i : Nat) (v : Word) (s : State),
    reachable s = true →
    n < 64 →
    i < 512 →
    off = 0x100000 + 4096 * n + 2048 + 4 * i →
      wordWrite off v s = s) ∧
  (∀ (v : Word) (s : State),
    reachable s = true →
      wordWrite 0x30010 v s = { s with tmu := { s.tmu with status := s.tmu.status &&& ~~~(v.setWidth 8) } } ∧
      wordWrite 0x3002C v s = { s with tmu := { s.tmu with irqEn := (v >>> 1).setWidth 7 } } ∧
      wordWrite 0x50000 v s = { s with log := { s.log with
        freezeDone := s.log.freezeDone && !bit v 4, threshBit := s.log.threshBit && !bit v 5 } } ∧
      wordWrite 0x5000C v s = { s with log := { s.log with thresh := field v 0 19 } } ∧
      wordWrite 0x6000C v s = { s with tpm := { s.tpm with rx := { s.tpm.rx with tail := field v 0 12 } } }) ∧
  (∀ (v : Word) (s : State),
    reachable s = true →
      (s.tpm.rx.size = 0 → field v 0 6 = 0 →
        wordWrite 0x60000 v s = { s with tpm := { s.tpm with rx := { s.tpm.rx with baseLo := v } } }) ∧
      (s.tpm.rx.size = 0 → wordWrite 0x60004 v s = { s with tpm := { s.tpm with rx := { s.tpm.rx with baseHi := v } } }) ∧
      (s.tpm.rx.size ≠ 0 → field v 0 6 = 0 → wordWrite 0x60000 v s = s) ∧ (s.tpm.rx.size ≠ 0 → wordWrite 0x60004 v s = s) ∧
      (s.tpm.tx.size = 0 → field v 0 6 = 0 →
        wordWrite 0x60020 v s = { s with tpm := { s.tpm with tx := { s.tpm.tx with baseLo := v } } }) ∧
      (s.tpm.tx.size = 0 → wordWrite 0x60024 v s = { s with tpm := { s.tpm with tx := { s.tpm.tx with baseHi := v } } }) ∧
      (s.tpm.tx.size ≠ 0 → field v 0 6 = 0 → wordWrite 0x60020 v s = s) ∧ (s.tpm.tx.size ≠ 0 → wordWrite 0x60024 v s = s)) ∧
  (∀ (off n o : Nat) (v : Word) (s : State),
    reachable s = true →
    n < 8 →
    o < 0x100 →
    o % 4 = 0 →
    (o ≤ 0x30 ∨ (0x40 ≤ o ∧ o < 0x50)) →
    off = 0x40000 + 0x100 * n + o →
      wordWrite off v s = setCvu n
        (if (cvuOf s n).queue.length < 16 then { cvuOf s n with queue := (cvuOf s n).queue ++ [{ off := o, value := v }] }
         else { cvuOf s n with overrun := true }) s) ∧
  (∀ (v : Word) (u : Cvu),
      cvuEffect ⟨0x04, v⟩ u = { u with poly := v } ∧ cvuEffect ⟨0x08, v⟩ u = { u with init := v } ∧
      cvuEffect ⟨0x0C, v⟩ u = { u with xorout := v } ∧ cvuEffect ⟨0x20, v⟩ u = { u with state := v } ∧
      cvuEffect ⟨0x28, v⟩ u = { u with expect := v } ∧
      cvuEffect ⟨0x2C, v⟩ u = { u with mismatch := u.mismatch && !bit v 2, overrun := u.overrun && !bit v 3, cfgErr := u.cfgErr && !bit v 4 } ∧
      (∀ k, k < 4 → cvuEffect ⟨0x40 + 4 * k, v⟩ u = { u with pfx := tset 0 u.pfx k v })) ∧
  (∀ (off n k : Nat) (v : Word) (e : MsixEntry) (s t : State),
    reachable s = true →
    n < 64 →
    k < 4 →
    off = 0x21000 + 16 * n + 4 * k →
    (e = (if k = 0 then { tget {} s.irq.msix n with addrLo := v } else if k = 1 then { tget {} s.irq.msix n with addrHi := v } else if k = 2 then { tget {} s.irq.msix n with data := v } else { tget {} s.irq.msix n with ctrl := v &&& 1 })) →
    t = { s with irq := { s.irq with msix := tset {} s.irq.msix n e } } →
      wordWrite off v s =
        (if bit s.irq.pba n = true ∧ bit e.ctrl 0 = false ∧ s.irq.fnMask = false then
          sendMsix n { t with irq := { t.irq with pba := t.irq.pba &&& ~~~(BitVec.ofNat 64 (2 ^ n)) } }
        else t)) ∧
  (∀ (s : State),
      (answersBar s = false → ∀ off, registerRead off s = none) ∧
      (answersBar s = true → reachable s = false → ∀ off, 0x10000 ≤ off → registerRead off s = some 0) ∧
      (answersBar s = true → ∀ off, off < 0x10000 →
        off ∉ [0x00, 0x04, 0x08, 0x0C, 0x10, 0x14, 0x18, 0x20, 0x24, 0x28, 0x2C, 0x30, 0x34] → registerRead off s = some 0) ∧
      (reachable s = true → ∀ off, 0x70000 ≤ off → inSlots off = false → registerRead off s = some 0)) ∧
  (∀ (hi : Bool) (k : Nat) (s : State),
    reachable s = true →
    k < 32 →
      ((registerRead (0x10008 + 4 * b2n hi) s).map (fun w => bit w k) =
          some (decide ((slotOf s (32 * b2n hi + k)).cond = .pending))) ∧
      ((registerRead (0x10010 + 4 * b2n hi) s).map (fun w => bit w k) =
          some (decide ((slotOf s (32 * b2n hi + k)).cond = .busy))) ∧
      ((registerRead (0x10018 + 4 * b2n hi) s).map (fun w => bit w k) =
          some (decide ((slotOf s (32 * b2n hi + k)).cond = .done)))) ∧
  (∀ (s : State),
    answersBar s = true →
      registerRead 0x20 s = some (word (stateCode s.glb.state + 2 ^ 4 * s.glb.prev.toNat + 2 ^ 8 * b2n s.glb.maint
          + 2 ^ 9 * b2n s.log.mediaFail + 2 ^ 10 * b2n (s.mon.stale.any (·.2)) + 2 ^ 11 * b2n s.glb.holdover
          + 2 ^ 12 * b2n (s.power.eclk < 2200) + 2 ^ 13 * b2n s.fw.armedEntry.isSome + 2 ^ 24 * s.glb.seq.toNat)) ∧
      registerRead 0x24 s = some (s.glb.cause.setWidth 32) ∧ registerRead 0x28 s = some s.glb.opsec ∧
      registerRead 0x2C s = some (s.glb.pcycle.setWidth 32) ∧ registerRead 0x30 s = some s.glb.heartbeat ∧
      registerRead 0x34 s = some s.glb.scratch ∧ registerRead 0x08 s = some (s.glb.serial.setWidth 32) ∧
      registerRead 0x0C s = some ((s.glb.serial >>> 32).setWidth 32)) ∧
  (∀ (n : Nat) (u : Cvu) (s : State),
    reachable s = true →
    n < 8 →
    u = cvuOf (cvuSettled n s) n →
      registerRead (0x40000 + 0x100 * n + 0x24) s = some u.result ∧
      registerRead (0x40000 + 0x100 * n + 0x2C) s = some (word (bitsNat [false, u.matched, u.mismatch, u.overrun, u.cfgErr, u.checked]))) ∧
  (∀ (s : State),
    reachable s = true →
      registerRead 0x30010 s = some (word (s.tmu.status.toNat / 2 * 2 + b2n s.tmu.holdover))) ∧
  (∀ (off : Nat) (s : State) (lo hi : Word),
    goodAccess off 8 = true →
    registerRead off s = some lo →
    registerRead (off + 4) s = some hi →
      bar0Read off 8 s = some (hi ++ lo)) ∧
  (∀ (off width : Nat) (s : State),
    goodAccess off width = false →
      bar0Read off width s = none) ∧
  (∀ (off : BitVec 26) (width : Nat) (s : State),
    reachable s = true →
    goodAccess off.toNat width = false →
      exec (.bar0BadAccess off width true) s = .next (raise 0xB001 2 [word off.toNat, word (8 * width)]
        (emit (.regValue off.toNat 0xFFFFFFFF) s))) ∧
  (∀ (off : BitVec 26) (width : Nat) (s : State),
    reachable s = true →
    goodAccess off.toNat width = false →
      exec (.bar0BadAccess off width false) s = .next (raise 0xB001 2 [word off.toNat, word (8 * width)] s))

/-- R26, R59, R60, R63, R251 and R380: BAR2_READ and BAR2_WRITE complete. The cause that a write to a mapped page
gives in Halted is free, and an access that crosses a 4 KiB boundary cannot come from the link (log 41): those
two clauses, and in the winHit clause the order of the causes and cause 1 for an access that begins in the
region and runs past its end (log 41), are the model's choices. A held write keeps the mapping that it met
(R62). -/
def Obligations.WindowAccesses : Prop :=
  (∀ (a : BitVec 34) (n : Nat) (fl : List Flaw) (s t : State) (p : Place0) (pa : Nat) (k : Nat × Nat),
    n ≠ 0 →
    a.toNat % 4096 + n ≤ 4096 →
    reachable s = true →
    t = inject fl s →
    winHit (a.toNat / 2 ^ 24) (a.toNat % 2 ^ 24) n false t = .at p pa k →
    hitUe p n t = false →
      exec (.bar2Read a n fl) s = .next (emit (.bar2Data (hitBytes p n t)) (hitTouch p n t))) ∧
  (∀ (a : BitVec 34) (n : Nat) (fl : List Flaw) (s t : State) (p : Place0) (pa : Nat) (k : Nat × Nat),
    n ≠ 0 →
    a.toNat % 4096 + n ≤ 4096 →
    reachable s = true →
    t = inject fl s →
    winHit (a.toNat / 2 ^ 24) (a.toNat % 2 ^ 24) n false t = .at p pa k →
    hitUe p n t = true →
      exec (.bar2Read a n fl) s = .next (emit (.bar2Data (allOnes n)) (winMiss (a.toNat / 2 ^ 24) (a.toNat % 2 ^ 24) false 4 (hitTouch p n t)))) ∧
  (∀ (a : BitVec 34) (n : Nat) (fl : List Flaw) (s t : State) (c : Nat),
    n ≠ 0 →
    a.toNat % 4096 + n ≤ 4096 →
    reachable s = true →
    t = inject fl s →
    winHit (a.toNat / 2 ^ 24) (a.toNat % 2 ^ 24) n false t = .no c →
      exec (.bar2Read a n fl) s = .next (emit (.bar2Data (allOnes n)) (winMiss (a.toNat / 2 ^ 24) (a.toNat % 2 ^ 24) false c t))) ∧
  (∀ (a : BitVec 34) (n : Nat) (fl : List Flaw) (s : State),
    n ≠ 0 →
    a.toNat % 4096 + n ≤ 4096 →
    answersBar s = true →
    serving s = false →
      exec (.bar2Read a n fl) s = .next (emit (.bar2Data (allOnes n)) s)) ∧
  (∀ (a : BitVec 34) (bs : List Byte) (fl : List Flaw) (s t : State) (p : Place0) (pa : Nat) (k : Nat × Nat),
    bs ≠ [] →
    a.toNat % 4096 + bs.length ≤ 4096 →
    reachable s = true →
    t = inject fl s →
    t.glb.state ≠ .halted →
    winHit (a.toNat / 2 ^ 24) (a.toNat % 2 ^ 24) bs.length true t = .at p pa k →
    draining k.1 k.2 t = false →
    hitWaits p t = false →
      exec (.bar2Write a bs fl) s = .next (hitWrite p bs (trackWrite pa bs.length t))) ∧
  (∀ (a : BitVec 34) (bs : List Byte) (fl : List Flaw) (s t : State) (p : Place0) (pa : Nat) (k : Nat × Nat),
    bs ≠ [] →
    a.toNat % 4096 + bs.length ≤ 4096 →
    reachable s = true →
    t = inject fl s →
    t.glb.state ≠ .halted →
    winHit (a.toNat / 2 ^ 24) (a.toNat % 2 ^ 24) bs.length true t = .at p pa k →
    (draining k.1 k.2 t = true ∨ hitWaits p t = true) →
      exec (.bar2Write a bs fl) s = .next { t with
        bar2.held := t.bar2.held ++ [{ page := a.toNat / 2 ^ 24, map := pageOf t (a.toNat / 2 ^ 24), off := a.toNat % 2 ^ 24, bytes := bs, wait := (waitPage p t).map (fun k => (k, t.clk)), no := t.bar2.writes + 1 }]
        bar2.writes := t.bar2.writes + 1 }) ∧
  (∀ (a : BitVec 34) (bs : List Byte) (fl : List Flaw) (s t : State) (c : Nat),
    bs ≠ [] →
    a.toNat % 4096 + bs.length ≤ 4096 →
    reachable s = true →
    t = inject fl s →
    winHit (a.toNat / 2 ^ 24) (a.toNat % 2 ^ 24) bs.length true t = .no c →
      exec (.bar2Write a bs fl) s = .next (winMiss (a.toNat / 2 ^ 24) (a.toNat % 2 ^ 24) true c t)) ∧
  (∀ (a : BitVec 34) (bs : List Byte) (fl : List Flaw) (s t : State) (p : Place0) (pa : Nat) (k : Nat × Nat),
    bs ≠ [] →
    a.toNat % 4096 + bs.length ≤ 4096 →
    reachable s = true →
    t = inject fl s →
    t.glb.state = .halted →
    winHit (a.toNat / 2 ^ 24) (a.toNat % 2 ^ 24) bs.length true t = .at p pa k →
      exec (.bar2Write a bs fl) s = .next (useFresh 1 (winMiss (a.toNat / 2 ^ 24) (a.toNat % 2 ^ 24) true (Config.freeNat t.fresh % 5) t))) ∧
  (∀ (a : BitVec 34) (bs : List Byte) (fl : List Flaw) (s : State),
    a.toNat % 4096 + bs.length ≤ 4096 →
    reachable s = false →
      exec (.bar2Write a bs fl) s = .next s) ∧
  (∀ (page off n : Nat) (write : Bool) (s : State),
    (pageOf s page).cond ≠ .mapped →
      winHit page off n write s = .no 0) ∧
  (∀ (page off n : Nat) (write : Bool) (s : State) (w : Window) (e : RmEntry),
    w = pageOf s page →
    w.cond = .mapped →
    rmLookup w.job w.region s = some e →
      (e.size < w.offset + off + n → winHit page off n write s = .no 1) ∧
      (w.offset + off + n ≤ e.size → (if write then w.wr else w.rd) = false → winHit page off n write s = .no 2) ∧
      (w.offset + off + n ≤ e.size → (if write then w.wr else w.rd) = true → e.lost = false → e.remote = false →
        winHit page off n write s = match heldPlace w.job (e.base + w.offset + off) n s with
          | some p => .at p (e.base + w.offset + off) (w.job, w.region)
          | none => .no 3)) ∧
  (∀ (a : BitVec 34) (n : Nat) (bs : List Byte) (fl : List Flaw) (s : State),
    4096 < a.toNat % 4096 + n →
    n = bs.length →
      exec (.bar2Read a n fl) s = .fault .illFormed ∧ exec (.bar2Write a bs fl) s = .fault .illFormed)

/-- R21, R454 and R456: what each reset reaches, and what it leaves. That the whole recorder and the count of down-
steps stay over a module reset, and that a host-link reset keeps the settings of TIME_PORT_CONFIG and raises no
event (log 49), the items of event 0xB007 and the slots of commands that it cuts off (log 50), and the empty
cage of the timing port (log 74) are the model's choices. -/
def Obligations.Resets : Prop :=
  (∀ (s : State),
    s.power.on = true →
      exec (.moduleReset) s = .next (moduleReset .module true s)) ∧
  (∀ (kind : ResetKind) (held : Bool) (s u t : State),
    u = releaseForces (weltDark 3 s) →
    t = moduleReset kind held s →
      t.mbx = {} ∧ t.irq = {} ∧ t.bar2 = {} ∧ t.sched = {} ∧ t.tpm = { cage := u.tpm.cage } ∧ t.cvus = [] ∧ t.jobs = [] ∧ t.tiles = [] ∧
      t.stitch = {} ∧ t.mem = {} ∧ t.place = {} ∧ t.fabric = {} ∧ t.welt = {} ∧ t.shank = {} ∧ t.resil = {} ∧
      t.glb = { svn := u.glb.svn, serial := u.glb.serial, dieRev := u.glb.dieRev, boardRev := u.glb.boardRev, opsec := u.glb.opsec, pcycle := u.glb.pcycle } ∧
      t.fw.area = u.fw.area ∧ t.fw.boot = u.fw.boot ∧ t.fw.trialStart = u.fw.trialStart ∧ t.mon.slots = u.mon.slots ∧
      t.log = u.log ∧ t.power.eclk = 2200 ∧ t.power.held = held ∧ t.power.stepsDown = u.power.stepsDown ∧
      t.tmu = { wdogStart := u.clk, holdoverSince := u.clk, enabledAt := u.clk } ∧
      t.mon = (match newestRecord u.mon with
        | some (n, r) => { useRecord r { slots := u.mon.slots } with current := some n }
        | none => match goodRecord u.mon 0 with
          | some r => useRecord r { slots := u.mon.slots }
          | none => { slots := u.mon.slots, failed := 63 })) ∧
  (∀ (s : State),
    s.power.on = true →
    s.power.held = true →
      exec (.modResetRelease) s = .next { s with
        power := { s.power with held := false }
        tmu := { s.tmu with wdogStart := s.clk, holdoverSince := s.clk, enabledAt := s.clk } }) ∧
  (∀ (s : State),
    s.power.on = false →
      exec (.powerOn) s = .next (powerOnReset s)) ∧
  (∀ (s : State),
      ∃ t, powerOnReset s = reportSlots t ∧ t.glb.pcycle = s.glb.pcycle + 1 ∧ t.glb.opsec = s.fw.opsecSaved ∧
      t.glb.state = .boot ∧ t.power = {} ∧ t.jobs = [] ∧ t.mem = {} ∧ t.mbx = {} ∧ t.log.flash = s.log.flash ∧ t.log.buf = [] ∧
      t.fw.area = s.fw.area ∧ t.fw.boot = s.fw.boot ∧ t.mon.slots = s.mon.slots ∧ t.glb.serial = s.glb.serial ∧
      t.glb.svn = s.glb.svn) ∧
  (∀ (s : State),
    Alive s →
      exec (.functionLevelReset) s = .next (raise 0xB007 1 [word s.mbx.rung.length, word (takenSlots s)] (linkReset s))) ∧
  (∀ (s : State),
      linkReset s = { s with
        mbx := { waiting := s.mbx.waiting.map discardTaken, started := s.mbx.started.map discardTaken, orders := s.mbx.orders }
        irq := {}, bar2 := {} }) ∧
  (∀ (s t : State),
    Alive s →
    t = linkReset s →
      exec (.hostLinkReset) s = .next { t with
        glb := { t.glb with scratch := 0 }, cvus := []
        tpm := { t.tpm with rx := {}, tx := {}, noDesc := 0, bad := 0 } }) ∧
  (∀ (s : State) (kind : ResetKind) (n : Nat) (rest : List (ResetKind × Nat)) (t : State),
    Alive s →
    s.power.resetDue = (kind, n) :: rest →
    ticksMs 1 ≤ since n s →
    t = { s with power := { s.power with resetDue := rest } } →
      exec (.resetDelayExpiry) s = .next (if kind = .hostLink then hostLinkReset t else moduleReset .module false t))

/-- R432 to R437 and R455: start-up. Whether the key and the image are good is left to constants without a body (log
8), so the start is stated as their check gives it. Cause 0 of the entries to Migrate and Configurable, and the
migration in two sends (log 52), and the sample of TMU_NS at the start of the image (log 70) are the model's
choices. -/
def Obligations.StartUp : Prop :=
  (∀ (s t : State),
    Alive s →
    s.glb.yarlerUp = false →
    (s.glb.state = .boot ∨ s.glb.state = .halted) →
    t = bootCopy s →
      exec (.bootRomStart) s = if !romKeyOk || s.fw.boot = .dead then .next (enterDead s)
        else if areaGood t then
          .next ((fun u => if u.glb.state = .boot then { u with fabric.ptr0 := u.tmu.ns.toNat % 256 } else showVersion u) { t with
            glb := { t.glb with yarlerUp := true, heartbeat := 0 }
            fw := { t.fw with migrateDue := olderRecords t, trialStart := if t.fw.boot = .trial ∧ t.glb.state = .boot then some t.clk else none } })
        else .next (enterDead { t with fw := { t.fw with boot := .dead } })) ∧
  (∀ (s : State),
    s.fw.boot = .copy →
      bootCopy s = { s with fw := { s.fw with area := s.fw.staged, boot := .trial } }) ∧
  (∀ (s : State) (n : Nat),
    s.power.on = true →
    s.fw.trialStart = some n →
    ticksS 30 ≤ since n s →
    (s.glb.state = .boot ∨ s.glb.state = .migrate) →
      exec (.trialTimeout) s = .next (enterDead { s with fw := { s.fw with boot := .dead } })) ∧
  (∀ (flashOk : Bool) (s : State),
    Alive s →
    s.glb.state = .boot →
    s.glb.yarlerUp = true →
    s.fw.migrateDue = true →
      exec (.migration flashOk) s = .next (enter .migrate 0 (showVersion { s with fw := { s.fw with migrated := true } }))) ∧
  (∀ (flashOk : Bool) (s : State),
    Alive s →
    s.glb.state = .migrate →
    s.fw.converted = false →
      exec (.migration flashOk) s = .next (migrateLog (migrateCal flashOk
        { s with fw := { s.fw with converted := true } }))) ∧
  (∀ (n : Fin 65) (s t : State),
    Alive s →
    startReady s = true →
    t = weltOn 1 (enter .configurable 0 (showVersion s)) →
      exec (.startupComplete n) s = .next (blowFuses n (endTrial
        (raise 0x1009 0 [word (since t.power.resetAt t / 500000), word (resetCode t.power.resetKind)] t)))) ∧
  (∀ (s : State),
    Alive s →
    s.glb.yarlerUp = true →
      exec (.glbHeartbeatTick) s = .next { s with glb := { s.glb with heartbeat := s.glb.heartbeat + 1 } }) ∧
  (∀ (s : State),
    s.power.on = true →
      exec (.opsecTick) s = .next { s with glb := { s.glb with opsec := s.glb.opsec + 1 } })

/-- R447, R448, R450, R457, R458 and R460: the commands of the input, the converter and the hold-up store, and what
a domain that is shed no longer does. The fill item taken before the event, the flush after the shedding, the
reset that is no longer due and GLB_OPSEC saved at the event (log 51), and cause 3 of event 0x5007 (log 26) are
the model's choices. -/
def Obligations.PowerEvents : Prop :=
  (∀ (v : Nat) (s t u : State),
    s.power.on = true →
    s.power.failing = false →
    t = { s with power := { s.power with failing := true, resetDue := [] } } →
    (u = logPowerFail (raise 0x1004 3 [word v, word (fill t), word (s.jobs.filter (fun p => p.2.status = .running)).length] t)) →
      exec (.powerFail v) s = .next (flushIdle (shedDomains (weltDark 3 { u with fw := { u.fw with opsecSaved := u.glb.opsec } })))) ∧
  (∀ (s : State),
      (shedDomains s).tiles = [] ∧ (shedDomains s).mem = {} ∧ (shedDomains s).stitch = {} ∧ (shedDomains s).shank = {} ∧
      (shedDomains s).log = s.log ∧ (shedDomains s).fw = s.fw ∧ (shedDomains s).glb = s.glb ∧ (shedDomains s).power = s.power) ∧
  (∀ (s : State),
    s.power.on = true →
    s.power.failing = true →
      exec (.holdupEnd true) s = .next (powerOnReset s)) ∧
  (∀ (s : State),
    s.power.on = true →
    s.power.failing = true →
      exec (.holdupEnd false) s = .next { s with
        power := { s.power with on := false, charged := false, failing := false, held := false }
        glb := { s.glb with yarlerUp := false }
        fw := { s.fw with session := none, trialStart := none } }) ∧
  (∀ (v : Nat) (s t : State),
    s.power.on = true →
    t = { s with power := { s.power with under := decide (v < 4800), overV := decide (7200 < v) } } →
    (s.power.under || s.power.overV) = (t.power.under || t.power.overV) →
      exec (.inputRangeChange v) s = .next t) ∧
  (∀ (v : Nat) (s t : State),
    s.power.on = true →
    t = { s with power := { s.power with under := decide (v < 4800), overV := decide (7200 < v) } } →
    (s.power.under || s.power.overV) ≠ (t.power.under || t.power.overV) →
      exec (.inputRangeChange v) s = .next (raise 0x1001 2 [word v, word (b2n !(t.power.under || t.power.overV))] t)) ∧
  (∀ (c : Int) (s : State),
    s.power.on = true →
    ((110 < c ∧ s.power.convHot = false) ∨ (c < 110 ∧ s.power.convHot = true)) →
      exec (.converterTempChange c) s = .next (raise 0x1008 2 [sword c, word (b2n (!s.power.convHot))]
        { s with power.convHot := !s.power.convHot })) ∧
  (∀ (capUf v : Nat) (s : State),
    Alive s →
    s.power.charged = true →
    (s.power.checkedAt = none ∨ ∃ n, s.power.checkedAt = some n ∧ ticksS 86400 ≤ since n s) →
    3200 ≤ capUf →
    5700 ≤ v →
      exec (.holdupCheck capUf v) s = .next { s with power.checkedAt := some s.clk, power.holdupFault := false }) ∧
  (∀ (capUf v : Nat) (s : State),
    Alive s →
    s.power.charged = true →
    (s.power.checkedAt = none ∨ ∃ n, s.power.checkedAt = some n ∧ ticksS 86400 ≤ since n s) →
    (capUf < 3200 ∨ v < 5700) →
      exec (.holdupCheck capUf v) s = .next (raise 0x1007 2 [word capUf, word v]
        { s with power.checkedAt := some s.clk, power.holdupFault := true })) ∧
  (∀ (f : State → State) (s : State),
    (s.power.on = false ∨ s.power.held = true ∨ s.power.failing = true) →
      fed f s = .next s ∧ sends f s = .next s) ∧
  (∀ (s : State),
    s.power.failing = true →
      exec (.matrix 0 []) s = .next s ∧ exec (.vector 0 []) s = .next s ∧ exec (.stitch 0 []) s = .next s ∧
      exec (.wait 0) s = .next s ∧ exec (.jobStartInstant 0) s = .next s ∧ exec (.dimmTrainingComplete 0 ⟨true, 0, 64, true⟩) s = .next s ∧
      exec (.channelZeroComplete 0) s = .next s ∧ exec (.linkTrainingComplete 0 true) s = .next s ∧
      exec (.shankSample 0) s = .next s ∧ exec (.packetSend 0) s = .next s) ∧
  (∀ (v : Nat) (s : State),
    s.power.on = true →
    s.power.failing = false →
      exec (.holdupStoreCharged v) s = .next { s with power := { s.power with charged := true, sample := { s.power.sample with vhold10mV := v } } })

/-- R451: POWER_LOOP_SAMPLE and ECLK_STEP_UP complete, with the new ECLK, the time since when all readings are below
95 % of their limits, and their frame. -/
def Obligations.PowerLoop : Prop :=
  (∀ (r : PowerReading) (s : State) (lower calm : Bool),
    Alive s →
    lower = decide ((1050 < r.pdieW ∨ 37500 < r.iinMa ∨ qi 100 < dieTemp s) ∧ 1400 < s.power.eclk) →
    calm = decide (r.pdieW * 100 < 95 * 1050 ∧ r.iinMa * 100 < 95 * 37500 ∧ dieTemp s < qi 95) →
      ∃ t, exec (.powerLoopSample r) s = .next t ∧
        t.power.calmSince = (if lower then none else if calm then some (s.power.calmSince.getD s.clk) else none)) ∧
  (∀ (r : PowerReading) (s : State),
    Alive s →
      ∃ t, exec (.powerLoopSample r) s = .next t ∧ t.power.sample = r ∧
        t.power.eclk = (if (1050 < r.pdieW ∨ 37500 < r.iinMa ∨ qi 100 < dieTemp s) ∧ 1400 < s.power.eclk
          then s.power.eclk - 25 else s.power.eclk) ∧
        t.power.stepsDown = (if (1050 < r.pdieW ∨ 37500 < r.iinMa ∨ qi 100 < dieTemp s) ∧ 1400 < s.power.eclk
          then s.power.stepsDown + 1 else s.power.stepsDown) ∧
        t = { s with power := t.power, log := t.log, irq := t.irq, out := t.out }) ∧
  (∀ (s : State) (n : Nat),
    Alive s →
    s.power.calmSince = some n →
    ticksMs 1 ≤ since n s →
    s.power.eclk < 2200 →
      ∃ t, exec .eclkStepUp s = .next t ∧ t.power.eclk = s.power.eclk + 25 ∧ t.power.calmSince = some s.clk ∧
        t = { s with power := t.power, log := t.log, irq := t.irq, out := t.out })

/-- R51, R55, R334, R402 and R453: the trips and EVENT_RAISE complete, and the clocks that they wait for. That each
trip fires once for one standing condition (log 56) and abort cause 5 of the move (log 44) are the model's
choices. -/
def Obligations.Trips : Prop :=
  (∀ (s : State) (p i : Bool),
    Alive s →
    p = (heldFor (ticksMs 10) s.power.pdieOver s && !s.power.pdieTold) →
    i = (heldFor (ticksMs 10) s.power.iinOver s && !s.power.iinTold) →
    (p = true ∨ i = true) →
      exec (.powerLimitTrip) s = .next (fatal 0x1005 [word s.power.sample.pdieW, word s.power.sample.iinMa]
        { s with power.pdieTold := s.power.pdieTold || p, power.iinTold := s.power.iinTold || i })) ∧
  (∀ (s : State),
    Alive s →
    (heldFor (ticksMs 10) s.power.pdieOver s && !s.power.pdieTold) = false →
    (heldFor (ticksMs 10) s.power.iinOver s && !s.power.iinTold) = false →
      exec (.powerLimitTrip) s = .next s) ∧
  (∀ (k : Fin 64) (s : State),
    Alive s →
    heldFor (ticksMs 1) (tget none s.power.dieOver k) s = true →
    s.power.dieTold = false →
      exec (.dieOvertempTrip k) s = .next (fatal 0x1006 [word k, sword (wholeDegrees s.power.tdie)] { s with power.dieTold := true })) ∧
  (∀ (k : Fin 64) (s : State),
    Alive s →
    (heldFor (ticksMs 1) (tget none s.power.dieOver k) s && !s.power.dieTold) = false →
      exec (.dieOvertempTrip k) s = .next s) ∧
  (∀ (p : Fin 2) (s : State) (l : Limits),
    Alive s →
    (planeOf s p).limits = some l →
    heldFor (ticksMs 10) (planeOf s p).hotSince s = true →
    (planeOf s p).hotTold = false →
      exec (.shankThermalTrip p) s = .next (fatal 0x5013 [word p, qWord (planeOf s p).tp, qWord l.tLim]
        (setPlane p { planeOf s p with hotTold := true } s))) ∧
  (∀ (p : Fin 2) (s : State),
    Alive s →
    ((planeOf s p).limits = none ∨ (heldFor (ticksMs 10) (planeOf s p).hotSince s && !(planeOf s p).hotTold) = false) →
      exec (.shankThermalTrip p) s = .next s) ∧
  (∀ (e : Ev) (s : State),
    s.power.on = true →
    e.sev.val < 4 →
      exec (.eventRaise e) s = .next (raise e.code e.sev e.body s)) ∧
  (∀ (e : Ev) (s : State),
    s.power.on = true →
    e.sev.val = 4 →
      exec (.eventRaise e) s = .next (fatal e.code e.body s)) ∧
  (∀ (code : BitVec 16) (items : List Word) (s t u : State),
    t = raise code 4 items s →
    t.glb.state ≠ .dead →
    t.glb.state ≠ .halted →
    killsWelt code t.glb.state = false →
    u = discardStarts (forAll jobNos haltJob (enter .halted code t)) →
      fatal code items s = moveAbort 5 0 (showVersion { u with fw.trialStart := none }) ∧
      (enter .halted code t).glb.state = .halted) ∧
  (∀ (code : BitVec 16) (items : List Word) (s t u : State),
    t = raise code 4 items s →
    t.glb.state ≠ .dead →
    t.glb.state ≠ .halted →
    (code.toNat / 4096 = 1 ∨ code.toNat / 4096 = 5 ∨ t.glb.state = .boot ∨ t.glb.state = .migrate) →
    u = moveAbort 5 0 (showVersion { discardStarts (forAll jobNos haltJob (enter .halted code t)) with fw.trialStart := none }) →
      fatal code items s = weltDark 2 { u with glb := { u.glb with weltKilled := true } }) ∧
  (∀ (r : PowerReading) (s : State) (e : Nat),
    Alive s →
    e = (if (1050 < r.pdieW ∨ 37500 < r.iinMa ∨ qi 100 < dieTemp s) ∧ 1400 < s.power.eclk then s.power.eclk - 25 else s.power.eclk) →
      ∃ t, exec (.powerLoopSample r) s = .next t ∧
        t.power.pdieOver = (if e = 1400 ∧ 1100 < r.pdieW then some (s.power.pdieOver.getD s.clk) else none) ∧
        t.power.iinOver = (if e = 1400 ∧ 40000 < r.iinMa then some (s.power.iinOver.getD s.clk) else none) ∧
        (∀ i, i < 64 → tget none t.power.dieOver i =
          (if qi 110 ≤ reading 1 i s then some ((tget none s.power.dieOver i).getD s.clk) else none))) ∧
  (∀ (p : Nat) (s : State) (x : Plane) (hot : Bool),
    x = planeOf s p →
    (hot = (match x.limits with
      | some l => decide (qAdd l.tLim (qi 10) ≤ x.tp)
      | none => false)) →
      (planeOf (hotTick p s) p).hotSince = (if hot then some (x.hotSince.getD s.clk) else none) ∧
      (∀ (u v w : State) (swap clamped : Bool),
        takeSwap p (applyLimits p (firstLoad p (rateChange p s))) = (u, swap) →
        v = setPlane p { planeOf (unusedCells p (latchReadings p u)) p with
              tp := planeTemp p (unusedCells p (latchReadings p u)), heater := planeHeater p (unusedCells p (latchReadings p u)) }
              (unusedCells p (latchReadings p u)) →
        (match (planeOf v p).active, (planeOf v p).limits with
          | some c, some lim => planeLaw p c lim swap v
          | _, _ => (v, false)) = (w, clamped) →
        boundary p s = cellsLocked p (lacesAfterSample p (stepSlews (planeItem p)
          (hotTick p (if swap then swapMade p clamped w else w))))))

/-- R355 and R356: TMU_ADDEND_WRITE inside and outside its range. The next tick adds the addend that the register
then holds. -/
def Obligations.AddendWrite : Prop :=
  (∀ (v : Word) (s t : State),
    reachable s = true →
    0x1FFBE76D ≤ v.toNat →
    v.toNat ≤ 0x20041893 →
    t = { s with tmu := { s.tmu with addend := v, addendWritten := true, holdover := false, wdogStart := s.clk, wdogDone := false }, glb := { s.glb with holdover := false } } →
      exec (.tmuAddendWrite v) s = .next (if s.tmu.holdover = true ∧ s.tmu.addendWritten = true
        then raise 0x7002 1 [v, word (since s.tmu.holdoverSince s / 500000000)] t else t)) ∧
  (∀ (v : Word) (s : State),
    reachable s = true →
    (v.toNat < 0x1FFBE76D ∨ 0x20041893 < v.toNat) →
      exec (.tmuAddendWrite v) s = .next (raise 0x7005 2 [v] (tmuFlag 6 s))) ∧
  (∀ (v : Word) (s : State),
    (v.toNat < 0x1FFBE76D ∨ 0x20041893 < v.toNat) →
      ∃ t, exec (.tmuAddendWrite v) s = .next t ∧ t.tmu.addend = s.tmu.addend ∧ t.tmu.wdogStart = s.tmu.wdogStart ∧
        t.tmu.addendWritten = s.tmu.addendWritten ∧ (reachable s = true → bit t.tmu.status 6 = true))

/-- R357 and R358: TMU_STEP_WRITE, accepted and refused. -/
def Obligations.StepWrite : Prop :=
  (∀ (v : Word) (s : State),
    reachable s = true →
    (0 ≤ v.toInt ∨ ∀ e ∈ s.sched.entries, ¬ ((e.2.st = .armed ∨ e.2.st = .firing) ∧ 0 ≤ siteDiff (siteNow s) e.2.instant ∧ siteDiff (siteNow s) e.2.instant ≤ -v.toInt)) →
      ∃ t, exec (.tmuStepWrite v) s = .next t ∧ t.tmu.frac = s.tmu.frac ∧
        t.tmu.era ++ t.tmu.ns = (s.tmu.era ++ s.tmu.ns) + BitVec.ofInt 48 v.toInt) ∧
  (∀ (v : Word) (s : State) (k : Nat) (e : Entry),
    reachable s = true →
    v.toInt < 0 →
    (k, e) ∈ s.sched.entries →
    (e.st = .armed ∨ e.st = .firing) →
    0 ≤ siteDiff (siteNow s) e.instant →
    siteDiff (siteNow s) e.instant ≤ -v.toInt →
      ∃ t, exec (.tmuStepWrite v) s = .next t ∧ t.sched = s.sched ∧
        t.tmu = { s.tmu with status := s.tmu.status ||| 2 })

/-- R351, R353, R354, R356 and R367 to R371: the commands of the time unit but TMU_ADDEND_WRITE and TMU_STEP_WRITE.
The capture that is made at the edge, from the pulse length that the command gives (log 64), and NS_WRAP being
the tick itself (log 1) are the model's choices. -/
def Obligations.TimeCommands : Prop :=
  (∀ (s : State),
    reachable s = true →
      exec (.tmuNsRead) s = .next (emit (.regValue 0x30000 s.tmu.ns)
        { s with tmu := { s.tmu with latFrac := s.tmu.frac, latSec := s.tmu.sec, latEra := s.tmu.era } })) ∧
  (∀ (v : Word) (s : State),
    reachable s = true →
    v.setWidth 8 ≠ (0 : BitVec 8) →
      exec (.tmuWdogWrite v) s = .next { s with tmu := { s.tmu with timeoutS := v.setWidth 8, wdogStart := s.clk, wdogDone := false } }) ∧
  (∀ (v : Word) (s : State),
    reachable s = true →
    v.setWidth 8 = (0 : BitVec 8) →
      exec (.tmuWdogWrite v) s = .next { s with tmu := { s.tmu with wdogStart := s.clk, wdogDone := false } }) ∧
  (∀ (s : State),
    Alive s →
    s.tmu.wdogDone = false →
    ticksS s.tmu.timeoutS.toNat ≤ since s.tmu.wdogStart s →
    s.tmu.holdover = false →
      exec (.holdoverEnter) s = .next (raise 0x7001 2 [s.tmu.addend, s.tmu.timeoutS.setWidth 32]
        (tmuFlag 4 { s with tmu := { s.tmu with wdogDone := true, holdover := true, holdoverSince := s.clk }, glb := { s.glb with holdover := true } }))) ∧
  (∀ (s : State),
    Alive s →
    2 ^ 64 ≤ s.tmu.ns.toNat * 2 ^ 32 + s.tmu.frac.toNat + s.tmu.addend.toNat * 16 →
      exec (.nsWrap) s = .next (tick s)) ∧
  (∀ (s : State),
    Alive s →
      (tickCounter s).tmu.ns = word ((s.tmu.ns.toNat * 2 ^ 32 + s.tmu.frac.toNat + s.tmu.addend.toNat * 16) / 2 ^ 32) ∧
      (tickCounter s).tmu.frac = word (s.tmu.frac.toNat + s.tmu.addend.toNat * 16)) ∧
  (∀ (s : State),
    Alive s →
    0 ≤ siteDiff (siteNow s) s.tmu.nextEdge →
      exec (.secondBoundary) s = .next { s with
        tmu := { s.tmu with sec := s.tmu.sec + 1, nextEdge := s.tmu.nextEdge + 1000000000, edgeLoaded := false } }) ∧
  (∀ (rising : Bool) (pulse : Nat) (s : State) (v : BitVec 48) (t : State),
    Alive s →
    s.tmu.inEn = true →
    rising = !s.tmu.inFall →
    100 ≤ pulse →
    (∀ n, s.tmu.lastCapture = some n → ticksMs 500 ≤ since n s) →
    v = siteNow s - s.tmu.inDelay.signExtend 48 →
    t = { s with tmu := { s.tmu with ppsTs := v.setWidth 32, ppsFrac := s.tmu.frac, ppsEra := (v >>> 32).setWidth 16, lastCapture := some s.clk, lostTold := false } } →
      exec (.ppsInputEdge rising pulse) s = .next (tmuFlag 3 (if bit s.tmu.status 3 then tmuFlag 5 t else t))) ∧
  (∀ (s : State),
    Alive s →
    s.tmu.inEn = true →
    s.tmu.lostTold = false →
    ticksS 2 ≤ since s.tmu.enabledAt s →
    (∀ n, s.tmu.lastCapture = some n → ticksS 2 ≤ since n s) →
      exec (.ppsLost) s = .next (raise 0x7006 2 [s.tmu.ppsTs] (tmuFlag 7 { s with tmu := { s.tmu with lostTold := true } }))) ∧
  (∀ (s : State),
    Alive s →
    s.tmu.outEn = true →
    s.tmu.edgeLoaded = false →
    edgeOwed (lastDue s) s = true →
      exec (.ppsOutRise) s = .next { s with tmu := { s.tmu with ppsOut := true, ppsRose := s.clk, ppsGiven := some (lastDue s) } }) ∧
  (∀ (s : State),
    Alive s →
    s.tmu.ppsOut = true →
    ticksUs s.tmu.widthUs ≤ since s.tmu.ppsRose s →
      exec (.ppsOutFall) s = .next { s with tmu := { s.tmu with ppsOut := false } }) ∧
  (∀ (k : Fin 1024) (s : State),
    Alive s →
    ((schedOf s k).st = .spent ∨ (schedOf s k).st = .disarmed) →
    2 ^ 31 ≤ siteDiff (siteNow s) (schedOf s k).instant →
      exec (.schedRecordExpire k) s = .next (setSched k {} s))

/-- R363 to R366 and R377: the commands of the timing port. A size that R364 does not allow, and bytes of a DMA read
that fails, are free values (logs 15 and 16) and not stated. -/
def Obligations.TimingPort : Prop :=
  (∀ (f : EthFrame) (dma : Dma) (s : State) (d : List Byte) (t : State),
    Alive s →
    portUp s.tpm = true →
    s.tpm.speed ≠ 0 →
    f.fcsOk = true →
    f.bytes.length ≤ 2000 →
    filterPass f.bytes s.tpm = true →
    s.tpm.rx.size ≠ 0 →
    s.tpm.rx.head % s.tpm.rx.size ≠ s.tpm.rx.tail % s.tpm.rx.size →
    dma[0]? = some (some d) →
    t = emit (.ringDma (ringBase s.tpm.rx + 16 * s.tpm.rx.head) (wordsBytes (writeBack f.bytes.length (stamp false s) s.tpm.speed)))
        (emit (.ringDma (leNat ((padTo 0 16 d).take 8)) f.bytes) s) →
      exec (.tpmFrameReceive f dma) s = .next (setCause 2 { t with tpm := { t.tpm with rx := { s.tpm.rx with head := (s.tpm.rx.head + 1) % s.tpm.rx.size } } })) ∧
  (∀ (f : EthFrame) (dma : Dma) (s : State),
    Alive s →
    portUp s.tpm = true →
    s.tpm.speed ≠ 0 →
    f.fcsOk = true →
    f.bytes.length ≤ 2000 →
    filterPass f.bytes s.tpm = true →
    (s.tpm.rx.size = 0 ∨ s.tpm.rx.head % s.tpm.rx.size = s.tpm.rx.tail % s.tpm.rx.size) →
      exec (.tpmFrameReceive f dma) s = .next { s with tpm := { s.tpm with noDesc := sat16 s.tpm.noDesc } }) ∧
  (∀ (f : EthFrame) (dma : Dma) (s : State),
    Alive s →
    portUp s.tpm = true →
    s.tpm.speed ≠ 0 →
    (f.fcsOk = false ∨ 2000 < f.bytes.length) →
      exec (.tpmFrameReceive f dma) s = .next { s with tpm := { s.tpm with bad := sat16 s.tpm.bad } }) ∧
  (∀ (dma : Dma) (s : State) (d bs : List Byte) (n : Nat) (t : State),
    Alive s →
    portUp s.tpm = true →
    s.tpm.speed ≠ 0 →
    s.tpm.tx.size ≠ 0 →
    s.tpm.tx.head % s.tpm.tx.size ≠ s.tpm.tx.tail % s.tpm.tx.size →
    dma[0]? = some (some d) →
    dma[1]? = some (some bs) →
    n = leNat (((padTo 0 16 d).drop 8).take 4) % 4096 →
    14 ≤ n →
    n ≤ 2000 →
    t = emit (.ringDma (ringBase s.tpm.tx + 16 * s.tpm.tx.head) (wordsBytes (writeBack n (stamp true s) s.tpm.speed)))
        (emit (.ethFrame (withFcs (padFrame (padTo 0 n bs)))) s) →
      exec (.tpmFrameTransmit dma) s = .next (setCause 3 { t with tpm := { t.tpm with tx := { s.tpm.tx with head := (s.tpm.tx.head + 1) % s.tpm.tx.size } } })) ∧
  (∀ (v : Word) (s : State),
    reachable s = true →
      exec (.tpmTxTailWrite v) s = .next { s with tpm := { s.tpm with tx := { s.tpm.tx with tail := field v 0 12 } } }) ∧
  (∀ (v : Word) (s : State),
    reachable s = true →
    field v 0 13 ∈ [0, 16, 32, 64, 128, 256, 512, 1024, 2048, 4096] →
      exec (.tpmRingSizeWrite true v) s = .next { s with tpm := { s.tpm with tx := { s.tpm.tx with head := 0, size := field v 0 13 } } }) ∧
  (∀ (v : Word) (s : State),
    reachable s = true →
    field v 0 13 ∈ [0, 16, 32, 64, 128, 256, 512, 1024, 2048, 4096] →
      exec (.tpmRingSizeWrite false v) s = .next { s with tpm := { s.tpm with rx := { s.tpm.rx with head := 0, size := field v 0 13 } } }) ∧
  (∀ (s : State),
    reachable s = true →
      exec (.tpmDropRead) s = .next (emit (.regValue 0x60040 (s.tpm.bad ++ s.tpm.noDesc))
        { s with tpm := { s.tpm with bad := 0, noDesc := 0 } })) ∧
  (∀ (isUp : Bool) (s : State),
    Alive s →
    s.tpm.linkUp = !isUp →
    (isUp = true → s.tpm.speed ≠ 0 ∧ s.tpm.cage = true) →
      exec (.timePortLinkChange isUp) s = .next (raise 0x7013 1 [word (b2n isUp), word s.tpm.speed] { s with tpm := { s.tpm with linkUp := isUp } })) ∧
  (∀ (s : State),
    Alive s →
    (s.tpm.speed = 0 ∨ s.tpm.cage = false) →
      exec (.timePortLinkChange true) s = .next s) ∧
  (∀ (isUp : Bool) (s : State),
    Alive s →
    s.tpm.linkUp = isUp →
      exec (.timePortLinkChange isUp) s = .next s) ∧
  (∀ (p : Tpm),
      portUp p = true ↔ p.linkUp = true ∧ p.cage = true)

/-- R417 and R419: CVU_CHECK. -/
def Obligations.CheckUnitCompares : Prop :=
  (∀ (n : Fin 8) (s : State),
    reachable s = true →
    (cvuOf s n).queue.length < 16 →
      exec (.cvuCheck n) s = .next (setCvu n { cvuOf s n with queue := (cvuOf s n).queue ++ [{ off := 0x10, value := 2 }] } s)) ∧
  (∀ (n : Fin 8) (s : State),
    reachable s = true →
    16 ≤ (cvuOf s n).queue.length →
      exec (.cvuCheck n) s = .next (setCvu n { cvuOf s n with overrun := true } s)) ∧
  (∀ (n : Nat) (s : State) (u : Cvu),
    u = cvuOf s n →
    (cvuResult u).toNat % 2 ^ u.width = u.expect.toNat % 2 ^ u.width →
      cvuOf (cvuApply n { off := 0x10, value := 2 } s) n = { u with matched := true, checked := true, result := cvuResult u } ∧
        (cvuApply n { off := 0x10, value := 2 } s).irq = s.irq ∧ (cvuApply n { off := 0x10, value := 2 } s).log = s.log) ∧
  (∀ (n : Nat) (s : State) (u : Cvu),
    u = cvuOf s n →
    (cvuResult u).toNat % 2 ^ u.width ≠ u.expect.toNat % 2 ^ u.width →
      ∃ t : State, cvuOf t n = { u with matched := false, mismatch := true, checked := true } ∧ t.irq = s.irq ∧ t.log = s.log ∧
        cvuApply n { off := 0x10, value := 2 } s = setCvu n { u with matched := false, mismatch := true, checked := true, result := cvuResult u } (if u.irqEn = true then setCause 6 t else t))

/-- R414 to R418: the writes to a check unit complete, each in its queue, and what each does when its turn comes.
That CVUn_RESULT shows its reset value until the first write is applied is the model's choice (log 67). -/
def Obligations.CheckUnitFeeds : Prop :=
  (∀ (n : Fin 8) (s : State),
    reachable s = true →
    (cvuOf s n).queue.length < 16 →
      exec (.cvuStart n false) s = .next (setCvu n { cvuOf s n with queue := (cvuOf s n).queue ++ [{ off := 0x10, value := 1 }] } s)) ∧
  (∀ (n : Fin 8) (s : State),
    reachable s = true →
    (cvuOf s n).queue.length < 16 →
      exec (.cvuStart n true) s = .next (setCvu n { cvuOf s n with queue := (cvuOf s n).queue ++ [{ off := 0x10, value := 3 }] } s)) ∧
  (∀ (n : Fin 8) (v : Word) (s : State),
    reachable s = true →
    (cvuOf s n).queue.length < 16 →
      exec (.cvuFeedB n v) s = .next (setCvu n { cvuOf s n with queue := (cvuOf s n).queue ++ [{ off := 0x14, value := v }] } s)) ∧
  (∀ (n : Fin 8) (v : Word) (s : State),
    reachable s = true →
    (cvuOf s n).queue.length < 16 →
      exec (.cvuFeedH n v) s = .next (setCvu n { cvuOf s n with queue := (cvuOf s n).queue ++ [{ off := 0x18, value := v }] } s)) ∧
  (∀ (n : Fin 8) (v : Word) (s : State),
    reachable s = true →
    (cvuOf s n).queue.length < 16 →
      exec (.cvuFeedW n v) s = .next (setCvu n { cvuOf s n with queue := (cvuOf s n).queue ++ [{ off := 0x1C, value := v }] } s)) ∧
  (∀ (n : Fin 8) (v : Word) (s : State),
    reachable s = true →
    (cvuOf s n).queue.length < 16 →
      exec (.cvuCtrlWrite n v) s = .next (setCvu n { cvuOf s n with queue := (cvuOf s n).queue ++ [{ off := 0, value := v }] } s)) ∧
  (∀ (n : Fin 8) (b : Bool) (v : Word) (s : State),
    reachable s = true →
    16 ≤ (cvuOf s n).queue.length →
      exec (.cvuStart n b) s = .next (setCvu n { cvuOf s n with overrun := true } s) ∧
      exec (.cvuFeedB n v) s = .next (setCvu n { cvuOf s n with overrun := true } s) ∧
      exec (.cvuFeedH n v) s = .next (setCvu n { cvuOf s n with overrun := true } s) ∧
      exec (.cvuFeedW n v) s = .next (setCvu n { cvuOf s n with overrun := true } s) ∧
      exec (.cvuCtrlWrite n v) s = .next (setCvu n { cvuOf s n with overrun := true } s)) ∧
  (∀ (u : Cvu) (v : Word),
      cvuCost u { off := 0x14, value := v } = 10 ∧ cvuCost u { off := 0x18, value := v } = 20 ∧ cvuCost u { off := 0x1C, value := v } = 40 ∧
      cvuCost u { off := 0x10, value := 1 } = 10 * (1 + 4 * u.prefixWords) ∧ cvuCost u { off := 0x10, value := 3 } = 10 * (1 + 4 * u.prefixWords) ∧
      cvuCost u { off := 0x10, value := 2 } = 10 ∧ cvuCost u { off := 0, value := v } = 10) ∧
  (∀ (n : Nat) (s : State) (w : CvuWrite) (ws : List CvuWrite),
    (cvuOf s n).queue = w :: ws →
    36 < cvuCost (cvuOf s n) w - (cvuOf s n).spent →
      cvuTick n s = setCvu n { cvuOf s n with spent := (cvuOf s n).spent + 36 } s) ∧
  (∀ (n : Nat) (s : State) (w : CvuWrite) (ws : List CvuWrite),
    (cvuOf s n).queue = w :: ws →
    cvuCost (cvuOf s n) w - (cvuOf s n).spent ≤ 36 →
      cvuTick n s = cvuRun n ws (36 - (cvuCost (cvuOf s n) w - (cvuOf s n).spent)) (cvuApply n w (setCvu n { cvuOf s n with queue := ws, spent := 0 } s))) ∧
  (∀ (n : Nat) (s : State) (u : Cvu),
    u = cvuOf s n →
      cvuOf (cvuApply n { off := 0x10, value := 1 } s) n =
        { cvuFeed (cvuPrefix u) { u with state := word (u.init.toNat % 2 ^ u.width), count := 0, matched := false, checked := false } with
          result := cvuResult (cvuFeed (cvuPrefix u) { u with state := word (u.init.toNat % 2 ^ u.width), count := 0, matched := false, checked := false }) }) ∧
  (∀ (n : Nat) (v : Word) (s : State) (u : Cvu),
    u = cvuOf s n →
      cvuOf (cvuApply n { off := 0x14, value := v } s) n =
        { cvuFeed [v.setWidth 8] u with result := cvuResult (cvuFeed [v.setWidth 8] u) }) ∧
  (∀ (n : Nat) (v : Word) (s : State) (u : Cvu),
    u = cvuOf s n →
      cvuOf (cvuApply n { off := 0x18, value := v } s) n =
        { cvuFeed [v.setWidth 8, (v >>> 8).setWidth 8] u with
          result := cvuResult (cvuFeed [v.setWidth 8, (v >>> 8).setWidth 8] u) }) ∧
  (∀ (n : Nat) (v : Word) (s : State) (u : Cvu),
    u = cvuOf s n →
      cvuOf (cvuApply n { off := 0x1C, value := v } s) n =
        { cvuFeed [v.setWidth 8, (v >>> 8).setWidth 8, (v >>> 16).setWidth 8, (v >>> 24).setWidth 8] u with
          result := cvuResult (cvuFeed [v.setWidth 8, (v >>> 8).setWidth 8, (v >>> 16).setWidth 8, (v >>> 24).setWidth 8] u) }) ∧
  (∀ (n : Nat) (v : Word) (s : State) (u x : Cvu),
    u = cvuOf s n →
    1 ≤ field v 0 6 →
    field v 0 6 ≤ 32 →
    field v 10 3 ≤ 4 →
    x = { u with width := field v 0 6, refin := bit v 8, refout := bit v 9, prefixWords := field v 10 3, irqEn := bit v 13 } →
      cvuOf (cvuApply n { off := 0, value := v } s) n = { x with result := cvuResult x }) ∧
  (∀ (n : Nat) (v : Word) (s : State) (u : Cvu),
    u = cvuOf s n →
    (field v 0 6 = 0 ∨ 32 < field v 0 6 ∨ 4 < field v 10 3) →
      cvuOf (cvuApply n { off := 0, value := v } s) n = { u with cfgErr := true, result := cvuResult u })

/-- R396, R398 to R401, R403, R406, R407, R409 and R412: the flash operations and the two clearing reads of the
recorder complete. -/
def Obligations.RecorderFlash : Prop :=
  (∀ (s : State) (c : Nat),
    s.power.on = true →
    s.log.inFlight = none →
    s.log.erasing = none →
    s.log.pf = false →
    s.log.scanDone = true →
    4096 ≤ fill s →
    target s.log = some c →
    c ≠ 895 →
      exec (.logChunkWrite) s = .next { s with log := { s.log with inFlight := some (c, pack 4088 s.log.buf), flightVersion := s.fw.logVersion } }) ∧
  (∀ (s : State) (r : Record) (u : State),
    s.power.on = true →
    s.log.inFlight = none →
    s.log.erasing = none →
    s.log.pf = false →
    s.log.scanDone = true →
    4096 ≤ fill s →
    target s.log = some 895 →
    (r, u) = heelDone (pack 4060 s.log.buf) s →
      exec (.logChunkWrite) s = .next { u with log := { u.log with inFlight := some (895, pack 4060 s.log.buf ++ [r]), flightVersion := u.fw.logVersion } }) ∧
  (∀ (s : State),
    s.power.on = true →
    s.log.inFlight = none →
    s.log.erasing = none →
    s.log.pf = false →
    s.log.scanDone = true →
    4096 ≤ fill s →
    target s.log = none →
    s.log.mediaFail = false →
    s.log.tailActive = false →
      exec (.logChunkWrite) s = .next (startErase { s with log := { s.log with eraseDue := some (if sectorErased s.log (s.log.toeNext / 16) then nextToe s.log.retired 448 (s.log.toeNext / 16) else s.log.toeNext / 16) } })) ∧
  (∀ (s : State),
    s.power.on = true →
    (s.log.inFlight.isSome = true ∨ s.log.erasing.isSome = true ∨ s.log.pf = true ∨ s.log.scanDone = false ∨ fill s < 4096) →
      exec (.logChunkWrite) s = .next s) ∧
  (∀ (ok : Bool) (s : State) (c : Nat) (rs : List Record) (t u : State),
    s.power.on = true →
    s.log.inFlight = some (c, rs) →
    u = { s with log := { s.log with inFlight := none } } →
    t = (if ok then chunkWritten c s.log.flightVersion rs false u else chunkFailed c s.log.flightVersion rs u) →
      exec (.logChunkComplete ok) s = .next (if t.log.flushing then flushLog t else startErase t)) ∧
  (∀ (ok : Bool) (s : State),
    s.power.on = true →
    s.log.inFlight = none →
      exec (.logChunkComplete ok) s = .next s) ∧
  (∀ (s t : State) (c v : Nat) (rs : List Record),
    c < 1024 ∨ s.log.failsInRow < 2 →
    c ≤ 895 ∨ 1024 ≤ c →
    t = chunkFailed c v rs s →
      t.log.flash = tset none s.log.flash c (some { recs := [], bad := true, version := v }) ∧
      t.log.buf = (rs.filter (fun r => !s.log.buf.any (fun q => q.seq = r.seq))).foldl (fun b r => insertRec r b) s.log.buf ∧
      t.log.failsInRow = s.log.failsInRow + 1 ∧ t.log.peak = max s.log.peak (recsLen t.log.buf)) ∧
  (∀ (s t : State) (c v : Nat) (rs : List Record),
    c ≤ 895 ∨ 1024 ≤ c →
    t = chunkWritten c v rs false s →
      t.log.flash = tset none s.log.flash c (some { recs := rs.map (writtenRec false false), bad := false, version := v }) ∧
      t.log.buf = s.log.buf.filter (fun r => !rs.any (fun q => q.seq = r.seq)) ∧ t.log.failsInRow = 0) ∧
  (∀ (s : State) (k : Nat),
    s.power.on = true →
    s.log.erasing = some k →
      exec (.toeEraseComplete true) s = .next (startErase { s with
        log := { s.log with erasing := none, halfErased := s.log.halfErased.filter (· ≠ k), flash := s.log.flash.filter (fun p => p.1 / 16 ≠ k) } })) ∧
  (∀ (s : State) (k : Nat) (t : State),
    s.power.on = true →
    s.log.erasing = some k →
    (t = raise 0xA007 2 [word k, 0] { s with
        log := { s.log with erasing := none, halfErased := s.log.halfErased.filter (· ≠ k), retired := s.log.retired ++ [k], retiredNow := s.log.retiredNow + 1, toeNext := if s.log.toeNext / 16 = k then 16 * nextToe (s.log.retired ++ [k]) 448 k else s.log.toeNext } }) →
      exec (.toeEraseComplete false) s = .next (startErase (if 16 < t.log.retiredNow then toeFail k 0 t else t))) ∧
  (∀ (ok : Bool) (s : State),
    s.power.on = true →
    s.log.erasing = none →
      exec (.toeEraseComplete ok) s = .next s) ∧
  (∀ (s : State) (q : Word),
    s.power.on = true →
    s.log.frozen = some q →
    ticksS s.log.freezeSecs ≤ since s.log.freezeStart s →
      exec (.logFreezeTimeout) s = .next (startErase (raise 0xA006 0 [q, 2] { s with log := { s.log with frozen := none } }))) ∧
  (∀ (bad : List (Fin 512 × Fin 16)) (s : State) (l : List (Nat × Nat)) (t u : State),
    s.power.on = true →
    s.log.scanDone = false →
    (l = bad.map (fun p => (p.1.val, p.2.val))) →
    t = renumber (newestFlash s.log) (forAll l badChunk s) →
    (u = raiseTogether ((l.filter (fun p => (tget none s.log.flash (16 * p.1 + p.2)).isSome)).map
        (fun p => ⟨0xA008, 2, [word p.1, word p.2]⟩)) t) →
      exec (.logScanComplete bad) s = .next (startErase { u with log := { u.log with scanDone := true } })) ∧
  (∀ (bad : List (Fin 512 × Fin 16)) (s : State),
    s.power.on = true →
    s.log.scanDone = true →
      exec (.logScanComplete bad) s = .next s) ∧
  (∀ (s : State),
    s.power.on = true →
    s.log.total ≠ 0 →
    s.log.pf = false →
    fill s + lossLen s.log.counts.length ≤ 229376 →
      exec (.lossRecordWrite) s = .next (raise 0xA001 2 (lossItems s.log) { s with
        log := { s.log with counts := [], total := 0, more := false, firstOpsec := 0, lastOpsec := 0 } })) ∧
  (∀ (s : State),
    s.power.on = true →
    (s.log.total = 0 ∨ s.log.pf = true ∨ 229376 < fill s + lossLen s.log.counts.length) →
      exec (.lossRecordWrite) s = .next s) ∧
  (∀ (s : State),
    reachable s = true →
      exec (.logFillPeakRead) s = .next (emit (.regValue 0x50008 (word s.log.peak)) { s with log := { s.log with peak := fill s } })) ∧
  (∀ (s : State),
    reachable s = true →
      exec (.logLostRead) s = .next (emit (.regValue 0x50020 (word s.log.lost)) { s with log := { s.log with lost := 0 } }))

/-- R438 to R441, R444 and R445: the service port. Whether a signature is good is left to a constant without a body
(log 8); which cause a token with several faults gives is the model's choice (log 19). -/
def Obligations.ServicePort : Prop :=
  (∀ (token : List Byte) (peer : DWord) (s : State),
    serving s = true →
    s.fw.session = none →
      exec (.svcSessionOpen token peer) s = .next (match tokenRefused token s with
        | some c => raise 0x9011 2 (word c :: dwords (leNat (slice 24 8 token))) (svcSend [word (statusCode .authFail)] [] (svcSeen s))
        | none => raise 0x9010 1
            (dwords (leNat (slice 24 8 token)) ++ [word (leNat (slice 20 1 token))] ++ dwords peer.toNat)
            (svcSend [word (statusCode .ok)] [] { svcSeen s with
              fw := { (svcSeen s).fw with session := some { rights := BitVec.ofNat 8 (leNat (slice 20 1 token)), tokenId := BitVec.ofNat 64 (leNat (slice 24 8 token)), lastMsg := s.clk } } }))) ∧
  (∀ (token : List Byte) (peer : DWord) (s : State),
    serving s = true →
    s.fw.session.isSome = true →
      exec (.svcSessionOpen token peer) s = .next (svcSeen s)) ∧
  (∀ (token : List Byte) (peer : DWord) (s : State),
    serving s = false →
      exec (.svcSessionOpen token peer) s = .next s) ∧
  (∀ (ws : List Word) (data : List Byte) (s : State),
      svcSend ws data s = emit (.svc (leBytes (4 * ws.length + data.length) 4 ++ wordsBytes ws ++ data)) s) ∧
  (∀ (token : List Byte) (s : State),
    (token.length ≠ 3341 ∨ leNat (slice 0 4 token) ≠ 0x544B4E31 ∨ leNat (slice 4 8 token) ≠ s.glb.serial.toNat) →
      tokenRefused token s = some 1) ∧
  (∀ (token : List Byte) (s : State) (nb na : Nat),
    token.length = 3341 →
    leNat (slice 0 4 token) = 0x544B4E31 →
    leNat (slice 4 8 token) = s.glb.serial.toNat →
    nb = leNat (slice 12 4 token) →
    na = leNat (slice 16 4 token) →
      (tokenKeys s = [] → tokenRefused token s = some 4) ∧
      (tokenKeys s ≠ [] → (∀ k ∈ tokenKeys s, signedBy k (slice 0 32 token) (slice 32 3309 token) = false) →
        tokenRefused token s = some 2) ∧
      ((∃ k ∈ tokenKeys s, signedBy k (slice 0 32 token) (slice 32 3309 token) = true) →
        tokenRefused token s =
          if nb ≤ s.tmu.sec.toNat ∧ s.tmu.sec.toNat ≤ na ∧ na ≤ nb + 604800 then none else some 3)) ∧
  (∀ (words : List Word) (env : Env) (s : State) (x : Session) (op b : Nat) (t : State) (r : Req),
    serving s = true →
    s.fw.session = some x →
    op = field (nth 0 words 0) 0 16 →
    rightFor op = some b →
    bit x.rights b = true →
    reqLength r ≤ words.length →
    t = svcSeen { s with fw := { s.fw with session := some { x with lastMsg := s.clk } } } →
    r = requestOf .service (nth 0 words 0) (nth 0 words 1) (nth 0 words) env →
      exec (.svcMessage words env) s = .next (runTaken ⟨BitVec.ofNat 16 op, { r with env := svcEnv r op (wordsBytes (words.drop (reqLength r))) }, t.mbx.orders, 0⟩ t)) ∧
  (∀ (words : List Word) (env : Env) (s : State) (x : Session) (op b : Nat) (t : State) (r : Req),
    serving s = true →
    s.fw.session = some x →
    op = field (nth 0 words 0) 0 16 →
    rightFor op = some b →
    bit x.rights b = true →
    words.length < reqLength r →
    t = svcSeen { s with fw := { s.fw with session := some { x with lastMsg := s.clk } } } →
    r = requestOf .service (nth 0 words 0) (nth 0 words 1) (nth 0 words) env →
      exec (.svcMessage words env) s = .next (complete { r with env := svcEnv r op (wordsBytes (words.drop (reqLength r))) } false .badLength [] [] t)) ∧
  (∀ (words : List Word) (env : Env) (s : State) (x : Session) (op b : Nat) (t : State) (r : Req),
    serving s = true →
    s.fw.session = some x →
    op = field (nth 0 words 0) 0 16 →
    rightFor op = some b →
    bit x.rights b = false →
    t = svcSeen { s with fw := { s.fw with session := some { x with lastMsg := s.clk } } } →
    r = requestOf .service (nth 0 words 0) (nth 0 words 1) (nth 0 words) env →
      exec (.svcMessage words env) s = .next (complete { r with env := svcEnv r op (wordsBytes (words.drop (reqLength r))) } false .authFail [] [] (raise 0x9011 2 ([5] ++ dwords x.tokenId.toNat ++ [word op]) t))) ∧
  (∀ (words : List Word) (env : Env) (s : State) (x : Session) (op : Nat) (t : State) (r : Req),
    serving s = true →
    s.fw.session = some x →
    op = field (nth 0 words 0) 0 16 →
    rightFor op = none →
    t = svcSeen { s with fw := { s.fw with session := some { x with lastMsg := s.clk } } } →
    r = requestOf .service (nth 0 words 0) (nth 0 words 1) (nth 0 words) env →
      exec (.svcMessage words env) s = .next (complete { r with env := svcEnv r op (wordsBytes (words.drop (reqLength r))) } false .badOpcode [] [] t)) ∧
  (∀ (words : List Word) (env : Env) (s : State),
    (serving s = false ∨ s.fw.session = none) →
      exec (.svcMessage words env) s = .next s) ∧
  (∀ (s : State) (x : Session),
    Alive s →
    s.fw.session = some x →
    ticksS 300 ≤ since x.lastMsg s →
      exec (.svcSessionIdleTimeout) s = .next (closeSession 1 s)) ∧
  (∀ (s : State) (x : Session),
    Alive s →
    s.fw.session = some x →
    since x.lastMsg s < ticksS 300 →
      exec (.svcSessionIdleTimeout) s = .next s) ∧
  (∀ (s : State),
    Alive s →
      exec (.svcSessionClose) s = .next (closeSession 2 s)) ∧
  (∀ (cause : Nat) (s : State) (x : Session),
    s.fw.session = some x →
      closeSession cause s = raise 0x9012 1 (dwords x.tokenId.toNat ++ [word cause]) { s with fw := { s.fw with session := none } }) ∧
  (∀ (s : State) (n : List Byte) (k : Nat),
    Alive s →
    s.fw.nonce = some (n, k) →
      exec (.testNonceExpiry) s = .next (if ticksS 60 ≤ since k s then { s with fw := { s.fw with nonce := none } } else s))

/-- R229, R232, R372, R380 to R385: the commands of the mirror engine complete. How the page writes of a copy are
laid in the store is said by sendPage, tableEntry and sealWords; the readings that they rest on are in logs 46
and 47. -/
def Obligations.MirrorCommands : Prop :=
  (∀ (s : State) (i : Nat),
    Sends s →
    s.resil.draining = some i →
      exec (.dirtyDrainEnd) s = .next (restoreGo restoreStages (spend i false { s with resil := { s.resil with draining := none } }))) ∧
  (∀ (s : State),
    Sends s →
    s.resil.draining = none →
      exec (.dirtyDrainEnd) s = .next (restoreGo restoreStages s)) ∧
  (∀ (s : State) (i : Nat),
    (schedOf s i).st = .firing →
      spend i false s = setSched i { schedOf s i with st := .spent, failed := false } s) ∧
  (∀ (header : List Byte) (s : State) (c : Copy) (h : List Byte) (t u : State),
    Sends s →
    s.resil.copy = some c →
    c.started = false →
    c.header = some h →
    halfFree h = true →
    t = { s with resil := { s.resil with copy := some { c with started := true, staged := [] } } } →
    (u = forAll (s.resil.image.filter (fun r => c.fullRegions.contains (r.job, r.region)))
        (fun r => putTable r.slot (tableEntry { r with since := some c.index }) 2) t) →
      exec (.mirrorCopyStart header) s = .next (forAll c.staged (fun p => sendPage p.1 p.2) u)) ∧
  (∀ (header : List Byte) (s : State) (c : Copy) (h : List Byte),
    Sends s →
    s.resil.copy = some c →
    c.started = false →
    c.header = some h →
    halfFree h = false →
      exec (.mirrorCopyStart header) s = .next (askHeader { s with resil := { s.resil with copy := some { c with header := none } } })) ∧
  (∀ (header : List Byte) (s : State),
    Sends s →
    (s.resil.copy = none ∨ ∃ c, s.resil.copy = some c ∧ (c.started = true ∨ c.header = none)) →
      exec (.mirrorCopyStart header) s = .next s) ∧
  (∀ (flaws : List Flaw) (s t : State) (c : Copy) (k : Nat),
    Sends s →
    t = inject flaws s →
    t.resil.copy = some c →
    (c.started = false ∨ c.staged = []) →
    nextPage c t = some k →
    stagedBytes t + 65536 ≤ 2 ^ 24 →
    1024 ≤ mirrorLines (frontOf (k / 2 ^ 22) t) t →
    (chanOf t (k / 2 ^ 22)).inService = false →
      exec (.mirrorPageRead flaws) s = .next (copyFail 1 1 t)) ∧
  (∀ (flaws : List Flaw) (s t : State) (c : Copy) (k : Nat) (u : State),
    Sends s →
    t = inject flaws s →
    t.resil.copy = some c →
    (c.started = false ∨ c.staged = []) →
    nextPage c t = some k →
    stagedBytes t + 65536 ≤ 2 ^ 24 →
    1024 ≤ mirrorLines (frontOf (k / 2 ^ 22) t) t →
    (chanOf t (k / 2 ^ 22)).inService = true →
    u = piecesTouch readerMirror (pagePieces k) (chargePieces atMirror 2 (pagePieces k) t) →
    piecesUe (pagePieces k) t = true →
      exec (.mirrorPageRead flaws) s = .next (copyFail 1 0x13 u)) ∧
  (∀ (flaws : List Flaw) (s t : State) (c : Copy) (k : Nat) (u v : State),
    Sends s →
    t = inject flaws s →
    t.resil.copy = some c →
    (c.started = false ∨ c.staged = []) →
    nextPage c t = some k →
    stagedBytes t + 65536 ≤ 2 ^ 24 →
    1024 ≤ mirrorLines (frontOf (k / 2 ^ 22) t) t →
    (chanOf t (k / 2 ^ 22)).inService = true →
    piecesUe (pagePieces k) t = false →
    u = piecesTouch readerMirror (pagePieces k) (chargePieces atMirror 2 (pagePieces k) t) →
    v = (if c.started then sendPage k (piecesBytes (pagePieces k) t) { u with resil := { u.resil with copy := some { c with todo := c.todo.filter (· ≠ k) } } }
        else { u with resil := { u.resil with
          copy := some { c with todo := c.todo.filter (· ≠ k), staged := c.staged ++ [(k, piecesBytes (pagePieces k) t)] } } }) →
      exec (.mirrorPageRead flaws) s = .next (retryWindows (releasePage k v))) ∧
  (∀ (flaws : List Flaw) (s t : State) (c : Copy) (k : Nat),
    Sends s →
    t = inject flaws s →
    t.resil.copy = some c →
    (c.started = false ∨ c.staged = []) →
    nextPage c t = some k →
    (2 ^ 24 < stagedBytes t + 65536 ∨ mirrorLines (frontOf (k / 2 ^ 22) t) t < 1024) →
      exec (.mirrorPageRead flaws) s = .next t) ∧
  (∀ (flaws : List Flaw) (s t : State),
    Sends s →
    t = inject flaws s →
    (t.resil.copy = none ∨ ∃ c, t.resil.copy = some c ∧ (c.started = false ∨ c.staged = []) ∧ nextPage c t = none) →
      exec (.mirrorPageRead flaws) s = .next t) ∧
  (∀ (flaws : List Flaw) (s t : State) (c : Copy) (k : Nat) (bs : List Byte) (l : List (Nat × List Byte)),
    Sends s →
    t = inject flaws s →
    t.resil.copy = some c →
    c.started = true →
    c.staged = (k, bs) :: l →
      exec (.mirrorPageRead flaws) s = .next (sendPage k bs { t with resil := { t.resil with copy := some { c with staged := l } } })) ∧
  (∀ (s : State) (c : Copy),
    Alive s →
    s.resil.copy = some c →
    c.started = true →
    c.sealing = false →
    c.todo = [] →
    c.staged = [] →
    (s.stitch.waitList.any (fun w => w.purpose = 2) = false) →
    (s.stitch.table.any (fun p => p.2.purpose = 2 && incomplete p.2) = false) →
      exec (.mirrorSeal) s = .next (askPool 64 3 (mirrorPut 20 (sealWords c s) s)
        { s with resil := { s.resil with copy := some { c with sealing := true } } })) ∧
  (∀ (s : State),
    Alive s →
    (s.resil.copy = none ∨ ∃ c, s.resil.copy = some c ∧ (c.started = false ∨ c.sealing = true ∨ c.todo ≠ [] ∨ c.staged ≠ [])) →
      exec (.mirrorSeal) s = .next s) ∧
  (∀ (k : Fin 4) (s : State) (x : Store) (t : State),
    Fed s →
    tget none s.resil.stores k = some x →
    x.sealAt.isSome = true →
    t = { s with resil := { s.resil with stores := tset none s.resil.stores k (some { x with sealAt := none }) } } →
      exec (.storeApply k) s = .next (match applySeal x t with
        | .ok p => p.2
        | .error u => u)) ∧
  (∀ (k : Fin 4) (s : State),
    Fed s →
    (tget none s.resil.stores k = none ∨ ∃ x, tget none s.resil.stores k = some x ∧ x.sealAt = none) →
      exec (.storeApply k) s = .next s) ∧
  (∀ (x : Store) (s t : State) (new old : Word) (half : Nat),
    new = hdrGet x 5 s →
    old = hdrGet x 6 s →
    half = field (hdrGet x 7 s) 0 1 →
    t = storeRead x 0 64 s →
      (old = noIndex → hdrGet x 10 s ≠ new → applySeal x s = applyIndex x half new t) ∧
      ((old ≠ noIndex ∨ hdrGet x 10 s = new) → applySeal x s = applyOld x t))

/-- R197, R385 to R387: HEARTBEAT_SEND, HEARTBEAT_RECEIVE and PEER_CHECK complete. The local address of the record's
bytes is free (log 42), and which cause a peer that is both silent and Halted gives is the model's choice. -/
def Obligations.HeartbeatCommands : Prop :=
  (∀ (s t : State),
    Sends s →
    serving s = true →
    s.resil.peers ≠ [] →
    t = { s with resil := { s.resil with hbSeq := s.resil.hbSeq + 1 } } →
      exec (.heartbeatSend) s = .next (forAll t.resil.peers (fun p u => askPool 65 4
        { op := 1, phys := true, cls := 3, source := 2, len := 32, target := pga p.id 3 (0x01000000 + 32 * ownId u), localPa := Config.stagingPa u.stitch.issued p.id, data := wordsBytes (hbRecord t.resil.hbSeq t) } u) t)) ∧
  (∀ (s : State),
    Sends s →
    (serving s = false ∨ s.resil.peers = []) →
      exec (.heartbeatSend) s = .next s) ∧
  (∀ (hb : Vector Word 8) (s : State) (m : Nat),
    serving s = true →
    s.glb.state ≠ .halted →
    m = field (nth 0 hb.toList 0) 0 16 →
    field (nth 0 hb.toList 0) 16 4 ≠ 7 →
    (s.resil.peers.any (fun p => p.id = m && p.lost) = true) →
      exec (.heartbeatReceive hb) s = .next (raise 0x8011 1 [word m] { s with
        resil := { s.resil with peers := s.resil.peers.map (fun p =>
          if p.id = m then { p with lastAt := s.clk, hb := hb.toList, lost := false } else p) } })) ∧
  (∀ (hb : Vector Word 8) (s : State) (m : Nat),
    serving s = true →
    s.glb.state ≠ .halted →
    m = field (nth 0 hb.toList 0) 0 16 →
    (field (nth 0 hb.toList 0) 16 4 = 7 ∨ s.resil.peers.any (fun p => p.id = m && p.lost) = false) →
      exec (.heartbeatReceive hb) s = .next { s with
        resil := { s.resil with peers := s.resil.peers.map (fun p =>
          if p.id = m then { p with lastAt := s.clk, hb := hb.toList, lost := p.lost && decide (field (nth 0 hb.toList 0) 16 4 = 7) } else p) } }) ∧
  (∀ (hb : Vector Word 8) (s : State) (m : Nat),
    serving s = true →
    s.glb.state = .halted →
    m = field (nth 0 hb.toList 0) 0 16 →
      exec (.heartbeatReceive hb) s = .next (refuseHalted m (pga (ownId s) 3 (0x01000000 + 32 * m)) s)) ∧
  (∀ (hb : Vector Word 8) (s : State),
    Alive s →
    serving s = false →
      exec (.heartbeatReceive hb) s = .next s) ∧
  (∀ (i : Fin 64) (s : State) (p : Peer) (silent : Bool) (t : State),
    serving s = true →
    s.resil.peers[i.val]? = some p →
    p.lost = false →
    silent = decide (ticksUs (s.resil.miss * s.resil.hbUs) ≤ since p.lastAt s) →
    (silent = true ∨ (p.hb ≠ [] ∧ field (nth 0 p.hb 0) 16 4 = 7)) →
    (t = raise 0x8010 3 [word p.id, word (if silent then 0 else 1), word (since p.lastAt s / 500000)] { s with
        resil := { s.resil with peers := s.resil.peers.map (fun x => if x.id = p.id then { x with lost := true } else x) } }) →
      exec (.peerCheck i) s = .next (if t.resil.buddy = some p.id then copyFail 4 0 t else t)) ∧
  (∀ (i : Fin 64) (s : State),
    serving s = true →
    (s.resil.peers[i.val]? = none ∨ ∃ p, s.resil.peers[i.val]? = some p ∧ (p.lost = true ∨ (since p.lastAt s < ticksUs (s.resil.miss * s.resil.hbUs) ∧ (p.hb = [] ∨ field (nth 0 p.hb 0) 16 4 ≠ 7)))) →
      exec (.peerCheck i) s = .next s)

/-- R114, R119, R120, R134 to R139 and R141: the waiting steps of a Pattern and their ends complete. -/
def Obligations.SequencerWaits : Prop :=
  (∀ (t : Fin 64) (s : State) (st : BitVec 256) (target : Word) (x : Tile),
    Fed s →
    toIssue 4 t s = some st →
    target = stepWord st 3 + BitVec.ofInt 32 (nextStep (tileOf s t) st 0) →
    (tget 0 (tileOf s t).tallies (sf st 2 0 6) - target).toNat < 2 ^ 31 →
    sb st 2 6 = true →
    x = { tileOf s t with tallies := tset 0 (tileOf s t).tallies (sf st 2 0 6) (tget 0 (tileOf s t).tallies (sf st 2 0 6) - target) } →
      exec (.wait t) s = .next (setTile t { x with pc := x.pc + 1, hold := .none } (setTile t x s))) ∧
  (∀ (t : Fin 64) (s : State) (st : BitVec 256) (target : Word),
    Fed s →
    toIssue 4 t s = some st →
    target = stepWord st 3 + BitVec.ofInt 32 (nextStep (tileOf s t) st 0) →
    (tget 0 (tileOf s t).tallies (sf st 2 0 6) - target).toNat < 2 ^ 31 →
    sb st 2 6 = false →
      exec (.wait t) s = .next (setTile t { tileOf s t with pc := (tileOf s t).pc + 1, hold := .none } s)) ∧
  (∀ (t : Fin 64) (s : State) (st : BitVec 256) (target : Word),
    Fed s →
    toIssue 4 t s = some st →
    target = stepWord st 3 + BitVec.ofInt 32 (nextStep (tileOf s t) st 0) →
    2 ^ 31 ≤ (tget 0 (tileOf s t).tallies (sf st 2 0 6) - target).toNat →
      exec (.wait t) s = .next (setTile t { tileOf s t with hold := .wait (sf st 2 0 6) target (sb st 2 6) (sf st 4 0 24) (siteNow s) } s)) ∧
  (∀ (t : Fin 64) (s : State) (n : Nat) (v : Word) (c : Bool) (us : Nat) (since0 : BitVec 48),
    Fed s →
    (tileOf s t).hold = .wait n v c us since0 →
    (tget 0 (tileOf s t).tallies n - v).toNat < 2 ^ 31 →
      exec (.waitMet t) s = .next (passWait t n v c s)) ∧
  (∀ (t n : Nat) (v : Word) (c : Bool) (s u : State),
    u = (if c then setTile t { tileOf s t with tallies := tset 0 (tileOf s t).tallies n (tget 0 (tileOf s t).tallies n - v) } s else s) →
      passWait t n v c s = setTile t { tileOf u t with pc := (tileOf u t).pc + 1, hold := .none } u) ∧
  (∀ (t : Fin 64) (s : State) (n : Nat) (v : Word) (c : Bool) (us : Nat) (since0 : BitVec 48),
    Fed s →
    (tileOf s t).hold = .wait n v c us since0 →
    2 ^ 31 ≤ (tget 0 (tileOf s t).tallies n - v).toNat →
      exec (.waitMet t) s = .next s) ∧
  (∀ (t : Fin 64) (s : State) (n : Nat) (v : Word) (c : Bool) (us : Nat) (since0 : BitVec 48),
    Fed s →
    (tileOf s t).hold = .wait n v c us since0 →
    us ≠ 0 →
    (1000 * us : Nat) ≤ siteDiff (siteNow s) since0 →
    2 ^ 31 ≤ (tget 0 (tileOf s t).tallies n - v).toNat →
      exec (.waitTimeout t) s = .next (roleFault t 8 (tileOf s t).pc s)) ∧
  (∀ (t : Fin 64) (s : State) (n : Nat) (v : Word) (c : Bool) (us : Nat) (since0 : BitVec 48),
    Fed s →
    (tileOf s t).hold = .wait n v c us since0 →
    (us = 0 ∨ siteDiff (siteNow s) since0 < (1000 * us : Nat) ∨ (tget 0 (tileOf s t).tallies n - v).toNat < 2 ^ 31) →
      exec (.waitTimeout t) s = .next s) ∧
  (∀ (t : Fin 64) (s : State) (st : BitVec 256) (target : Word) (x : Tile),
    Fed s →
    toIssue 7 t s = some st →
    target = timeBase (tileOf s t) (jobOf s ((tileOf s t).job.getD 0)).startNs (sf st 2 0 2) + stepWord st 3 →
    x = { tileOf s t with prevTarget := target } →
    2 ^ 31 ≤ (s.tmu.ns - target).toNat →
      exec (.timewait t) s = .next (setTile t { x with hold := .time target } (setTile t x s))) ∧
  (∀ (t : Fin 64) (s : State) (st : BitVec 256) (target : Word) (x : Tile),
    Fed s →
    toIssue 7 t s = some st →
    target = timeBase (tileOf s t) (jobOf s ((tileOf s t).job.getD 0)).startNs (sf st 2 0 2) + stepWord st 3 →
    x = { tileOf s t with prevTarget := target } →
    (s.tmu.ns - target).toNat < 2 ^ 31 →
    (s.tmu.ns - target).toNat ≤ (stepWord st 4).toNat →
      exec (.timewait t) s = .next (setTile t { x with pc := x.pc + 1, hold := .none } (setTile t x s))) ∧
  (∀ (t : Fin 64) (s : State) (st : BitVec 256) (target : Word) (x : Tile) (late : Nat) (u : State),
    Fed s →
    toIssue 7 t s = some st →
    target = timeBase (tileOf s t) (jobOf s ((tileOf s t).job.getD 0)).startNs (sf st 2 0 2) + stepWord st 3 →
    x = { tileOf s t with prevTarget := target } →
    late = (s.tmu.ns - target).toNat →
    late < 2 ^ 31 →
    (stepWord st 4).toNat < late →
    u = setTile t x s →
      exec (.timewait t) s = .next (if sb st 2 2 then roleFault t 9 x.pc u
        else goOn t (tellOnce t 3 (raise 0x3014 2 [word ((tileOf s t).job.getD 0), word t, word x.pc, word late]) u))) ∧
  (∀ (t : Fin 64) (s : State) (target : Word),
    Fed s →
    (tileOf s t).hold = .time target →
    2 ^ 31 ≤ (s.tmu.ns - target).toNat →
      exec (.timewaitRelease t) s = .next s) ∧
  (∀ (t : Fin 64) (s : State) (target : Word),
    Fed s →
    (tileOf s t).hold = .time target →
    (s.tmu.ns - target).toNat < 2 ^ 31 →
      exec (.timewaitRelease t) s = .next (setTile t { tileOf s t with pc := (tileOf s t).pc + 1, hold := .none } s)) ∧
  (∀ (t : Fin 64) (s : State) (st : BitVec 256),
    Fed s →
    toIssue 6 t s = some st →
    (sb st 2 3 = false ∨ sf st 3 0 17 < 98304) →
    fenceMet t (sf st 2 0 5) s = true →
      exec (.fence t) s = .next (fenceAct t (sf st 2 0 5) (sf st 3 0 17) s)) ∧
  (∀ (t bits line : Nat) (s u v : State),
    u = (if bits / 8 % 2 = 1 then sramWrite t (64 * line) (leBytes (tileFlags (tileOf s t)) 64) s else s) →
    v = (if bits / 16 % 2 = 1 then setTile t { tileOf u t with nan := false, ovf := false, ternInv := false } u else u) →
      fenceAct t bits line s = setTile t { tileOf v t with pc := (tileOf v t).pc + 1, hold := .none } v) ∧
  (∀ (t : Fin 64) (s : State) (st : BitVec 256),
    Fed s →
    toIssue 6 t s = some st →
    (sb st 2 3 = false ∨ sf st 3 0 17 < 98304) →
    fenceMet t (sf st 2 0 5) s = false →
      exec (.fence t) s = .next (setTile t { tileOf s t with hold := .fence (sf st 2 0 5) (sf st 3 0 17) } s)) ∧
  (∀ (t : Fin 64) (s : State) (st : BitVec 256),
    Fed s →
    toIssue 6 t s = some st →
    sb st 2 3 = true →
    98304 ≤ sf st 3 0 17 →
      exec (.fence t) s = .next (roleFault t 6 (tileOf s t).pc s)) ∧
  (∀ (t : Fin 64) (s : State) (bits line : Nat),
    Fed s →
    (tileOf s t).hold = .fence bits line →
    fenceMet t bits s = false →
      exec (.fenceRelease t) s = .next s) ∧
  (∀ (t : Fin 64) (s u : State),
    Fed s →
    toIssue 4 t s = none →
    toIssue 7 t s = none →
    toIssue 6 t s = none →
    u = (if ranOff t s then roleFault t 0x0B ((tileOf s t).prog.length - 1) s else s) →
      exec (.wait t) s = .next u ∧ exec (.timewait t) s = .next u ∧ exec (.fence t) s = .next u) ∧
  (∀ (t : Fin 64) (s : State),
    Fed s →
    (tileOf s t).hold = .none →
      exec (.waitMet t) s = .next s ∧ exec (.waitTimeout t) s = .next s ∧ exec (.timewaitRelease t) s = .next s ∧ exec (.fenceRelease t) s = .next s) ∧
  (∀ (t : Fin 64) (s : State) (bits line : Nat),
    Fed s →
    (tileOf s t).hold = .fence bits line →
    fenceMet t bits s = true →
      exec (.fenceRelease t) s = .next (fenceAct t bits line s))

/-- R114, R138, R140, R146, R147 and R150: the control steps of a Pattern and the start of a job complete. -/
def Obligations.SequencerSteps : Prop :=
  (∀ (t : Fin 64) (s : State) (st : BitVec 256) (x : Tile),
    Fed s →
    toIssue 5 t s = some st →
    tget 0 (tileOf s t).loops (sf st 2 12 2) = sf st 3 0 16 →
    x = { tileOf s t with loops := tset 0 (tileOf s t).loops (sf st 2 12 2) 0 } →
      exec (.loop t) s = .next (setTile t { x with pc := x.pc + 1, hold := .none } (setTile t x s))) ∧
  (∀ (t : Fin 64) (s : State) (st : BitVec 256),
    Fed s →
    toIssue 5 t s = some st →
    tget 0 (tileOf s t).loops (sf st 2 12 2) ≠ sf st 3 0 16 →
      exec (.loop t) s = .next (setTile t { tileOf s t with
        loops := tset 0 (tileOf s t).loops (sf st 2 12 2) ((tget 0 (tileOf s t).loops (sf st 2 12 2) + 1) % 65536), pc := sf st 2 0 12 } s)) ∧
  (∀ (t : Fin 64) (s : State) (st : BitVec 256),
    Fed s →
    toIssue 0 t s = some st →
      exec (.endStep t) s = .next (setTile t { tileOf s t with hold := .ending (sf st 2 0 16) } s)) ∧
  (∀ (t : Fin 64) (s : State) (code j : Nat) (u : State),
    Fed s →
    (tileOf s t).hold = .ending code →
    (tileOf s t).job = some j →
    fenceMet t 7 s = true →
    u = setTile t { tileOf s t with run := .ended, hold := .none, exitCode := code } s →
      exec (.roleEnd t) s = .next (jobDone j (setJob j { jobOf u j with
        exitCode := if (jobOf u j).exitCode = 0 then code else (jobOf u j).exitCode } u))) ∧
  (∀ (j : Nat) (s u : State),
    (jobOf s j).status = .running →
    runningTiles j s = [] →
    (jobOf s j).stopping = none →
    u = changeStatus j .done s →
      jobDone j s = reevaluate 0x3011 (raise 0x3011 1 [word j, (jobOf u j).tag, word (jobOf u j).exitCode] u)) ∧
  (∀ (j : Fin 16) (s : State) (i : Nat),
    Fed s →
    (jobOf s j).entry = some i →
    (jobOf s j).status = .armed →
    (jobOf s j).firing = true →
      exec (.jobStartInstant j) s = .next (spend i false (startJob j ((schedOf s i).instant.setWidth 32) s))) ∧
  (∀ (j : Nat) (s : State),
    ((jobOf s j).status ≠ .running ∨ runningTiles j s ≠ [] ∨ (jobOf s j).stopping ≠ none) →
      jobDone j s = s) ∧
  (∀ (t : Fin 64) (s : State),
    Fed s →
    ((∀ code, (tileOf s t).hold ≠ .ending code) ∨ (tileOf s t).job = none ∨ fenceMet t 7 s = false) →
      exec (.roleEnd t) s = .next s) ∧
  (∀ (j : Fin 16) (s : State),
    Fed s →
    ((jobOf s j).entry = none ∨ (jobOf s j).status ≠ .armed ∨ (jobOf s j).firing = false) →
      exec (.jobStartInstant j) s = .next s) ∧
  (∀ (t : Fin 64) (s u : State),
    Fed s →
    toIssue 5 t s = none →
    toIssue 0 t s = none →
    u = (if ranOff t s then roleFault t 0x0B ((tileOf s t).prog.length - 1) s else s) →
      exec (.loop t) s = .next u ∧ exec (.endStep t) s = .next u)

/-- R115, R116, R124 to R130 and R141: the unit steps complete. That the arithmetic and the writes happen when the
step issues, and not over its run, is the model's choice (log 40). -/
def Obligations.EngineSteps : Prop :=
  (∀ (t : Fin 64) (flaws : List Flaw) (s : State) (st : BitVec 256) (u : State) (m : MatStep) (p : MatPlaces) (w : State) (o : UnitOp),
    Fed s →
    toIssue 1 t s = some st →
    (tileOf s t).matrixOp = none →
    u = inject flaws s →
    m = matStep st →
    p = matPlaces (tileOf s t) st →
    matInRange m p = true →
    (m.mode = 2 → scaleOk (nth 0 (bytesWords (stepBytes t m.param 64 u)) 1) = true ∧ scaleOk (nth 0 (bytesWords (stepBytes t m.param 64 u)) 2) = true) →
    w = matRun t m p u →
    o = unitOp (tileOf s t) st (matIns m p) (matOuts m p) (0, 128 * m.M) (m.wf = 11) →
      exec (.matrix t flaws) s = .next (setTile t { tileOf w t with matrixOp := some o, pc := if o.detach then (tileOf w t).pc + 1 else (tileOf w t).pc, hold := if o.detach then .none else .matrix } w)) ∧
  (∀ (t : Fin 64) (flaws : List Flaw) (s : State) (st : BitVec 256) (u : State) (m : MatStep),
    Fed s →
    toIssue 1 t s = some st →
    (tileOf s t).matrixOp = none →
    u = inject flaws s →
    m = matStep st →
    matInRange m (matPlaces (tileOf s t) st) = true →
    m.mode = 2 →
    (scaleOk (nth 0 (bytesWords (stepBytes t m.param 64 u)) 1) = false ∨ scaleOk (nth 0 (bytesWords (stepBytes t m.param 64 u)) 2) = false) →
      exec (.matrix t flaws) s = .next (roleFault t 7 (tileOf (stepTouch t [(m.param, 64)] u) t).pc (stepTouch t [(m.param, 64)] u))) ∧
  (∀ (t : Fin 64) (flaws : List Flaw) (s : State) (st : BitVec 256),
    Fed s →
    toIssue 1 t s = some st →
    (tileOf s t).matrixOp = none →
    matInRange (matStep st) (matPlaces (tileOf s t) st) = false →
      exec (.matrix t flaws) s = .next (roleFault t 6 (tileOf (inject flaws s) t).pc (inject flaws s))) ∧
  (∀ (t : Fin 64) (flaws : List Flaw) (s : State) (st : BitVec 256) (o : UnitOp),
    Fed s →
    toIssue 1 t s = some st →
    (tileOf s t).matrixOp = some o →
      exec (.matrix t flaws) s = .next s) ∧
  (∀ (t : Fin 64) (flaws : List Flaw) (s : State) (st : BitVec 256) (u : State) (x : Tile) (v : VecStep) (param : List Word) (r : VecResult) (w : State) (o : UnitOp),
    Fed s →
    toIssue 2 t s = some st →
    (tileOf s t).vectorOp = none →
    u = inject flaws s →
    x = tileOf s t →
    v = vecStep x st →
    param = (if v.readsParam && inSram v.param 64 then bytesWords (stepBytes t v.param 64 u) else []) →
    ((v.insSpans param ++ v.outSpans param).all (fun p => inSram p.1 p.2) = true) →
    (v.mode = 2 → scaleOk (nth 0 param 0) = true) →
    (r = vecResult v param (vecLoad t v param v.a u) (vecLoad t v param v.b u) (vecLoad t v param v.c u)
      { lfsr := x.lfsr, ternInv := v.operands.findSome? (fun o => vecInvalid t v.n o u) }) →
    w = keepArith t r.arith (vecStore t v param r (stepTouch t ((v.insSpans param).map spanRange) u)) →
    o = unitOp x st ((v.insSpans param).map spanRange) ((v.outSpans param).map spanRange) (v.outWords r) (v.operands.any (·.tern)) →
      exec (.vector t flaws) s = .next (setTile t { tileOf w t with vectorOp := some o, pc := if o.detach then (tileOf w t).pc + 1 else (tileOf w t).pc, hold := if o.detach then .none else .vector } w)) ∧
  (∀ (t : Fin 64) (flaws : List Flaw) (s : State) (st : BitVec 256) (u : State) (v : VecStep) (param : List Word),
    Fed s →
    toIssue 2 t s = some st →
    (tileOf s t).vectorOp = none →
    u = inject flaws s →
    v = vecStep (tileOf s t) st →
    param = (if v.readsParam && inSram v.param 64 then bytesWords (stepBytes t v.param 64 u) else []) →
    ((v.insSpans param ++ v.outSpans param).all (fun p => inSram p.1 p.2) = false) →
      exec (.vector t flaws) s = .next (roleFault t 6 (tileOf u t).pc u)) ∧
  (∀ (t : Fin 64) (flaws : List Flaw) (s : State) (st : BitVec 256) (o : UnitOp),
    Fed s →
    toIssue 2 t s = some st →
    (tileOf s t).vectorOp = some o →
      exec (.vector t flaws) s = .next s) ∧
  (∀ (t : Fin 64) (s : State) (o : UnitOp),
    Fed s →
    (tileOf s t).matrixOp = some o →
      exec (.matrixComplete t) s = .next (unitDone t o (setTile t { tileOf s t with matrixOp := none } s))) ∧
  (∀ (t : Fin 64) (s : State) (o : UnitOp),
    Fed s →
    (tileOf s t).vectorOp = some o →
      exec (.vectorComplete t) s = .next (unitDone t o (setTile t { tileOf s t with vectorOp := none } s))) ∧
  (∀ (t : Nat) (o : UnitOp) (n : Nat) (s u : State),
    o.done = some n →
    o.detach = false →
    u = setTile t { tileOf s t with tallies := tset 0 (tileOf s t).tallies n (tget 0 (tileOf s t).tallies n + 1) } s →
      unitDone t o s = setTile t { tileOf u t with pc := (tileOf u t).pc + 1, hold := .none } u)

/-- R131, R162, R173, R181, R185 to R191: the commands of the Stitch unit as an initiator. That a waiting tile is
granted an entry of its own range before the pool serves anyone is an inference (log 42, DEDUCED); in which
order responses of several ports come is the model's choice (log 70). -/
def Obligations.StitchInitiator : Prop :=
  (∀ (t : Fin 64) (flaws : List Flaw) (s u : State) (st : BitVec 256) (d : Desc) (w : State) (e : Nat),
    Sends s →
    u = inject flaws s →
    toIssue 3 t u = some st →
    formDesc t st u = .ok d →
    w = (if isFetching d.op then useFresh 1 (sramTouch t readerSend d.localOff (footprint d.op d.len) u) else u) →
    freeIn (128 * t) 128 w = some e →
      exec (.stitch t flaws) s = .next (startOp e t (tileOf u t).pc 0 d (goOn t w))) ∧
  (∀ (t : Fin 64) (flaws : List Flaw) (s u : State) (st : BitVec 256) (d : Desc) (w v : State),
    Sends s →
    u = inject flaws s →
    toIssue 3 t u = some st →
    formDesc t st u = .ok d →
    w = (if isFetching d.op then useFresh 1 (sramTouch t readerSend d.localOff (footprint d.op d.len) u) else u) →
    freeIn (128 * t) 128 w = none →
    v = setTile t { tileOf w t with hold := .entry } w →
      exec (.stitch t flaws) s = .next { v with
        stitch := { v.stitch with waitList := w.stitch.waitList ++ [{ who := t, at0 := w.clk, desc := d, step := (tileOf u t).pc }] } }) ∧
  (∀ (t : Fin 64) (flaws : List Flaw) (s u : State) (st : BitVec 256) (c : Nat),
    Sends s →
    u = inject flaws s →
    toIssue 3 t u = some st →
    formDesc t st u = .error c →
      exec (.stitch t flaws) s = .next (roleFault t c (tileOf u t).pc u)) ∧
  (∀ (s : State) (e : Nat) (w : Waiter),
    Sends s →
    ownGrant s = some (e, w) →
      exec (.stitchEntryGrant) s = .next (restoreGo restoreStages (grantTo e w s))) ∧
  (∀ (s : State),
    Sends s →
    ownGrant s = none →
      exec (.stitchEntryGrant) s = .next (restoreGo restoreStages (poolGrant s))) ∧
  (∀ (k part : Nat) (s : State),
      segmentDue k part s = true ↔ (entryOf s k).cond = .waiting ∧ (entryOf s k).error = 0 ∧
        (part < segments (entryOf s k).desc ∨ ((entryOf s k).desc.op = 2 ∧ part = 16)) ∧ tget none (entryOf s k).sent part = none ∧
        (part = 16 → ∀ i < segments (entryOf s k).desc, (entryOf s k).done.contains i = true)) ∧
  (∀ (k : Fin 16384) (part : Fin 17) (flaws : List Flaw) (s u : State) (dest : Nat),
    Sends s →
    u = inject flaws s →
    segmentDue k part u = true →
    copyReadFails k part u = none →
    ((entryOf u k).sent.isEmpty && mustHold k u) = false →
    partDest (entryOf u k).desc part u = some dest →
      exec (.stitchSegmentSend k part flaws) s = .next (restoreGo restoreStages (sendPart k part dest u))) ∧
  (∀ (k : Fin 16384) (part : Fin 17) (flaws : List Flaw) (s u : State),
    Sends s →
    u = inject flaws s →
    segmentDue k part u = true →
    copyReadFails k part u = none →
    ((entryOf u k).sent.isEmpty && mustHold k u) = false →
    partDest (entryOf u k).desc part u = none →
      exec (.stitchSegmentSend k part flaws) s = .next (restoreGo restoreStages (recordError k 1 u))) ∧
  (∀ (k : Fin 16384) (part : Fin 17) (flaws : List Flaw) (s u : State),
    Sends s →
    u = inject flaws s →
    segmentDue k part u = true →
    copyReadFails k part u = none →
    (entryOf u k).sent = [] →
    mustHold k u = true →
      exec (.stitchSegmentSend k part flaws) s = .next (restoreGo restoreStages (setEntry k { entryOf u k with cond := .held } u))) ∧
  (∀ (k : Fin 16384) (part : Fin 17) (flaws : List Flaw) (s u v : State),
    Sends s →
    u = inject flaws s →
    copyReadFails k part u = some v →
      exec (.stitchSegmentSend k part flaws) s = .next (restoreGo restoreStages (moveAbort 2 0 v))) ∧
  (∀ (k : Fin 16384) (part : Fin 17) (flaws : List Flaw) (s u : State),
    Sends s →
    u = inject flaws s →
    segmentDue k part u = false →
      exec (.stitchSegmentSend k part flaws) s = .next (restoreGo restoreStages u)) ∧
  (∀ (n : Nat) (s : State),
    s.resil.restore = none →
      restoreGo n s = s) ∧
  (∀ (k : Fin 16384) (s : State),
    Sends s →
    (entryOf s k).cond = .held →
    mustHold k s = false →
      exec (.heldOperationRelease k) s = .next (setEntry k { entryOf s k with cond := .waiting } s)) ∧
  (∀ (s v : State) (p : Pkt) (rest : List Pkt) (u : State) (q e part : Nat),
    Sends s →
    v = nextResponse s →
    v.fabric.inResp = p :: rest →
    u = { v with fabric := { v.fabric with inResp := rest } } →
    q = bytesAt p.bytes 4 4 →
    e = q % 2 ^ 14 →
    (entryOf u e).cond = .waiting →
    (entryOf u e).gen = q / 2 ^ 14 % 16 →
    20 ≤ p.bytes.length →
    checkGood (foldPrefix (ownId u) (q % 2 ^ 24) (entryOf u e).desc.op) p.bytes = true →
    part = (if q / 2 ^ 23 % 2 = 1 then 16 else q / 2 ^ 18 % 16) →
    tget none (entryOf u e).sent part ≠ none →
    (entryOf u e).done.contains part = false →
      exec (.stitchResponseReceive) s = .next (restoreGo restoreStages (acceptPart e part (bytesAt p.bytes 0 1) ((p.bytes.drop 16).take (p.bytes.length - 20)) u))) ∧
  (∀ (k : Fin 16384) (s : State) (eye : Bool) (u v : State),
    Sends s →
    (entryOf s k).cond = .waiting →
    answerHere k s = false →
    expired (entryOf s k) s = some eye →
    u = countStitch (if eye then 4 else 3) s →
    (v = setEntry k { entryOf u k with error := if (entryOf u k).error = 0 then 0x20 else (entryOf u k).error } u) →
      exec (.stitchTimeout k) s = .next (restoreGo restoreStages (failOp k (some (timeoutTicks eye (entryOf s k))) v))) ∧
  (∀ (k : Fin 16384) (s : State) (n m : Nat),
    Fed s →
    (entryOf s k).quarantine = some (n, m) →
    (entryOf s k).cond = .quarantine →
    m ≤ since n s →
      exec (.quarantineEnd k) s = .next (freeEntry k s))

/-- R180, R194, R197 and R380: STITCH_REQUEST_RECEIVE completes. In which order requests of several controllers come
is the model's choice (log 70). -/
def Obligations.StitchTarget : Prop :=
  (∀ (flaws : List Flaw) (s v : State) (p : Pkt) (rest : List Pkt) (u : State) (q : Request),
    serving s = true →
    s.power.failing = false →
    v = nextRequest s →
    v.fabric.inReq = p :: rest →
    u = inject flaws { v with fabric := { v.fabric with inReq := rest } } →
    q = readRequest p.bytes →
    (28 ≤ p.bytes.length && checkGood (foldPrefix (ownId u) q.seq q.dest) p.bytes) = true →
    u.glb.state = .halted →
      exec (.stitchRequestReceive flaws) s = .next (refuse p q 3 u)) ∧
  (∀ (flaws : List Flaw) (s v : State) (p : Pkt) (rest : List Pkt) (u : State) (q : Request),
    serving s = true →
    s.power.failing = false →
    v = nextRequest s →
    v.fabric.inReq = p :: rest →
    u = inject flaws { v with fabric := { v.fabric with inReq := rest } } →
    q = readRequest p.bytes →
    (28 ≤ p.bytes.length && checkGood (foldPrefix (ownId u) q.seq q.dest) p.bytes) = true →
    u.glb.state ≠ .halted →
    badSpace q = true →
      exec (.stitchRequestReceive flaws) s = .next (refuse p q 4 u)) ∧
  (∀ (flaws : List Flaw) (s v : State) (p : Pkt) (rest : List Pkt) (u : State) (q : Request),
    serving s = true →
    s.power.failing = false →
    v = nextRequest s →
    v.fabric.inReq = p :: rest →
    u = inject flaws { v with fabric := { v.fabric with inReq := rest } } →
    q = readRequest p.bytes →
    (28 ≤ p.bytes.length && checkGood (foldPrefix (ownId u) q.seq q.dest) p.bytes) = true →
    u.glb.state ≠ .halted →
    badSpace q = false →
    boundPlace p q u = none →
      exec (.stitchRequestReceive flaws) s = .next (refuse p q 1 u)) ∧
  (∀ (flaws : List Flaw) (s v : State) (p : Pkt) (rest : List Pkt) (u : State) (q : Request) (pl : Place0) (k : Nat),
    serving s = true →
    s.power.failing = false →
    v = nextRequest s →
    v.fabric.inReq = p :: rest →
    u = inject flaws { v with fabric := { v.fabric with inReq := rest } } →
    q = readRequest p.bytes →
    (28 ≤ p.bytes.length && checkGood (foldPrefix (ownId u) q.seq q.dest) p.bytes) = true →
    u.glb.state ≠ .halted →
    badSpace q = false →
    boundPlace p q u = some pl →
    pageWaits q pl u = some k →
      exec (.stitchRequestReceive flaws) s = .next (holdRequest p q pl u)) ∧
  (∀ (flaws : List Flaw) (s v : State) (p : Pkt) (rest : List Pkt) (u : State) (q : Request) (pl : Place0),
    serving s = true →
    s.power.failing = false →
    v = nextRequest s →
    v.fabric.inReq = p :: rest →
    u = inject flaws { v with fabric := { v.fabric with inReq := rest } } →
    q = readRequest p.bytes →
    (28 ≤ p.bytes.length && checkGood (foldPrefix (ownId u) q.seq q.dest) p.bytes) = true →
    u.glb.state ≠ .halted →
    badSpace q = false →
    boundPlace p q u = some pl →
    pageWaits q pl u = none →
      exec (.stitchRequestReceive flaws) s = .next (applyRequest p q pl u)) ∧
  (∀ (flaws : List Flaw) (s v : State) (p : Pkt) (rest : List Pkt) (u : State) (q : Request),
    serving s = true →
    s.power.failing = false →
    v = nextRequest s →
    v.fabric.inReq = p :: rest →
    u = inject flaws { v with fabric := { v.fabric with inReq := rest } } →
    q = readRequest p.bytes →
    (28 ≤ p.bytes.length && checkGood (foldPrefix (ownId u) q.seq q.dest) p.bytes) = false →
      exec (.stitchRequestReceive flaws) s = .next (raiseLimited 0x4081 2 p.src (ticksMs 100) 1 (fun n => [word p.src, word p.cls, word n])
        { u with stitch := { u.stitch with counts := tset 0 u.stitch.counts 1 (tget 0 u.stitch.counts 1 + 1) } })) ∧
  (∀ (flaws : List Flaw) (s v : State),
    serving s = true →
    s.power.failing = false →
    v = nextRequest s →
    v.fabric.inReq = [] →
      exec (.stitchRequestReceive flaws) s = .next v) ∧
  (∀ (flaws : List Flaw) (s : State),
    Fed s →
    serving s = false →
      exec (.stitchRequestReceive flaws) s = .next s) ∧
  (∀ (s : State),
    s.fabric.inReq ≠ [] →
      nextRequest s = s)

/-- R203 to R208, R217, R221 to R226 and R234: the commands of tile SRAM and of the MRDIMM channels complete. The
cause codes 0, 1 and 2 of 0x2005, the action mask of 0x1020 and how parity errors are counted are the model's
choice (log 45), the abort cause 3 of a move is so too (log 44). -/
def Obligations.MemoryCommands : Prop :=
  (∀ (t : Fin 64) (w : Nat) (s : State) (k : Nat),
    Fed s →
    w < 2 ^ 20 →
    k = t.val * 2 ^ 20 + w →
    s.mem.sramRewrites.contains k = true →
      exec (.sramCorrectionRewrite t w) s = .next { s with
        mem := { s.mem with sramBad := if tget 0 s.mem.sramBad k = 1 then tset 0 s.mem.sramBad k 0 else s.mem.sramBad, sramRewrites := s.mem.sramRewrites.filter (· ≠ k) } }) ∧
  (∀ (t : Fin 64) (w : Nat) (s : State),
    Fed s →
    (2 ^ 20 ≤ w ∨ s.mem.sramRewrites.contains (t.val * 2 ^ 20 + w) = false) →
      exec (.sramCorrectionRewrite t w) s = .next s) ∧
  (∀ (t : Fin 64) (b : Fin 48) (flaws : List Flaw) (s u : State),
    Fed s →
    u = inject flaws s →
      exec (.sramBankScrub t b flaws) s = .next (forAll (badWords t b u) (fun w v => sramRewrite (sramWord t w) (sramReadWord t readerScrub w v)) u)) ∧
  (∀ (c : Fin 12) (line : Nat) (s : State) (r : Nat × List Byte),
    Fed s →
    line < 2 ^ 32 →
    (chanOf s c).inService = true →
    s.mem.rewrites.find? (·.1 = c.val * 2 ^ 32 + line) = some r →
      exec (.mrdimmCorrectionRewrite c line) s = .next (lineStore c line r.2 s)) ∧
  (∀ (c : Fin 12) (line : Nat) (s : State),
    Fed s →
    (2 ^ 32 ≤ line ∨ (chanOf s c).inService = false ∨ s.mem.rewrites.find? (·.1 = c.val * 2 ^ 32 + line) = none) →
      exec (.mrdimmCorrectionRewrite c line) s = .next s) ∧
  (∀ (c line : Nat) (bs : List Byte) (s : State),
      tget [] (lineStore c line bs s).mem.lineErr (lineKey c line) = [] ∧
        (∀ a, (a < dramAddr c (64 * line) ∨ dramAddr c (64 * line) + bs.length ≤ a) →
          readByte (lineStore c line bs s).mem.dram a = readByte s.mem.dram a) ∧
        (∀ i < bs.length, readByte (lineStore c line bs s).mem.dram (dramAddr c (64 * line) + i) = bs.getD i 0) ∧
        (lineStore c line bs s).mem.sram = s.mem.sram) ∧
  (∀ (c : Fin 12) (sub : Fin 2) (flaws : List Flaw) (s u : State) (ch : Chan) (n : Nat) (k : LineClass) (v : State),
    Fed s →
    u = inject flaws s →
    ch = chanOf u c →
    ch.inService = true →
    n = (if sub.val = 0 then ch.scrub else ch.scrub1) →
    n < ch.spdGiB * 2 ^ 23 →
    k = lineClass c (2 * n + sub.val) u →
    v = lineRead c readerScrub (2 * n + sub.val) u →
      exec (.patrolScrubRead c sub flaws) s = .next (passEnd c (modChan c (fun x => { x with
        scrub := if sub.val = 0 then n + 1 else x.scrub, scrub1 := if sub.val = 0 then x.scrub1 else n + 1, passCe := x.passCe + (match k with | .ce _ _ => 1 | _ => 0), passUe := x.passUe + (match k with | .ue => 1 | _ => 0) }) v))) ∧
  (∀ (c : Fin 12) (sub : Fin 2) (flaws : List Flaw) (s u : State),
    Fed s →
    u = inject flaws s →
    ((chanOf u c).inService = false ∨ (chanOf u c).spdGiB * 2 ^ 23 ≤ (if sub.val = 0 then (chanOf u c).scrub else (chanOf u c).scrub1)) →
      exec (.patrolScrubRead c sub flaws) s = .next u) ∧
  (∀ (c : Nat) (s : State) (ch : Chan),
    ch = chanOf s c →
      passEnd c s = if ch.scrub < ch.spdGiB * 2 ^ 23 ∨ ch.scrub1 < ch.spdGiB * 2 ^ 23 then s
        else raise 0x2007 0 [word c, word ch.passCe, word ch.passUe]
          (modChan c (fun x => { x with scrub := 0, scrub1 := 0, passCe := 0, passUe := 0 }) s)) ∧
  (∀ (c : Fin 12) (s : State),
    Fed s →
    (chanOf s c).inService = true →
    (chanOf s c).fast = false →
    (1024 < ((chanOf s c).ceTimes.filter (fun t => since t s < ticksS 3600)).length) →
      exec (.scrubPeriodChange c) s = .next (raise 0x2008 1 [word c.val, 6] (modChan c (fun x => { x with fast := true }) s))) ∧
  (∀ (c : Fin 12) (s : State),
    Fed s →
    (chanOf s c).inService = true →
    (chanOf s c).fast = true →
    (((chanOf s c).ceTimes.filter (fun t => since t s < ticksS 3600)).length ≤ 1024) →
    ticksS 86400 ≤ since (chanOf s c).noisyAt s →
      exec (.scrubPeriodChange c) s = .next (raise 0x2008 1 [word c.val, 24] (modChan c (fun x => { x with fast := false }) s))) ∧
  (∀ (c : Fin 12) (s : State) (n : Nat),
    Fed s →
    (n = ((chanOf s c).ceTimes.filter (fun t => since t s < ticksS 3600)).length) →
    ((chanOf s c).inService = false ∨ ((chanOf s c).fast = true ∧ 1024 < n) ∨ ((chanOf s c).fast = false ∧ n ≤ 1024) ∨ ((chanOf s c).fast = true ∧ since (chanOf s c).noisyAt s < ticksS 86400)) →
      exec (.scrubPeriodChange c) s = .next s) ∧
  (∀ (c : Fin 12) (temp : Int) (s : State) (a b : Bool) (u : State),
    Fed s →
    (chanOf s c).inService = true →
    temp < 105 →
    a = hotNow (chanOf s c).hot85 85 temp →
    b = hotNow (chanOf s c).hot95 95 temp →
    (u = modChan c (fun x => { x with hot85 := a, hot95 := b }) s) →
      exec (.dimmTempRead c temp) s = .next (if a ≠ (chanOf s c).hot85 ∨ b ≠ (chanOf s c).hot95
        then raise 0x1020 2 [word c.val, sword temp, word (b2n a + 2 * b2n b)] u else u)) ∧
  (∀ (c : Fin 12) (temp : Int) (s : State),
    Fed s →
    (chanOf s c).inService = true →
    105 ≤ temp →
      exec (.dimmTempRead c temp) s = .next (leaveService c 1 (raise 0x1020 2 [word c.val, sword temp, 7]
        (modChan c (fun x => { x with hot85 := true, hot95 := true }) s)))) ∧
  (∀ (c : Fin 12) (temp : Int) (n : Fin 5) (s : State),
    Fed s →
    (chanOf s c).inService = false →
      exec (.dimmTempRead c temp) s = .next s ∧ exec (.caParityError c n) s = .next s) ∧
  (∀ (c : Fin 12) (s : State),
    Fed s →
      exec (.caParityError c 0) s = .next s) ∧
  (∀ (c : Fin 12) (n : Fin 5) (s : State) (ch : Chan) (re : Bool) (times : List Nat) (t : State),
    Fed s →
    ch = chanOf s c →
    ch.inService = true →
    n.val ≠ 0 →
    re = (decide (n.val = 4) && !ch.retrained && !ch.retraining) →
    (times = (if ch.retrained then List.replicate n.val s.clk ++ ch.parityTimes.filter (fun t => since t s < ticksS 1) else [])) →
    (t = raiseLimited 0x2009 1 c.val (ticksS 10) (min n.val 3)
        (fun k => [word c.val, word k, word (b2n (ch.retrained || ch.retraining || re))])
        (modChan c (fun x => { x with retraining := x.retraining || re, parityTimes := times }) s)) →
      exec (.caParityError c n) s = .next (if 16 < times.length then leaveService c 2 t else t)) ∧
  (∀ (c : Fin 12) (ok : Bool) (s u : State),
    Fed s →
    (chanOf s c).retraining = true →
    (u = modChan c (fun x => { x with retraining := false, retrained := true, parityTimes := [] }) s) →
      exec (.memoryRetrainComplete c ok) s = .next (if ok = true then u else leaveService c 2 u)) ∧
  (∀ (c : Fin 12) (ok : Bool) (s : State),
    Fed s →
    (chanOf s c).retraining = false →
      exec (.memoryRetrainComplete c ok) s = .next s) ∧
  (∀ (c : Fin 12) (s : State),
    Fed s →
      exec (.dimmShutdownCondition c) s = .next (leaveService c 1 s)) ∧
  (∀ (c cause : Nat) (s u v : State),
    (chanOf s c).inService = true →
    (u = modChan c (fun x => { x with inService := false, out := true, retraining := false }) (refuseChannel c s)) →
    (v = raise 0x2005 3 [word c, word cause] { u with place := { u.place with owned := u.place.owned.filter (fun o => o.chan ≠ c) } }) →
      leaveService c cause s = reevaluate 0x2005 (markLost c (if moveOnChan c v then moveAbort 3 0 v else v))) ∧
  (∀ (c cause : Nat) (s : State),
    (chanOf s c).inService = false →
      leaveService c cause s = s) ∧
  (∀ (c : Fin 12) (x : Spd) (s : State) (good : Bool) (u v : State),
    Fed s →
    s.glb.yarlerUp = true →
    (chanOf s c).tried = false →
    good = (x.populated && decide (spdRefused x = 0)) →
    (u = modChan c (fun ch => { ch with tried := true, trained := good && x.trained, spdGiB := (if good then x.capGiB else 0), out := good && !x.trained }) s) →
    (v = (if x.populated && decide (spdRefused x ≠ 0) then raise 0x2006 2 [word c, word x.capGiB, word (spdRefused x)] u
        else if good && !x.trained then raise 0x2005 3 [word c, 0] u else u)) →
      exec (.dimmTrainingComplete c x) s = .next (if allTried v then calibrateAtStart (forAll (trainedChans v) (fun c s =>
            if capGiB s < (chanOf s c).spdGiB then raise 0x2006 2 [word c, word (chanOf s c).spdGiB, 0] s else s) v)
        else v)) ∧
  (∀ (c : Fin 12) (x : Spd) (s : State),
    Fed s →
    ((chanOf s c).tried = true ∨ s.glb.yarlerUp = false) →
      exec (.dimmTrainingComplete c x) s = .next s) ∧
  (∀ (x : Spd),
      spdRefused x = if x.failRow.val ≠ 0 then x.failRow.val
        else if x.capGiB = 64 ∨ x.capGiB = 128 ∨ x.capGiB = 256 then 0 else 6) ∧
  (∀ (c : Fin 12) (s : State),
    Fed s →
    (chanOf s c).trained = true →
    (chanOf s c).inService = false →
    (chanOf s c).out = false →
    allTried s = true →
      exec (.channelZeroComplete c) s = .next (calibrateAtStart (modChan c (fun x => { x with inService := true })
        (dramZero c 0 ((chanOf s c).spdGiB * 2 ^ 30) s)))) ∧
  (∀ (c : Fin 12) (s : State),
    Fed s →
    ((chanOf s c).trained = false ∨ (chanOf s c).inService = true ∨ (chanOf s c).out = true ∨ allTried s = false) →
      exec (.channelZeroComplete c) s = .next s)

/-- R155, R197, R250 to R253: the commands of a move complete. The target address that a refused update names is
free, as is the place of a note to another Yarler (log 42). The abort causes 1 and 2, that an acknowledgement of
a flip belongs to the oldest flip not yet acknowledged by its module, and how the copy is cut into operations
are the model's choice (log 44). -/
def Obligations.MoveCommands : Prop :=
  (∀ (flaws : List Flaw) (s t : State) (m : Move) (v : State),
    Alive s →
    t = inject flaws s →
    t.place.move = some m →
    m.phase = 1 →
    copyDone m t = true →
    (v = holdWrites m.job m.region (rmMod m.job m.region (fun e => { e with move := 2 }) t)) →
      exec (.moveCopyComplete flaws) s = .next (sendUpdates m.job m.region 2 m.oldBase m.newBase { v with
        place := { v.place with move := v.place.move.map (fun m =>
          { m with phase := 2, drainAt := v.clk, waiting := ownId v :: otherModules m.job v }) } })) ∧
  (∀ (flaws : List Flaw) (s t : State),
    Alive s →
    t = inject flaws s →
    (t.place.move = none ∨ ∃ m, t.place.move = some m ∧ (m.phase ≠ 1 ∨ copyDone m t = false)) →
      exec (.moveCopyComplete flaws) s = .next t) ∧
  (∀ (m : Move) (s : State),
      copyDone m s = true ↔ m.todo = [] ∧ (∀ w ∈ s.stitch.waitList, w.purpose ≠ 5) ∧
        ∀ p ∈ s.stitch.table, p.2.purpose = 5 → incomplete p.2 = false) ∧
  (∀ (s : State) (m : Move) (off n : Nat) (l : List (Nat × Nat)),
    s.place.move = some m →
    m.todo = (off, n) :: l →
    n ≤ 65536 →
      copyAsk s = askPool 65 5 { op := 1, phys := true, cls := 3, source := 2, len := n, target := (m.newBase + off : Nat), localPa := m.oldBase + off } { s with place := { s.place with move := some { m with todo := l } } }) ∧
  (∀ (s : State) (m : Move) (off n : Nat) (l : List (Nat × Nat)),
    s.place.move = some m →
    m.todo = (off, n) :: l →
    65536 < n →
      copyAsk s = askPool 65 5 { op := 1, phys := true, cls := 3, source := 2, len := 65536, target := (m.newBase + off : Nat), localPa := m.oldBase + off } { s with place := { s.place with move := some { m with todo := (off + 65536, n - 65536) :: l } } }) ∧
  (∀ (n : BitVec 16) (flaws : List Flaw) (s t : State) (m : Move),
    Alive s →
    t = inject flaws s →
    t.place.move = some m →
    m.phase = 2 →
    m.waiting.contains n.toNat = true →
    (n.toNat ≠ ownId t ∨ writesInFlight m.job m.region t = false) →
    m.waiting.filter (· ≠ n.toNat) ≠ [] →
      exec (.moveDrainAck n flaws) s = .next { t with place := { t.place with move := some { m with waiting := m.waiting.filter (· ≠ n.toNat) } } }) ∧
  (∀ (n : BitVec 16) (flaws : List Flaw) (s t : State) (m : Move) (k : Nat),
    Alive s →
    t = inject flaws s →
    t.place.move = some m →
    m.phase = 2 →
    m.waiting.contains n.toNat = true →
    (n.toNat ≠ ownId t ∨ writesInFlight m.job m.region t = false) →
    m.waiting.filter (· ≠ n.toNat) = [] →
    (k = (match rmLookup m.job m.region t with | some e => e.size | none => 0)) →
      exec (.moveDrainAck n flaws) s = .next (copyAsk { t with place := { t.place with move := some { m with
          waiting := [], phase := 3, todo := m.marked.map (fun g => (g * trackGranule k, min (trackGranule k) (k - g * trackGranule k))) } } })) ∧
  (∀ (n : BitVec 16) (flaws : List Flaw) (s t : State),
    Alive s →
    t = inject flaws s →
    (t.place.move = none ∨ ∃ m, t.place.move = some m ∧ (m.phase ≠ 2 ∨ m.waiting.contains n.toNat = false ∨ (n.toNat = ownId t ∧ writesInFlight m.job m.region t = true))) →
      exec (.moveDrainAck n flaws) s = .next t) ∧
  (∀ (s : State) (m : Move) (n : Nat) (w u v : State),
    Alive s →
    s.place.move = some m →
    m.phase = 3 →
    copyDone m s = true →
    s.resil.draining = none →
    (n = (match rmLookup m.job m.region s with | some e => e.size | none => 0)) →
    (w = rmMod m.job m.region (fun e => { e with move := 0, base := m.newBase, newBase := 0, place := if pgaSpace m.newBase = 1 then 1 else 2, lost := false }) s) →
    (u = (match regionOf m.job m.region w with
        | some x => setRegion m.job m.region (some { x with base := some m.newBase, pin := repin x.pin m.newBase }) w
        | none => w)) →
    v = { u with place := { u.place with move := none, settling := u.place.settling ++ [{ job := m.job, region := m.region, oldBase := m.oldBase, size := n, flipAt := u.clk, waiting := otherModules m.job u, lastAck := u.clk }] } } →
      exec .moveFlip s = .next (retryWindows (raise 0x3023 1 ([word m.job, word m.region] ++ dwords m.newBase
        ++ [word (heldByDrain m.job m.region s), word ((m.drainAt - m.copyAt) / 500),
            word (since m.drainAt (sendUpdates m.job m.region 0 m.newBase 0 v) / 500)])
        (sendUpdates m.job m.region 0 m.newBase 0 v)))) ∧
  (∀ (s : State),
    Alive s →
    (s.place.move = none ∨ ∃ m, s.place.move = some m ∧ (m.phase ≠ 3 ∨ copyDone m s = false ∨ s.resil.draining ≠ none)) →
      exec (.moveFlip) s = .next s) ∧
  (∀ (n : BitVec 16) (s : State),
    Alive s →
      exec (.moveFlipAck n) s = .next { s with
        place := { s.place with settling := modFirst (fun x => x.waiting.contains n.toNat) (fun x => { x with waiting := x.waiting.filter (· ≠ n.toNat), lastAck := s.clk }) s.place.settling } }) ∧
  (∀ (s : State) (due : Settle → Bool),
    Alive s →
    (due = (fun x => x.waiting.isEmpty && ticksMs 40 ≤ since x.lastAck s)) →
      exec .moveOldPlaceRelease s = .next (match s.place.settling.find? due with
        | some x => leavePlace x.job x.oldBase x.size { s with place := { s.place with settling := s.place.settling.eraseP due } }
        | none => s)) ∧
  (∀ (s : State) (m : Move) (w : Nat) (l : List Nat),
    Alive s →
    s.place.move = some m →
    m.phase = 2 →
    m.waiting = w :: l →
    ticksMs 50 ≤ since m.drainAt s →
      exec (.moveDrainTimeout) s = .next (moveAbort 1 w s)) ∧
  (∀ (s : State),
    Alive s →
    (s.place.move = none ∨ ∃ m, s.place.move = some m ∧ (m.phase ≠ 2 ∨ m.waiting = [] ∨ since m.drainAt s < ticksMs 50)) →
      exec (.moveDrainTimeout) s = .next s) ∧
  (∀ (s : State) (late : Settle → Option Nat) (x : Settle) (m : Nat),
    Alive s →
    (late = (fun x => if ticksMs 50 ≤ since x.flipAt s then x.waiting.find? (fun m => !x.told.contains m) else none)) →
    (s.place.settling.find? (fun x => (late x).isSome) = some x) →
    late x = some m →
      exec .moveFlipAckTimeout s = .next (raise 0x3026 2 [word x.job, word x.region, word m]
        { s with place := { s.place with settling := modFirst (fun y => (late y).isSome) (fun y => { y with told := y.told ++ [m] }) s.place.settling } })) ∧
  (∀ (s : State),
    Alive s →
    (s.place.settling.all (fun x => decide (since x.flipAt s < ticksMs 50) || x.waiting.all (fun m => x.told.contains m)) = true) →
      exec .moveFlipAckTimeout s = .next s) ∧
  (∀ (u : MoveUpdate) (s : State) (j k : Nat) (e : RmEntry),
    serving s = true →
    s.glb.state ≠ .halted →
    jobOfTag u.jobTag s = some j →
    k = u.region.toNat →
    rmLookup j k s = some e →
    e.remote = true →
    pgaModule e.base = u.fromModule.toNat →
      (u.phase = 1 → exec (.moveUpdateReceive u) s = .next (rmMod j k (fun e => { e with move := 1, newBase := u.newBase.toNat }) s)) ∧
      (u.phase = 2 → ∀ v, v = holdWrites j k (rmMod j k (fun e => { e with move := 2, newBase := u.newBase.toNat }) s) →
        exec (.moveUpdateReceive u) s = .next (sendAcks { v with
          place := { v.place with owedAcks := v.place.owedAcks ++ [(u.fromModule.toNat, u.jobTag, k)] } })) ∧
      (u.phase = 0 → ∀ v w, v = rmMod j k (fun e => { e with move := 0, base := u.base.toNat, newBase := 0, place := if pgaSpace u.base.toNat = 1 then 1 else 2 }) s →
        w = (match regionOf j k v with
          | some x => setRegion j k (some { x with imported := some u.base.toNat }) v
          | none => v) →
        exec (.moveUpdateReceive u) s = .next (sendAck u.fromModule.toNat u.jobTag k 0 { w with
          place := { w.place with owedAcks := w.place.owedAcks.filter (fun a =>
            !(a.1 = u.fromModule.toNat && a.2.1 = u.jobTag && a.2.2 = k)) } }))) ∧
  (∀ (u : MoveUpdate) (s : State),
    serving s = true →
    s.glb.state = .halted →
      exec (.moveUpdateReceive u) s = .next (refuseHalted u.fromModule.toNat (Config.freeNat s.fresh) (useFresh 1 s)))

/-- R262, R265, R267, R285 to R288: the commands of lanes and units complete. The body of a hello is helloBody; of
an optical lane that no eyelet has the unit is free, and an 0xFFFF hello names no module: both are the model's
choice (log 33), as are cause 1 of event 0x400A and the resend after a retraining (log 33) and the lanes of
RELACE_QUIESCE taken from the compile (log 66). -/
def Obligations.LaneCommands : Prop :=
  (∀ (u : Fin 22) (n : Fin 32) (s : State),
    Fed s →
    u.val < 6 →
    n.val < 8 →
    (unitOf s u).trained = true →
      exec (.helloSend u n) s = .next (lineOut u n (frameHeader 0 0 511 3 0 0) (helloBody u n s) (bump u 0 1 s))) ∧
  (∀ (u : Fin 22) (n : Fin 32) (s : State),
    Fed s →
    6 ≤ u.val →
    s.welt.powered = true →
    (laceOf s.welt.active n).isSome = true →
    hasLane u n s = true →
      exec (.helloSend u n) s = .next (useFresh 1 (lineOut u n (frameHeader 0 0 511 3 0 0) (helloBody u n s) (bump u 0 1 s)))) ∧
  (∀ (u : Fin 22) (n : Fin 32) (s : State),
    Fed s →
    6 ≤ u.val →
    s.welt.powered = true →
    (laceOf s.welt.active n).isSome = true →
    ((List.range 16).all (fun e => match eyeletOf s e with | some x => !bit x.lanes n.val | none => true) = true) →
    hasLane u n s = false →
      exec (.helloSend u n) s = .next (useFresh 1 (lineOut u n (frameHeader 0 0 511 3 0 0) (helloBody u n s) s))) ∧
  (∀ (u : Fin 22) (n : Fin 32) (s : State),
    Fed s →
    ((u.val < 6 ∧ (8 ≤ n.val ∨ (unitOf s u).trained = false)) ∨ (6 ≤ u.val ∧ (s.welt.powered = false ∨ laceOf s.welt.active n = none))) →
      exec (.helloSend u n) s = .next s) ∧
  (∀ (u : Fin 22) (n : Fin 32) (body : List Byte) (s : State) (l : Lane) (m : Nat) (v w : State),
    Fed s →
    body.length = 505 →
    hasLane u n s = true →
    l = laneOf s (laneKey u n) →
    (l.svc ≠ .out ∨ l.tried = true) →
    m = leNat (body.take 2) →
    (v = modUnit u (fun x => { x with seenModule := m, seenUnit := leNat ((body.drop 2).take 1) }) (setLane (laneKey u n) { l with hello := true, seenModule := m, seenUnit := leNat ((body.drop 2).take 1), seenLane := leNat ((body.drop 3).take 1) } (bump u 1 1 s))) →
    (w = evalUnit 0x4001 u (forAll (unitLanes u v) (fun k w =>
        modLane (laneKey u k) (fun l => { l with heard := leNat ((body.drop 8).take 4) / 2 ^ k % 2 = 1 }) w) v)) →
      exec (.helloReceive u n body) s = .next (if ((m, leNat ((body.drop 2).take 1)) = expected u v ∧ m ≠ 0xFFFF) ∨ unitPlanned u v = false then
          (if u.val < 6 then w else forAll (List.range 4) (fun c w => modUnit u (fun x => { x with
            freedSeen := tset 0 x.freedSeen c (word (leNat ((body.drop (12 + 4 * c)).take 4))) }) w) w)
        else if m ≠ 0xFFFF ∧ l.svc = .inService then laneOutOfService u n 4 v
        else evalUnit 0x4003 u v)) ∧
  (∀ (u : Fin 22) (n : Fin 32) (body : List Byte) (s : State),
    Fed s →
    body.length = 505 →
    hasLane u n s = false →
      exec (.helloReceive u n body) s = .next s) ∧
  (∀ (u : Fin 22) (n : Fin 32) (body : List Byte) (s : State),
    Fed s →
    body.length = 505 →
    hasLane u n s = true →
    (laneOf s (laneKey u n)).svc = .out →
    (laneOf s (laneKey u n)).tried = false →
      exec (.helloReceive u n body) s = .next (bump u 1 1 s)) ∧
  (∀ (u : Fin 22) (n : Fin 32) (body : List Byte) (s : State),
    body.length ≠ 505 →
      exec (.helloReceive u n body) s = .fault .illFormed) ∧
  (∀ (u : Fin 22) (n : Fin 32) (s : State) (l : Lane) (v : State),
    Fed s →
    hasLane u n s = true →
    l = laneOf s (laneKey u n) →
    v = (if 6 ≤ u.val ∧ l.locked = true ∧ l.lock = false then bump u 5 1 s else s) →
      exec (.laneLockGained u n) s = .next (evalUnit 0x4001 u (setLane (laneKey u n) { l with
        lock := true, locked := true, lockAt := if l.lock then l.lockAt else s.clk, svc := if l.svc = .idle ∧ laneLive u n s = true then .inService else l.svc } v))) ∧
  (∀ (u : Fin 22) (n : Fin 32) (s : State),
    Fed s →
    hasLane u n s = false →
      exec (.laneLockGained u n) s = .next (if 6 ≤ u.val then setLane (laneKey u n) { laneOf s (laneKey u n) with lock := true, locked := true, lockAt := s.clk } s else s)) ∧
  (∀ (u : Fin 22) (n : Fin 32) (s : State) (l : Lane) (v : State),
    Fed s →
    hasLane u n s = true →
    laneLive u n s = true →
    l = laneOf s (laneKey u n) →
    l.svc ≠ .out →
    (∀ t, l.quiet = some t → 5000000 ≤ siteDiff (siteNow s) t) →
    (v = modLane (laneKey u n) (fun l => { l with lock := false, hello := false }) s) →
      exec (.laneLockTimeout u n false) s = .next (if (unitLanes u s).any (fun k => k ≠ n.val && (laneOf s (laneKey u k)).lock) = true ∨ l.quiet ≠ none
        then laneOutOfService u n 1 v else evalUnit 0x4005 u v)) ∧
  (∀ (u : Fin 22) (n : Fin 32) (s : State) (l : Lane),
    Fed s →
    hasLane u n s = true →
    laneLive u n s = true →
    l = laneOf s (laneKey u n) →
    l.svc ≠ .out →
    (∀ t, l.quiet = some t → 5000000 ≤ siteDiff (siteNow s) t) →
      exec (.laneLockTimeout u n true) s = .next (if l.svc = .inService ∧ l.heard = false ∧ l.deaf = false then sendingOut u n s else s)) ∧
  (∀ (u : Fin 22) (n : Fin 32) (deaf : Bool) (s : State),
    Fed s →
    (hasLane u n s = false ∨ laneLive u n s = false ∨ (laneOf s (laneKey u n)).svc = .out ∨ ∃ t, (laneOf s (laneKey u n)).quiet = some t ∧ siteDiff (siteNow s) t < 5000000) →
      exec (.laneLockTimeout u n deaf) s = .next s) ∧
  (∀ (u : Fin 22) (n : Fin 32) (unc corr recv : Nat) (s v : State),
    Fed s →
    hasLane u n s = true →
    (laneOf s (laneKey u n)).svc = .inService →
    v = (if unc = 0 then s else setLane (laneKey u n) { laneOf s (laneKey u n) with badAt := some s.clk } s) →
      exec (.laneErrorCheck u n unc corr recv) s = .next (if 16 < unc then laneOutOfService u n 2 v else if recv < 10000 * corr then laneOutOfService u n 3 v else v)) ∧
  (∀ (u : Fin 22) (n : Fin 32) (unc corr recv : Nat) (s : State),
    Fed s →
    hasLane u n s = false →
      exec (.laneErrorCheck u n unc corr recv) s = .next s) ∧
  (∀ (u : Fin 22) (n : Fin 32) (s : State) (l : Lane) (q : Bool),
    Fed s →
    l = laneOf s (laneKey u n) →
    q = (hasLane u n s && (decide (l.svc = .out) || l.deaf) && decide (ticksS 10 ≤ since l.outAt s)) →
      exec (.laneRetry u n) s = .next (if q then setLane (laneKey u n) { l with tried := true, outAt := s.clk } s else s)) ∧
  (∀ (u : Fin 22) (n : Fin 32) (s : State) (l : Lane),
    Fed s →
    hasLane u n s = true →
    l = laneOf s (laneKey u n) →
    (l.svc = .out ∨ l.deaf = true) →
    l.tried = true →
    l.lock = true →
    ticksS 1 ≤ since l.lockAt s →
    (∀ t, l.badAt = some t → ticksS 1 ≤ since t s) →
      exec (.laneReturn u n) s = .next (evalUnit 0x4006 u (raise 0x4006 1 [word u.val, word n.val]
        (setLane (laneKey u n) { l with
          svc := .inService, deaf := false, tried := false, quiet := (match l.quiet with
            | some t => if reached t s then none else some t
            | none => none) } s)))) ∧
  (∀ (u : Fin 22) (n : Fin 32) (s : State) (l : Lane),
    Fed s →
    l = laneOf s (laneKey u n) →
    (hasLane u n s = false ∨ (l.svc ≠ .out ∧ l.deaf = false) ∨ l.tried = false ∨ l.lock = false ∨ since l.lockAt s < ticksS 1 ∨ ∃ t, l.badAt = some t ∧ since t s < ticksS 1) →
      exec (.laneReturn u n) s = .next s) ∧
  (∀ (u : Fin 22) (s : State) (n : Nat),
    Fed s →
    (unitOf s u).badSince = some n →
    (unitOf s u).missing = false →
    ticksMs 1 ≤ since n s →
    (unitOf s u).graceEnd ≤ s.clk →
      exec (.unitMissing u) s = .next (reevaluate 0x4002 (raise 0x4002 2 [word u.val, word (unitOf s u).state, word (unitOf s u).seenModule]
        (setUnit u { unitOf s u with missing := true } s)))) ∧
  (∀ (u : Fin 22) (s : State),
    Fed s →
    ((unitOf s u).missing = true ∨ s.clk < (unitOf s u).graceEnd ∨ ∀ n, (unitOf s u).badSince = some n → since n s < ticksMs 1) →
      exec (.unitMissing u) s = .next s) ∧
  (∀ (p : Fin 6) (s t : State),
    Fed s →
    (unitOf s p).retrainAt = none →
    t = setUnit p { unitOf s p with trained := true } s →
      exec (.linkTrainingComplete p true) s = .next (evalUnit 0x4001 p (linkFresh p (forAll (List.range 8)
        (fun n u => modLane (8 * p.val + n) (fun _ => { lock := true, lockAt := t.clk, svc := .inService }) u) t)))) ∧
  (∀ (p : Fin 6) (s : State) (k : Nat) (u v w : State),
    Fed s →
    (unitOf s p).retrainAt = some k →
    u = setUnit p { unitOf s p with retrainAt := none } s →
    (v = forAll (List.range 8) (fun n w => modLane (8 * p.val + n) (fun l => { l with lock := true, lockAt := u.clk }) w) u) →
    w = evalUnit 0x400A p (raise 0x400A 1 [word p, 1, word (since k v / 500)] v) →
      exec (.linkTrainingComplete p true) s = .next (match (unitOf s p).replay with
        | some r => resend p r.1 w
        | none => w)) ∧
  (∀ (p : Fin 6) (s : State),
    Fed s →
      exec (.linkTrainingComplete p false) s = .next (evalUnit 0x4005 p (forAll (List.range 8) (fun n u => modLane (8 * p.val + n) (fun _ => {}) u)
        (setUnit p { unitOf s p with trained := false, retrainAt := none } s)))) ∧
  (∀ (q : BitVec 16) (s : State) (i : Nat) (e : Entry) (u : State),
    Fed s →
    (s.sched.entries.find? (fun e => e.2.st = .armed && e.2.action = 1 && e.2.seq = q && !e.2.quiesced) = some (i, e)) →
    -100000 ≤ siteDiff (siteNow s) e.instant →
    u = setSched i { e with quiesced := true } s →
      exec (.relaceQuiesce q) s = .next (forAll (u.welt.shadowLanes) (fun n v => modLane (48 + n) (fun l => { l with quiet := some e.instant }) v) u)) ∧
  (∀ (q : BitVec 16) (s : State),
    Fed s →
    (∀ i e, s.sched.entries.find? (fun e => e.2.st = .armed && e.2.action = 1 && e.2.seq = q && !e.2.quiesced) = some (i, e) → siteDiff (siteNow s) e.instant < -100000) →
      exec (.relaceQuiesce q) s = .next s) ∧
  (∀ (n : Fin 32) (s : State) (t : BitVec 48),
    Fed s →
    (laneOf s (48 + n.val)).quiet = some t →
    (laneOf s (48 + n.val)).lock = true →
    (laneOf s (48 + n.val)).heard = true →
    0 ≤ siteDiff (siteNow s) t →
      exec (.laneDealResume n) s = .next (endQuiet n true s)) ∧
  (∀ (n : Fin 32) (s : State),
    Fed s →
    (∀ t, (laneOf s (48 + n.val)).quiet = some t → ((laneOf s (48 + n.val)).lock = false ∨ (laneOf s (48 + n.val)).heard = false ∨ siteDiff (siteNow s) t < 0)) →
      exec (.laneDealResume n) s = .next s)

/-- R183, R260, R261, R265, R266, R269 to R271, R274, R275 and R278: frames and packets. That the mesh settles with
a PACKET_SEND (log 70), and the count of replays that begins again and the resend after a training (log 33), are
the model's choices. -/
def Obligations.PacketCommands : Prop :=
  (∀ (u : Fin 22) (n : Fin 32) (cw : Codeword) (s : State),
    Fed s →
    cw.body.length = 505 →
    hasLane u n s = true →
    16 < cw.symErrs →
      exec (.frameReceive u n cw) s = .next (uncorrectable u n s)) ∧
  (∀ (u : Fin 22) (n : Fin 32) (cw : Codeword) (s : State),
    Fed s →
    cw.body.length = 505 →
    hasLane u n s = true →
    cw.symErrs ≤ 16 →
    ((laneOf s (laneKey u n)).svc ≠ .out ∨ (laneOf s (laneKey u n)).tried = true) →
      exec (.frameReceive u n cw) s = .next (goodFrame u n cw s)) ∧
  (∀ (u : Fin 22) (n : Fin 32) (cw : Codeword) (s : State),
    Fed s →
    cw.body.length = 505 →
    (hasLane u n s = false ∨ (cw.symErrs ≤ 16 ∧ (laneOf s (laneKey u n)).svc = .out ∧ (laneOf s (laneKey u n)).tried = false)) →
      exec (.frameReceive u n cw) s = .next s) ∧
  (∀ (u : Fin 22) (n : Fin 32) (cw : Codeword) (s : State),
    cw.body.length ≠ 505 →
      exec (.frameReceive u n cw) s = .fault .illFormed) ∧
  (∀ (p : Fin 6) (ack : BitVec 16) (s : State),
    Fed s →
      exec (.replayRequestReceive p ack) s = .next (replay p ack (bump p 1 1 s))) ∧
  (∀ (p : Nat) (ack : BitVec 16) (k : Nat) (s : State),
    (k = (match (unitOf s p).replay with | some r => if r.1 = ack then r.2 + 1 else 1 | none => 1)) →
      (k < 8 → replay p ack s = resend p ack (modUnit p (fun x => { x with replay := some (ack, k) }) s)) ∧
      (8 ≤ k → replay p ack s = forAll (List.range 8) (fun l u => modLane (8 * p + l) (fun y => { y with lock := false }) u)
        (modUnit p (fun x => { x with replay := some (ack, 0), retrainAt := some s.clk }) (bump p 5 1 s)))) ∧
  (∀ (e : Fin 16) (s : State) (t : Nat),
    Fed s →
    (unitOf s (6 + e.val)).gapAt = some t →
      exec (.eyeletSeqGapTimeout e) s = .next (if ticksUs 10 ≤ since t s then closeGap (6 + e.val) s else s)) ∧
  (∀ (e : Fin 16) (s : State),
    Fed s →
    (unitOf s (6 + e.val)).gapAt = none →
      exec (.eyeletSeqGapTimeout e) s = .next s) ∧
  (∀ (u : Fin 22) (s v : State),
    Fed s →
    v = meshSettle s →
    unitCarries u v = true →
    (dealLane u true v).isSome = true →
      exec (.packetSend u) s = .next (match unitGrant u v with
        | some g => sendPacket u g.1 g.2
        | none => v)) ∧
  (∀ (u : Fin 22) (s v : State),
    Fed s →
    v = meshSettle s →
    (unitCarries u v = false ∨ dealLane u true v = none) →
      exec (.packetSend u) s = .next (if unitCarries u v then v else flushQueue u v)) ∧
  (∀ (u : Fin 22) (b : Fin 8) (s : State) (p : Pkt) (l : List Pkt) (v : State),
    Fed s →
    tget [] (unitOf s u).rxq b = p :: l →
    v = popBuffer u b s →
      exec (.packetForward u b) s = .next (match fateOf u p s with
        | .send q p2 => meshPut (65 + u.val) (65 + q) p2 v
        | .deliver => if p.cls = 1 ∨ answerCredit p s = true then freeBuffer p (meshPut (65 + u.val) (localGoal p v) p v) else s
        | .drop k c => freeBuffer p (dropPacket k c p v))) ∧
  (∀ (u : Fin 22) (b : Fin 8) (s : State),
    Fed s →
    tget [] (unitOf s u).rxq b = [] →
      exec (.packetForward u b) s = .next s)

/-- R310, R359, R370, R372 and R374: SCHEDULE_ENTRY_FIRE and RELACE_COMPLETE complete. The order of the events of an
entry and its action (log 57) and what relaceDone waits for (log 66) are the model's choices. -/
def Obligations.ScheduleEvents : Prop :=
  (∀ (s : State) (i : Nat) (e : Entry),
    Alive s →
    firstEntry (entDue s) s = some (i, e) →
      exec (.scheduleEntryFire) s = .next (fireEntry i e s)) ∧
  (∀ (s : State),
    Alive s →
    firstEntry (entDue s) s = none →
      exec (.scheduleEntryFire) s = .next s) ∧
  (∀ (i : Nat) (e : Entry) (s u : State),
    u = setSched i { e with st := .firing, late := e.passed } s →
      (e.action = 1 → fireEntry i e s = fireEvents e (commitFire i e u)) ∧
      (e.action = 2 → fireEntry i e s = fireEvents e (setJob e.arg { jobOf u e.arg with firing := true } u)) ∧
      (e.action = 3 → fireEntry i e s = boundaryFire i (fireEvents e u)) ∧
      (e.action = 4 → fireEntry i e s = activate e (fireEvents e u)) ∧
      (e.action = 0 ∨ 4 < e.action → fireEntry i e s = spend i false (fireEvents e u))) ∧
  (∀ (s : State),
    Fed s →
    s.welt.relace = none →
      exec (.relaceComplete) s = .next s) ∧
  (∀ (s : State) (x : Relace) (us : Nat) (u : State),
    Fed s →
    s.welt.relace = some x →
    relaceDone x s = true →
    us = since x.tick s / 500 →
    u = relaceEvent x us false s →
      exec (.relaceComplete) s = .next (spend x.entry false { u with welt := { u.welt with relace := none, lastLock := min us 0xFFFE } })) ∧
  (∀ (s : State) (x : Relace),
    Fed s →
    s.welt.relace = some x →
    relaceDone x s = false →
      exec (.relaceComplete) s = .next s)

/-- R309, R314, R319 and R320: what light, time and the samples do to the laces. The grid of the Shank counted in
ticks of the oscillator (log 29) and the start of the 100 µs of dark (log 66) are the model's choices. -/
def Obligations.LaceEvents : Prop :=
  (∀ (i : Fin 320) (n : Nat) (s u : State),
    Fed s →
    (runOf s i).darkSince = some n →
    50000 ≤ since n s →
    ((runOf s i).st = .settling ∨ (runOf s i).st = .locked ∨ (runOf s i).st = .unlocked) →
    inletPower i s < -1966080 →
    u = { s with welt := { s.welt with laces := tset {} s.welt.laces i { st := .dark } } } →
      exec (.laceDark i) s = .next (reevaluate 0x5006 (raise 0x5006 1 [word i.val, word (laceTag i u), word (dbm100 (inletPower i u))] u))) ∧
  (∀ (i : Fin 320) (s u : State),
    Fed s →
    (runOf s i).st = .dark →
    -1835008 < inletPower i s →
    u = settle i s →
      exec (.laceLightReturn i) s = .next (raise 0x5006 1 [word i.val, word (laceTag i u), word (dbm100 (inletPower i u))] u)) ∧
  (∀ (i : Fin 320) (s : State),
    Fed s →
    (runOf s i).st = .settling →
    5000000 ≤ since (runOf s i).settleAt s →
      exec (.laceSettleTimeout i) s = .next (unlockLace i s)) ∧
  (∀ (i : Fin 320) (s : State) (t : Nat),
    Fed s →
    (runOf s i).st = .locked →
    (runOf s i).outSince = some t →
    500000 ≤ since t s →
    -1966080 ≤ inletPower i s →
      exec (.laceLockLoss i) s = .next (unlockLace i s)) ∧
  (∀ (i : Fin 320) (s : State) (t : Nat) (u : State),
    Fed s →
    (runOf s i).st = .locked →
    (runOf s i).lossSince = some t →
    (runOf s i).lossTold = false →
    500000000 ≤ since t s →
    u = setRun i { runOf s i with lossTold := true } s →
      exec (.laceLossAlarm i) s = .next (raise 0x5009 2 [word i.val, word (laceTag i s), word (loss100 i s)] u)) ∧
  (∀ (p : Fin 2) (s : State),
    Fed s →
    s.welt.powered = true →
    (planeOf s p).origin + (planeOf s p).k * ((planeOf s p).ts / 2) ≤ s.clk →
      exec (.shankSample p) s = .next (boundary p s)) ∧
  (∀ (p : Fin 2) (s : State),
    Fed s →
    (s.welt.powered = false ∨ s.clk < (planeOf s p).origin + (planeOf s p).k * ((planeOf s p).ts / 2)) →
      exec (.shankSample p) s = .next s) ∧
  (∀ (i : Fin 320) (s : State),
    Fed s →
    ((runOf s i).st = .idle ∨ (runOf s i).st = .forced) →
      exec (.laceDark i) s = .next s ∧ exec (.laceLightReturn i) s = .next s ∧ exec (.laceSettleTimeout i) s = .next s ∧
      exec (.laceLockLoss i) s = .next s ∧ exec (.laceLossAlarm i) s = .next s) ∧
  (∀ (i : Fin 320) (s : State),
    Fed s →
    ((runOf s i).darkSince = none ∨ -1966080 ≤ inletPower i s ∨ ∃ n, (runOf s i).darkSince = some n ∧ since n s < 50000) →
      exec (.laceDark i) s = .next s) ∧
  (∀ (i : Fin 320) (s : State),
    Fed s →
    ((runOf s i).st ≠ .dark ∨ inletPower i s ≤ -1835008) →
      exec (.laceLightReturn i) s = .next s) ∧
  (∀ (i : Fin 320) (s : State),
    Fed s →
    ((runOf s i).st ≠ .settling ∨ since (runOf s i).settleAt s < 5000000) →
      exec (.laceSettleTimeout i) s = .next s) ∧
  (∀ (i : Fin 320) (s : State),
    Fed s →
    ((runOf s i).st ≠ .locked ∨ inletPower i s < -1966080 ∨ (∀ t, (runOf s i).outSince = some t → since t s < 500000)) →
      exec (.laceLockLoss i) s = .next s) ∧
  (∀ (i : Fin 320) (s : State),
    Fed s →
    ((runOf s i).st ≠ .locked ∨ (runOf s i).lossTold = true ∨ (∀ t, (runOf s i).lossSince = some t → since t s < 500000000)) →
      exec (.laceLossAlarm i) s = .next s) ∧
  (∀ (i : Nat) (s u : State),
    s.welt.relace = none →
    u = setRun i { st := .unlocked } s →
      unlockLace i s = reevaluate 0x5005 (raise 0x5005 3 [word i, word (laceTag i u), word (failingCell i u)] u))

/-- R338, R339, R341 to R346, R348 and R349: the commands of the monitor complete. When the procedures of a run hold
which reading, and which check a badly written record fails, is free (logs 32 and 52). -/
def Obligations.CalibrationEvents : Prop :=
  (∀ (g : Fin 32) (l : List Reading) (s t u : State),
    Alive s →
    (t = forAll (groupSlow g) (fun k => setStale k (refHolds g (runProgress s))) (runProgress s)) →
    u = forAll (groupTaps g ++ (slowReading g t).toList) (deliverReading g l) t →
      exec (.monitorScan g l) s = .next (stepSlews (groupItem g) { u with mon := { u.mon with slow := tset 0 u.mon.slow g.val (tget 0 u.mon.slow g.val + 1) } })) ∧
  (∀ (g : Nat) (l : List Reading) (key : Nat) (s u : State),
    refHolds g s = false →
    procHolds key s = false →
    u = useFresh 1 (setStale key false s) →
      deliverReading g l key s = match l.find? (fun x => rdKey x.kind.val x.index = key) with
        | some x => { u with mon := { u.mon with values := tset none u.mon.values key (some x.value) } }
        | none => u) ∧
  (∀ (g : Nat) (l : List Reading) (key : Nat) (s : State),
      (refHolds g s = true → deliverReading g l key s = setStale key true s) ∧
      (refHolds g s = false → procHolds key s = true → deliverReading g l key s =
        useFresh 1 (setStale key true { s with mon := { s.mon with heldOnce := s.mon.heldOnce ++ [key] } }))) ∧
  (∀ (a b : Int) (s : State),
    Alive s →
      exec (.bandgapCompare a b) s = .next (if 2400 < (b - a).natAbs then { s with mon := { s.mon with bg0 := a, bg1 := b, bgSince := s.mon.bgSince.or (some s.clk) } }
        else { s with mon := { s.mon with bg0 := a, bg1 := b, bgSince := none, bgTold := false } })) ∧
  (∀ (s : State) (t : Nat),
    Alive s →
    s.mon.bgSince = some t →
    5000000 ≤ since t s →
    s.mon.bgTold = false →
      exec (.bandgapFail) s = .next (reevaluate 0x6002 (raise 0x6002 3 [sword s.mon.bg0, sword s.mon.bg1]
        { s with mon := { s.mon with bgTold := true, failed := s.mon.failed ||| 1 } }))) ∧
  (∀ (s : State),
    Alive s →
    (s.mon.bgTold = true ∨ ∀ t, s.mon.bgSince = some t → since t s < 5000000) →
      exec (.bandgapFail) s = .next s) ∧
  (∀ (s : State) (i : Nat) (t : Q) (u : State),
    Alive s →
    calBusy s = false →
    drifted s = some (i, t) →
    u = raise 0x6004 1 [word i, qWord (reading 1 i s), qWord t] s →
      exec (.calDriftTest) s = .next (if relaceNear u then { u with mon := { u.mon with deferred := some u.clk } } else startRun 63 .drift u)) ∧
  (∀ (s : State),
    Alive s →
    (calBusy s = true ∨ drifted s = none) →
      exec (.calDriftTest) s = .next s) ∧
  (∀ (s : State),
      calBusy s = (decide (s.mon.running ≠ 0) || s.mon.deferred.isSome)) ∧
  (∀ (mask : Nat) (g : CalTrigger) (s : State),
      startRun mask g s = { s with mon := { s.mon with running := mask, trigger := g, deferred := none, proc := nextProc mask 0 s, procAt := s.clk, heldOnce := [], heldHeat := [] } }) ∧
  (∀ (s : State) (t : Nat),
    Alive s →
    s.mon.deferred = some t →
    (relaceNear s = false ∨ 5000000000 ≤ since t s) →
      exec (.calDeferredStart) s = .next (startRun 63 .drift s)) ∧
  (∀ (s : State),
    Alive s →
    (∀ t, s.mon.deferred = some t → (relaceNear s = true ∧ since t s < 5000000000)) →
      exec (.calDeferredStart) s = .next s) ∧
  (∀ (items l : List CalItem) (s : State) (skipped : Nat) (ran : List Nat) (e : State × Nat) (u : State),
    Alive s →
    s.mon.running ≠ 0 →
    s.mon.proc = 6 →
    l = items.filter itemOk →
    skipped = (if s.welt.powered then 0 else s.mon.running &&& 48) →
    (ran = (List.range 6).filter (fun b => s.mon.running / 2 ^ b % 2 = 1 && skipped / 2 ^ b % 2 = 0)) →
    (e = ran.foldl (fun a p => endProcedure l p a) (s, 0)) →
    (u = { e.1 with mon := { e.1.mon with
        running := 0, proc := 6, stale := [], lastMask := s.mon.running, failed := ((63 - (s.mon.running - skipped)) &&& e.1.mon.failed) ||| e.2, count := e.1.mon.count + 1, runCount := e.1.mon.count + 1, opsec := e.1.glb.opsec, pcycle := e.1.glb.pcycle, lastTemp := (if ran.contains 1 then (List.range 96).map (fun i => (i, some (reading 1 i e.1))) else e.1.mon.lastTemp), writeDue := true, atStart := e.1.mon.atStart || e.1.mon.trigger = .powerUp } }) →
      exec (.calRunComplete items) s = .next (calibrateAtStart (reevaluate 0x6001 (raise 0x6001 (if e.2 = 0 then 1 else 2)
        [word s.mon.running, word e.2, word skipped, u.mon.count, word (triggerCode u.mon.trigger)] u)))) ∧
  (∀ (l : List CalItem) (p n : Nat) (s v : State),
    (v = (if p = 5 then storeFf s
        else forAll (l.filter (fun x => x.proc.val = p && !itemFails x)) (fun x => newCorrection (itemKey x) x.value) s)) →
      endProcedure l p (s, n) = match firstFailing p l s with
        | some f => (useFresh 1 (raise 0x6003 2 [word p, word f.1, word f.2.1, sword f.2.2] v), n + 2 ^ p)
        | none => (v, n)) ∧
  (∀ (l : List CalItem) (s : State),
    Alive s →
    (s.mon.running = 0 ∨ s.mon.proc ≠ 6) →
      exec (.calRunComplete l) s = .next s) ∧
  (∀ (s : State) (n : Nat) (r : CalRec),
    Alive s →
    s.mon.writeDue = true →
    (s.fw.migrateDue && !s.fw.converted) = false →
    n = (if s.mon.current = some 1 then 2 else 1) →
    r = calRecord s →
      exec (.calRecordWrite true) s = .next { s with
        mon := { s.mon with writeDue := false, slots := tset none s.mon.slots n (some r), current := some n }
        fw := { s.fw with calVersion := r.version } }) ∧
  (∀ (s : State) (n : Nat),
    Alive s →
    s.mon.writeDue = true →
    (s.fw.migrateDue && !s.fw.converted) = false →
    n = (if s.mon.current = some 1 then 2 else 1) →
      exec (.calRecordWrite false) s = .next (useFresh 1 (raise 0x6006 2 [word n, s.mon.runCount] { s with
        mon := { s.mon with writeDue := false, slots := tset none s.mon.slots n (some { calRecord s with fault := some (Config.freeNat s.fresh % 3) }) } }))) ∧
  (∀ (ok : Bool) (s : State),
    Alive s →
    (s.mon.writeDue = false ∨ (s.fw.migrateDue && !s.fw.converted) = true) →
      exec (.calRecordWrite ok) s = .next s)

/-- The step of the block (the model's choice: logs 1, 51, 55 and 70); R43, R351 and R432 say what happens while no
command comes. -/
def Obligations.StepRunsCommand : Prop :=
  (∀ (c : Instr) (rest : List Instr) (s : State),
    s.pending = c :: rest →
      step s = exec c { s with pending := rest }) ∧
  (∀ (s : State),
    s.pending = [] →
      step s = .next (startWaiting (clock s))) ∧
  (∀ (s : State),
    s.mbx.waiting = [] →
      startWaiting s = s) ∧
  (∀ (s : State),
      clock s = activationRestart (if (tick s).power.on && !(tick s).power.held then lookAll (meshPass (tick s)) else tick s)) ∧
  (∀ (s : State),
    (∀ t, s.fw.restartAt = some t → since t s < min Config.restartTicks (ticksMs 50)) →
      activationRestart s = s) ∧
  (∀ (s : State) (t : Nat),
    s.fw.restartAt = some t →
    min Config.restartTicks (ticksMs 50) ≤ since t s →
      activationRestart s = moduleReset .activation false s) ∧
  (∀ (s : State),
    s.power.on = false →
    s.fw.restartAt = none →
      clock s = { s with clk := s.clk + 1 })

/-- The reset values that R27, R37, R47, R302, R316, R351, R353, R375 and R451 give. -/
def Obligations.ResetValues : Prop :=
  (
      State.reset.glb.state = .boot ∧ (∀ n, (slotOf State.reset n).cond = .free) ∧ State.reset.irq.cause = 0 ∧
      State.reset.irq.jobCause = 0 ∧ State.reset.irq.mask = 0xFF ∧ State.reset.irq.jobMask = 0xFFFF ∧ State.reset.irq.evtLevel = 2 ∧
      State.reset.tmu.ns = 0 ∧ State.reset.tmu.frac = 0 ∧ State.reset.tmu.era = 0 ∧ State.reset.tmu.addend = 0x20000000 ∧
      State.reset.tmu.holdover = true ∧ State.reset.tmu.timeoutS = 16 ∧ (∀ i, (schedOf State.reset i).st = .free) ∧
      State.reset.welt.powered = false ∧ (∀ i, laceOf State.reset.welt.active i = none ∧ laceOf State.reset.welt.shadow i = none) ∧
      (∀ j, (jobOf State.reset j).status = .free) ∧ (∀ t, (tileOf State.reset t).job = none) ∧ State.reset.power.eclk = 2200)

/-- The canonical form of a memory is the model's own (log 5); R451 gives the range of ECLK. -/
def Obligations.ResetIsSound : Prop :=
  (
      MemoryWf State.reset.mem.sram ∧ MemoryWf State.reset.mem.dram ∧ 1400 ≤ State.reset.power.eclk ∧
      State.reset.power.eclk ≤ 2200 ∧ State.reset.power.eclk % 25 = 0 ∧ State.reset.pending = [])

/-- The invariant of the model's representation of memory (log 5), over every command of the block. -/
def Obligations.MemoryStaysCanonical : Prop :=
  (∀ (s t : State),
    MemoryWf s.mem.sram →
    MemoryWf s.mem.dram →
    step s = .next t →
      MemoryWf t.mem.sram ∧ MemoryWf t.mem.dram)

/-- R451, over every command of the block. -/
def Obligations.ClockStaysInRange : Prop :=
  (∀ (s t : State),
    1400 ≤ s.power.eclk →
    s.power.eclk ≤ 2200 →
    s.power.eclk % 25 = 0 →
    step s = .next t →
      1400 ≤ t.power.eclk ∧ t.power.eclk ≤ 2200 ∧ t.power.eclk % 25 = 0)

/-- The queue is the model's own (log 1); R27 gives the fused fields of the GLB_ block. -/
def Obligations.QueueAndIdentityStay : Prop :=
  (∀ (c : Instr) (s t : State),
    exec c s = .next t →
      t.pending = s.pending ∧ t.glb.serial = s.glb.serial ∧ t.glb.dieRev = s.glb.dieRev ∧ t.glb.boardRev = s.glb.boardRev)

/-- The frame of the commands of every chapter over both memories; the addresses are those of winHit, boundPlace,
the FENCE step, matOuts and outSpans. The format and selector of a VECTOR output are those that R130 allows,
which the check at load requires. -/
def Obligations.MemoryFrame : Prop :=
  (∀ (c : Instr) (s t : State),
    mayStore c = false →
    exec c s = .next t →
      (∀ a, readByte t.mem.sram a = readByte s.mem.sram a) ∧ (∀ a, readByte t.mem.dram a = readByte s.mem.dram a)) ∧
  (∀ (a : BitVec 34) (bs : List Byte) (fl : List Flaw) (s u : State),
    a.toNat % 4096 + bs.length ≤ 4096 →
    u = inject fl s →
      ∃ t, exec (.bar2Write a bs fl) s = .next t ∧
      (∀ pl pa jk, winHit (a.toNat / 2 ^ 24) (a.toNat % 2 ^ 24) bs.length true u = .at pl pa jk →
        KeepsOutside (storedSram bs.length pl) (storedDram pl) s t) ∧
      (∀ c, winHit (a.toNat / 2 ^ 24) (a.toNat % 2 ^ 24) bs.length true u = .no c → KeepsOutside [] [] s t)) ∧
  (∀ (fl : List Flaw) (s u : State),
    Fed s →
    u = nextRequest s →
      ∃ t, exec (.stitchRequestReceive fl) s = .next t ∧ (u.fabric.inReq = [] → KeepsOutside [] [] s t) ∧
      ∀ p rest v q, u.fabric.inReq = p :: rest → v = inject fl { u with fabric := { u.fabric with inReq := rest } } →
        q = readRequest p.bytes →
        (∀ pl, boundPlace p q v = some pl → KeepsOutside (storedSram q.n pl) (storedDram pl) s t) ∧
        (boundPlace p q v = none → KeepsOutside [] [] s t)) ∧
  (∀ (t : Fin 64) (s : State) (st : BitVec 256),
    Fed s →
    toIssue 6 t s = some st →
    (sb st 2 3 = false ∨ sf st 3 0 17 < 98304) →
      ∃ u, exec (.fence t) s = .next u ∧
      KeepsOutside (if sf st 2 0 5 / 8 % 2 = 1 then tileRanges t [(64 * sf st 3 0 17, 64)] else []) [] s u) ∧
  (∀ (t : Fin 64) (s : State) (bits line : Nat),
    Fed s →
    (tileOf s t).hold = .fence bits line →
      ∃ u, exec (.fenceRelease t) s = .next u ∧
      KeepsOutside (if bits / 8 % 2 = 1 then tileRanges t [(64 * line, 64)] else []) [] s u) ∧
  (∀ (t : Fin 64) (flaws : List Flaw) (s : State) (st : BitVec 256) (u : State) (m : MatStep) (p : MatPlaces),
    Fed s →
    toIssue 1 t s = some st →
    (tileOf s t).matrixOp = none →
    u = inject flaws s →
    m = matStep st →
    p = matPlaces (tileOf s t) st →
    matInRange m p = true →
    (m.mode = 2 → scaleOk (nth 0 (bytesWords (stepBytes t m.param 64 u)) 1) = true ∧ scaleOk (nth 0 (bytesWords (stepBytes t m.param 64 u)) 2) = true) →
      ∃ w, exec (.matrix t flaws) s = .next w ∧ KeepsOutside (tileRanges t (matOuts m p)) [] s w) ∧
  (∀ (t : Fin 64) (flaws : List Flaw) (s : State) (st : BitVec 256) (u : State) (v : VecStep) (param : List Word),
    Fed s →
    toIssue 2 t s = some st →
    (tileOf s t).vectorOp = none →
    u = inject flaws s →
    v = vecStep (tileOf s t) st →
    param = (if v.readsParam && inSram v.param 64 then bytesWords (stepBytes t v.param 64 u) else []) →
    ((v.insSpans param ++ v.outSpans param).all (fun p => inSram p.1 p.2) = true) →
    (v.mode = 2 → scaleOk (nth 0 param 0) = true) →
    v.out.sel ≤ 1 →
    (v.out.fmt = 11 ↔ v.op = 0x29) →
      ∃ w, exec (.vector t flaws) s = .next w ∧ KeepsOutside (tileRanges t ((v.outSpans param).map spanRange)) [] s w) ∧
  (∀ (mark : Bool) (w c a : Nat) (bs : List Byte) (s : State) (x : Nat),
    (∀ k ∈ linesOf a bs.length, lineFrom c k s = k ∧ lineClass c k s = .clean []) →
    (x < dramAddr c a ∨ dramAddr c a + bs.length ≤ x) →
      readByte (dramWrite mark w c a bs s).mem.dram x = readByte s.mem.dram x)

/-- R26: the host's view of a module in Boot or in Dead. -/
def Obligations.BootAndDead : Prop :=
  (∀ (s : State),
    s.power.on = true →
    s.power.held = false →
    s.irq.d3hot = false →
    (s.glb.state = .boot ∨ s.glb.state = .dead) →
      exec .mbxErrRead s = .next (emit (.regValue 0x10020 0) s) ∧ exec .tmuNsRead s = .next (emit (.regValue 0x30000 0) s) ∧
      exec .logFillPeakRead s = .next (emit (.regValue 0x50008 0) s) ∧ exec .logLostRead s = .next (emit (.regValue 0x50020 0) s) ∧
      exec .tpmDropRead s = .next (emit (.regValue 0x60040 0) s)) ∧
  (∀ (hi : Bool) (v : Word) (n : Fin 8) (f : Bool) (s : State),
    (s.glb.state = .boot ∨ s.glb.state = .dead) →
      exec (.mbxRingWrite hi v) s = .next s ∧ exec (.mbxDoneWrite hi v) s = .next s ∧ exec (.irqMaskWrite v) s = .next s ∧
      exec (.irqJobMaskWrite v) s = .next s ∧ exec (.tmuAddendWrite v) s = .next s ∧ exec (.tmuStepWrite v) s = .next s ∧
      exec (.tmuWdogWrite v) s = .next s ∧ exec (.tpmTxTailWrite v) s = .next s ∧ exec (.tpmRingSizeWrite f v) s = .next s ∧
      exec (.cvuStart n f) s = .next s ∧ exec (.cvuCheck n) s = .next s ∧ exec (.cvuFeedB n v) s = .next s ∧
      exec (.cvuFeedH n v) s = .next s ∧ exec (.cvuFeedW n v) s = .next s ∧ exec (.cvuCtrlWrite n v) s = .next s) ∧
  (∀ (off : BitVec 26) (v : DWord) (s : State),
    (s.glb.state = .boot ∨ s.glb.state = .dead) →
    off.toNat % 4 = 0 →
    off.toNat ≠ 0x34 →
      exec (.registerWrite off v false) s = .next s) ∧
  (∀ (v : DWord) (s : State),
    answersBar s = true →
      exec (.registerWrite 0x34 v false) s = .next { s with glb := { s.glb with scratch := v.setWidth 32 } }) ∧
  (∀ (addr : BitVec 34) (n : Nat) (flaws : List Flaw) (s : State),
    s.power.on = true →
    s.power.held = false →
    s.irq.d3hot = false →
    (s.glb.state = .boot ∨ s.glb.state = .dead) →
    0 < n →
    addr.toNat % 4096 + n ≤ 4096 →
      exec (.bar2Read addr n flaws) s = .next (emit (.bar2Data (List.replicate n 0xFF)) s))

/-- R27, R52 and R54: the evaluation of the operating state and what a transition leaves. -/
def Obligations.StateEvaluation : Prop :=
  (∀ (cause : BitVec 16) (s : State),
    operating s = true →
    degrading s ≠ 0 →
      reevaluate cause s = enter .degraded cause s) ∧
  (∀ (cause : BitVec 16) (s : State),
    operating s = true →
    degrading s = 0 →
    anyRunning s = true →
      reevaluate cause s = enter .running cause s) ∧
  (∀ (cause : BitVec 16) (s : State),
    operating s = true →
    degrading s = 0 →
    anyRunning s = false →
      reevaluate cause s = enter .ready cause s) ∧
  (∀ (cause : BitVec 16) (s : State),
    operating s = false →
      reevaluate cause s = s) ∧
  (∀ (new : ModState) (cause : BitVec 16) (s : State),
    s.glb.state ≠ new →
      enter new cause s = raise 0xB006 1 [word (stateCode s.glb.state), word (stateCode new), cause.setWidth 32]
        (setCause 0 { s with
          glb := { s.glb with prev := BitVec.ofNat 4 (stateCode s.glb.state), state := new, seq := s.glb.seq + 1, cause := cause } })) ∧
  (∀ (cause : BitVec 16) (s : State),
      enter s.glb.state cause s = s) ∧
  (∀ (new : ModState) (cause : BitVec 16) (s : State),
    s.glb.state ≠ new →
      (enter new cause s).glb.state = new ∧ (enter new cause s).mem = s.mem ∧ (enter new cause s).jobs = s.jobs ∧ (enter new cause s).tiles = s.tiles ∧ (enter new cause s).tmu = s.tmu) ∧
  (∀ (v : Fin 8) (s : State),
    s.irq.cause.getLsbD v = false →
      (setCause v s).irq.cause = s.irq.cause ||| BitVec.ofNat 8 (2 ^ v.val))

/-- R402: storing, counting and discarding an event, with the recorder's medium good and no power-fail flush. -/
def Obligations.EventStore : Prop :=
  (∀ (code : BitVec 16) (sev : Nat) (items : List Word) (s : State) (r : Record),
    filtered code sev s = false →
    s.log.mediaFail = false →
    s.log.pf = false →
    r = { mkRecord code sev items s with seq := nextSeq s.log.seqNew } →
    sev ≤ 1 →
    fill s + recLen r ≤ 229376 →
      raise code sev items s = fireVector sev (some r.seq) (gasp r (bufferRecord r s)) ∧ (bufferRecord r s).log.buf = s.log.buf ++ [r] ∧ (bufferRecord r s).log.counts = s.log.counts) ∧
  (∀ (code : BitVec 16) (sev : Nat) (items : List Word) (s : State) (r : Record),
    filtered code sev s = false →
    s.log.mediaFail = false →
    s.log.pf = false →
    r = { mkRecord code sev items s with seq := nextSeq s.log.seqNew } →
    2 ≤ sev →
    fill s + recLen r ≤ 262144 →
      raise code sev items s = fireVector sev (some r.seq) (gasp r (bufferRecord r s))) ∧
  (∀ (code : BitVec 16) (sev : Nat) (items : List Word) (s : State) (r : Record),
    filtered code sev s = false →
    s.log.mediaFail = false →
    s.log.pf = false →
    r = mkRecord code sev items s →
    (if sev ≤ 1 then 229376 else 262144) < fill s + recLen r →
      raise code sev items s = fireVector sev none (gasp r { s with log := countEvent code r.opsec s.log }) ∧ (raise code sev items s).irq.evtSeq = s.irq.evtSeq) ∧
  (∀ (sev : Nat) (q : Option Word) (s : State),
    (3 ≤ sev ∨ s.irq.evtLevel.toNat ≤ sev) →
      fireVector sev q s = setCause (if 3 ≤ sev then 0 else 1) (match q with | some n => { s with irq := { s.irq with evtSeq := n } } | none => s)) ∧
  (∀ (code : BitVec 16) (sev : Nat) (items : List Word) (s : State),
    filtered code sev s = true →
      raise code sev items s = s) ∧
  (∀ (code : BitVec 16) (opsec : Word) (l : Rec),
    (∃ p ∈ l.counts, p.1 = code) →
      (countEvent code opsec l).counts = l.counts.map (fun p => if p.1 = code then (p.1, min (p.2 + 1) 0xFFFF) else p)) ∧
  (∀ (code : BitVec 16) (opsec : Word) (l : Rec),
    (∀ p ∈ l.counts, p.1 ≠ code) →
    l.counts.length < 246 →
      (countEvent code opsec l).counts = l.counts ++ [(code, 1)])

/-- R26, R29, R30 and R57: the order of the checks of a request. -/
def Obligations.CheckOrder : Prop :=
  (∀ (t : Taken) (s : State),
    (commandOf t.opcode.toNat).isNone = true →
      runTaken t s = complete t.req false .badOpcode [] [] s) ∧
  (∀ (c : Cmd) (r : Req) (s : State),
    (reqLength r < 2 ∨ 512 < reqLength r ∨ c.len (reqLength r) = false) →
      answer c r s = .reply .badLength [] [] s) ∧
  (∀ (c : Cmd) (r : Req) (s : State),
    2 ≤ reqLength r →
    reqLength r ≤ 512 →
    c.len (reqLength r) = true →
    headerOk r = false →
      answer c r s = .reply .badArg c.badHeader [] (c.refused r s)) ∧
  (∀ (c : Cmd) (r : Req) (s : State),
    2 ≤ reqLength r →
    reqLength r ≤ 512 →
    c.len (reqLength r) = true →
    headerOk r = true →
    admits c.op s = false →
      answer c r s = .reply .wrongState c.unadmitted [] (c.refused r s)) ∧
  (∀ (c : Cmd) (r : Req) (s : State) (st : Status) (ws : List Word),
    2 ≤ reqLength r →
    reqLength r ≤ 512 →
    c.len (reqLength r) = true →
    headerOk r = true →
    admits c.op s = true →
    c.object r s = some (st, ws) →
      answer c r s = .reply st ws [] (c.refused r s)) ∧
  (∀ (c : Cmd) (r : Req) (s : State) (st : Status) (ws : List Word),
    2 ≤ reqLength r →
    reqLength r ≤ 512 →
    c.len (reqLength r) = true →
    headerOk r = true →
    admits c.op s = true →
    c.object r s = none →
    c.args r s = some (st, ws) →
      answer c r s = .reply st ws [] (c.refused r s)) ∧
  (∀ (c : Cmd) (r : Req) (s : State),
    2 ≤ reqLength r →
    reqLength r ≤ 512 →
    c.len (reqLength r) = true →
    headerOk r = true →
    admits c.op s = true →
    c.object r s = none →
    c.args r s = none →
      answer c r s = c.run r s) ∧
  (∀ (c : Cmd) (r : Req) (s : State),
    serving s = false →
      runCmd c r s = s)

/-- R214, R216 and R218: the Reed-Solomon code over a line. -/
def Obligations.DeviceFailure : Prop :=
  (∀ (i : Nat) (l : List Nat) (mark : Option Nat),
    i < 10 →
    l.length = 16 →
    (∀ v ∈ l, v < 16) →
    (∃ v ∈ l, v ≠ 0) →
    (mark = none ∨ mark = some i) →
      classify mark (l.map (fun v => BitVec.ofNat 40 (v * 16 ^ i))) = .ce i (List.replicate 16 0)) ∧
  (∀ (i j : Nat) (v w : Nat) (l m : List (BitVec 40)),
    i < 10 →
    j < 10 →
    i ≠ j →
    0 < v →
    v < 16 →
    0 < w →
    w < 16 →
    l.length + m.length = 14 →
      classify none (l ++ BitVec.ofNat 40 (v * 16 ^ i) :: BitVec.ofNat 40 (w * 16 ^ j) :: m) = .ue) ∧
  (∀ (i k : Nat) (v : Nat) (l m : List (BitVec 40)),
    i < 10 →
    k ≠ i →
    0 < v →
    v < 16 →
    l.length + m.length = 15 →
      classify (some k) (l ++ BitVec.ofNat 40 (v * 16 ^ i) :: m) = .ue) ∧
  (∀ (mark : Option Nat),
      classify mark [] = .clean [] ∧ classify mark (List.replicate 16 0) = .clean (List.replicate 16 0)) ∧
  (∀ (c line : Nat) (s : State) (p : Nat) (l : List (BitVec 40)) (i : Nat),
    lineFrom c line s = line →
    (lineClass c line s = .clean l ∨ lineClass c line s = .ce p l) →
    (l.all (fun b => b = 0) = true) →
    i < 64 →
      dramByte c (64 * line + i) s = cellByte c (64 * line + i) s ∧
      (64 * line + i < cap s - 2 ^ 20 → dramByte c (64 * line + i) s = readByte s.mem.dram (dramAddr c (64 * line + i))))

/-- R87: the packing of ternary elements and the invalid codes. -/
def Obligations.TernCodes : Prop :=
  (∀ (c i : Nat),
    c < 243 →
    i < 5 →
      nth 0 (trits c) i = (c / 3 ^ i % 3 : Nat) - 1 ∧ (trits c).length = 5 ∧ tritCode (trits c) = c) ∧
  (∀ (a b c d e : Int),
    (a = -1 ∨ a = 0 ∨ a = 1) →
    (b = -1 ∨ b = 0 ∨ b = 1) →
    (c = -1 ∨ c = 0 ∨ c = 1) →
    (d = -1 ∨ d = 0 ∨ d = 1) →
    (e = -1 ∨ e = 0 ∨ e = 1) →
      (tritCode [a, b, c, d, e] : Int) = (a + 1) + 3 * (b + 1) + 9 * (c + 1) + 27 * (d + 1) + 81 * (e + 1) ∧ tritCode [a, b, c, d, e] < 243 ∧ trits (tritCode [a, b, c, d, e]) = [a, b, c, d, e]) ∧
  (
      trits 121 = [0, 0, 0, 0, 0]) ∧
  (∀ (c : Nat),
    243 ≤ c →
      trits c = [0, 0, 0, 0, 0]) ∧
  (∀ (m : MatStep) (w : Nat) (l : List Nat) (r k j : Nat),
    r < l.length →
    k < m.K / 128 →
    j < 26 →
    243 ≤ byteAt (l.getD r 0) (32 * k + j) →
      (firstInvalid m w l).isSome = true) ∧
  (∀ (t : Nat) (a : Arith) (s : State),
    a.ternInv.isSome = true →
      (tileOf (keepArith t a s) t).ternInv = true) ∧
  (∀ (t : Fin 64) (flaws : List Flaw) (s : State) (st : BitVec 256) (u : State) (m : MatStep) (p : MatPlaces) (r k j : Nat),
    Fed s →
    toIssue 1 t s = some st →
    (tileOf s t).matrixOp = none →
    u = inject flaws s →
    m = matStep st →
    p = matPlaces (tileOf s t) st →
    matInRange m p = true →
    (m.mode = 2 → scaleOk (nth 0 (bytesWords (stepBytes t m.param 64 u)) 1) = true ∧ scaleOk (nth 0 (bytesWords (stepBytes t m.param 64 u)) 2) = true) →
    m.wf = 11 →
    r < 128 →
    k < m.K / 128 →
    j < 26 →
    243 ≤ byteAt (stepBits t (p.w.toNat + r * m.wPitch) (rowBytes 11 m.K) u) (32 * k + j) →
      ∃ w, exec (.matrix t flaws) s = .next w ∧ (tileOf w t).ternInv = true) ∧
  (∀ (t : Fin 64) (flaws : List Flaw) (s : State) (st : BitVec 256) (u : State) (v : VecStep) (param : List Word) (o : VecOperand) (b : Nat),
    Fed s →
    toIssue 2 t s = some st →
    (tileOf s t).vectorOp = none →
    u = inject flaws s →
    v = vecStep (tileOf s t) st →
    param = (if v.readsParam && inSram v.param 64 then bytesWords (stepBytes t v.param 64 u) else []) →
    ((v.insSpans param ++ v.outSpans param).all (fun p => inSram p.1 p.2) = true) →
    (v.mode = 2 → scaleOk (nth 0 param 0) = true) →
    o ∈ v.operands →
    o.sel = 0 →
    o.fmt = 11 →
    b < vecBytes 11 v.n →
    b % 32 < 26 →
    243 ≤ byteAt (stepBits t (64 * o.off).toNat (vecBytes 11 v.n) u) b →
      ∃ w, exec (.vector t flaws) s = .next w ∧ (tileOf w t).ternInv = true)

/-- R343 and R344: the deferral of automatic runs. -/
def Obligations.Deferral : Prop :=
  (∀ (s : State),
      relaceNear s = (s.welt.relace.isSome || s.sched.entries.any (fun e => e.2.st = .armed && e.2.action = 1 && siteDiff e.2.instant (siteNow s) ≤ 20000000))) ∧
  (∀ (s : State) (i : Nat) (t : Q) (u : State),
    Alive s →
    calBusy s = false →
    drifted s = some (i, t) →
    u = raise 0x6004 1 [word i, qWord (reading 1 i s), qWord t] s →
    relaceNear u = true →
      exec (.calDriftTest) s = .next { u with mon := { u.mon with deferred := some u.clk } }) ∧
  (∀ (s : State) (t : Nat),
    Alive s →
    s.mon.deferred = some t →
    (relaceNear s = false ∨ 5000000000 ≤ since t s) →
      exec (.calDeferredStart) s = .next (startRun 63 .drift s)) ∧
  (∀ (s : State) (t : Nat),
    Alive s →
    s.mon.deferred = some t →
    relaceNear s = true →
    since t s < 5000000000 →
      exec (.calDeferredStart) s = .next s) ∧
  (∀ (r : Req) (s : State),
    Asked 0x0701 3 r s →
    relaceNear s = true →
    calBusy s = false →
    zeroFrom r 2 6 = true →
    rf r 2 0 6 ≠ 0 →
      exec (.calRun r) s = Answers r .accepted [] (startRun (rf r 2 0 6) .command s))

/-- R477 and the order of R478. -/
def Obligations.StatusLeds : Prop :=
  (∀ (s : State),
    s.power.on = true →
    s.power.failing = true →
      ledPwr s = .amberBlink) ∧
  (∀ (s : State),
    s.power.on = false →
      ledPwr s = .off ∧ ledState s = .off ∧ ledSvc s = .off ∧ ∀ k, ledLace k s = .off) ∧
  (∀ (s : State) (k : Nat),
    s.glb.state = .boot ∨ s.glb.state = .dead →
      ledSvc s = .off ∧ ledLace k s = .off) ∧
  (∀ (s : State),
    ledsDriven s = true →
    s.fw.unlocked = true →
      ledSvc s = .redBlink) ∧
  (∀ (s : State) (k : Nat),
    s.welt.powered = false →
      ledLace k s = .off) ∧
  (∀ (s : State) (i : Nat) (x : Lace) (k : Nat),
    ledsDriven s = true →
    s.welt.powered = true →
    (i, some x) ∈ s.welt.active →
    onReceptacle k (i % 160) = true ∨ onReceptacle k x.outlet = true →
    (runOf s i).st = .unlocked →
      ledLace k s = .red)
end

