-- ==== Sys2Proof/Laws/Table.lean ====
section
/-! SUPPORT. Tables and byte memories: reading after writing, and that every write keeps the canonical form. -/

namespace Sys2Proof.Machine

variable {α : Type}

/-! Reading after writing. -/

@[simp] theorem tget_nil (d : α) (k : Nat) : tget d [] k = d := rfl

theorem tget_terase_same (d : α) (t : Tbl α) (k : Nat) : tget d (terase t k) k = d := by
  induction t with
  | nil => rfl
  | cons p t ih =>
    obtain ⟨j, v⟩ := p
    by_cases h : j = k <;> simp [terase, tget, h, ih]

theorem tget_terase_other (d : α) (t : Tbl α) {k j : Nat} (h : j ≠ k) : tget d (terase t k) j = tget d t j := by
  induction t with
  | nil => rfl
  | cons p t ih =>
    obtain ⟨i, v⟩ := p
    by_cases hi : i = k
    · subst hi
      simp only [terase, if_true, tget, ih]
      rw [if_neg (fun e => h e.symm)]
    · simp only [terase, if_neg hi, tget, ih]

theorem tget_tput_same (d : α) (t : Tbl α) (k : Nat) (v : α) (hk : ∀ p ∈ t, p.1 ≠ k) :
    tget d (tput t k v) k = v := by
  induction t with
  | nil => simp [tput, tget]
  | cons p t ih =>
    obtain ⟨j, w⟩ := p
    have hj : j ≠ k := hk (j, w) (by simp)
    simp only [tput]
    split
    · simp only [tget, if_neg hj]
      exact ih (fun p hp => hk p (by simp [hp]))
    · simp [tget]

theorem tget_tput_other (d : α) (t : Tbl α) {k j : Nat} (v : α) (h : j ≠ k) : tget d (tput t k v) j = tget d t j := by
  induction t with
  | nil => simp [tput, tget, Ne.symm h]
  | cons p t ih =>
    obtain ⟨i, w⟩ := p
    simp only [tput]
    split
    · simp only [tget, ih]
    · simp only [tget, if_neg (fun e : k = j => h e.symm)]

theorem terase_keys (t : Tbl α) (k : Nat) : ∀ p ∈ terase t k, p ∈ t ∧ p.1 ≠ k := by
  induction t with
  | nil => simp [terase]
  | cons q t ih =>
    obtain ⟨j, w⟩ := q
    intro p hp
    by_cases h : j = k
    · simp only [terase, h, if_true] at hp
      exact ⟨by simp [(ih p hp).1], (ih p hp).2⟩
    · simp only [terase, if_neg h, List.mem_cons] at hp
      rcases hp with rfl | hp
      · exact ⟨by simp, h⟩
      · exact ⟨by simp [(ih p hp).1], (ih p hp).2⟩

theorem tput_mem (t : Tbl α) (k : Nat) (v : α) : ∀ p ∈ tput t k v, p = (k, v) ∨ p ∈ t := by
  induction t with
  | nil => simp [tput]
  | cons q t ih =>
    obtain ⟨j, w⟩ := q
    intro p hp
    simp only [tput] at hp
    split at hp
    · rcases List.mem_cons.1 hp with rfl | hp
      · exact .inr (by simp)
      · rcases ih p hp with h | h
        · exact .inl h
        · exact .inr (by simp [h])
    · rcases List.mem_cons.1 hp with rfl | hp
      · exact .inl rfl
      · exact .inr hp

variable [DecidableEq α]

/-- An entry reads as what was set last. -/
@[simp] theorem tget_tset_same (d : α) (t : Tbl α) (k : Nat) (v : α) : tget d (tset d t k v) k = v := by
  unfold tset
  split
  · next h => rw [h]; exact tget_terase_same d t k
  · exact tget_tput_same d _ k v (fun p hp => (terase_keys t k p hp).2)

/-- Setting an entry leaves every other. -/
@[simp] theorem tget_tset_other (d : α) (t : Tbl α) {k j : Nat} (v : α) (h : j ≠ k) :
    tget d (tset d t k v) j = tget d t j := by
  unfold tset
  split
  · exact tget_terase_other d t h
  · rw [tget_tput_other d _ v h, tget_terase_other d t h]

/-! The canonical form. -/

theorem terase_wf (d : α) {t : Tbl α} (h : TableWf d t) (k : Nat) : TableWf d (terase t k) := by
  constructor
  · induction t with
    | nil => simp [terase]
    | cons p t ih =>
      obtain ⟨j, v⟩ := p
      have ht : TableWf d t := ⟨(List.pairwise_cons.1 h.1).2, fun q hq => h.2 q (by simp [hq])⟩
      by_cases hj : j = k
      · simpa [terase, hj] using ih ht
      · simp only [terase, if_neg hj, List.pairwise_cons]
        exact ⟨fun q hq => (List.pairwise_cons.1 h.1).1 q (terase_keys t k q hq).1, ih ht⟩
  · exact fun p hp => h.2 p (terase_keys t k p hp).1

theorem tput_wf (d : α) {t : Tbl α} (h : TableWf d t) {k : Nat} (hk : ∀ p ∈ t, p.1 ≠ k) {v : α} (hv : v ≠ d) :
    TableWf d (tput t k v) := by
  constructor
  · induction t with
    | nil => simp [tput]
    | cons q t ih =>
      obtain ⟨j, w⟩ := q
      have ht : TableWf d t := ⟨(List.pairwise_cons.1 h.1).2, fun q hq => h.2 q (by simp [hq])⟩
      have hlt := (List.pairwise_cons.1 h.1).1
      have hj : j ≠ k := hk (j, w) (by simp)
      simp only [tput]
      split
      · next hjk =>
        rw [List.pairwise_cons]
        refine ⟨fun p hp => ?_, ih ht (fun p hp => hk p (by simp [hp]))⟩
        rcases tput_mem t k v p hp with rfl | hp
        · exact hjk
        · exact hlt p hp
      · next hjk =>
        rw [List.pairwise_cons]
        refine ⟨fun p hp => ?_, h.1⟩
        rcases List.mem_cons.1 hp with rfl | hp
        · show k < j
          omega
        · have := hlt p hp
          show k < p.1
          simp only at this
          omega
  · intro p hp
    rcases tput_mem t k v p hp with rfl | hp
    · exact hv
    · exact h.2 p hp

/-- Setting an entry keeps the canonical form. -/
theorem tset_wf (d : α) {t : Tbl α} (h : TableWf d t) (k : Nat) (v : α) : TableWf d (tset d t k v) := by
  unfold tset
  split
  · exact terase_wf d h k
  · next hv => exact tput_wf d (terase_wf d h k) (fun p hp => (terase_keys t k p hp).2) hv

theorem filter_wf (d : α) {t : Tbl α} (h : TableWf d t) (f : Nat × α → Bool) : TableWf d (t.filter f) :=
  ⟨h.1.filter f, fun p hp => h.2 p (List.mem_filter.1 hp).1⟩

/-! Byte memories. -/

theorem writeBytes_wf {m : Tbl Byte} (h : MemoryWf m) (a : Nat) (bs : List Byte) : MemoryWf (writeBytes m a bs) := by
  induction bs generalizing m a with
  | nil => exact h
  | cons b bs ih => exact ih (tset_wf 0 h a b) (a + 1)

theorem zeroBytes_wf {m : Tbl Byte} (h : MemoryWf m) (a n : Nat) : MemoryWf (zeroBytes m a n) :=
  filter_wf 0 h _

@[simp] theorem readByte_writeByte_same (m : Tbl Byte) (a : Nat) (b : Byte) : readByte (writeByte m a b) a = b := by
  simp [readByte, writeByte]

@[simp] theorem readByte_writeByte_other (m : Tbl Byte) {a x : Nat} (b : Byte) (h : x ≠ a) :
    readByte (writeByte m a b) x = readByte m x := by
  simp [readByte, writeByte, h]

/-- A write of bytes leaves every address outside them. -/
theorem readByte_writeBytes_other (m : Tbl Byte) (a : Nat) (bs : List Byte) {x : Nat} (h : x < a ∨ a + bs.length ≤ x) :
    readByte (writeBytes m a bs) x = readByte m x := by
  induction bs generalizing m a with
  | nil => rfl
  | cons b bs ih =>
    simp only [List.length_cons] at h
    rw [writeBytes, ih _ _ (by omega), readByte_writeByte_other _ _ (by omega)]

/-- Inside a write of bytes, the byte written reads back. -/
theorem readByte_writeBytes_in (m : Tbl Byte) (a : Nat) (bs : List Byte) {i : Nat} (h : i < bs.length) :
    readByte (writeBytes m a bs) (a + i) = bs[i] := by
  induction bs generalizing m a i with
  | nil => simp at h
  | cons b bs ih =>
    cases i with
    | zero =>
      rw [writeBytes, readByte_writeBytes_other _ _ _ (by omega)]
      simp
    | succ i =>
      have := ih (writeByte m a b) (a + 1) (i := i) (by simpa using h)
      simpa [writeBytes, Nat.add_assoc, Nat.add_comm 1] using this

end Sys2Proof.Machine
end

