-- ==== Sys2Proof/Laws/State.lean ====
section
/-! SUPPORT. The shared operations on State: what each updater leaves, field by field, reading back what was set, and
the outcomes of the guards that commands share. -/

namespace Sys2Proof.Machine

/-! The guards. -/

/-- A command of a live module acts (R454). -/
theorem live_next {f : State → State} {s : State} (h : s.power.on = true) (hh : s.power.held = false) :
    live f s = .next (f s) := by
  simp [live, h, hh]

/-- A command of a fed module acts (R448, R454). -/
theorem fed_next {f : State → State} {s : State} (h : s.power.on = true) (hh : s.power.held = false)
    (hp : s.power.failing = false) : fed f s = .next (f s) := by
  simp [fed, h, hh, hp]

/-- In hold-up, held or unpowered, a command of a fed module does nothing (R448, R454). -/
theorem fed_still {f : State → State} {s : State} (h : s.power.on = false ∨ s.power.held = true ∨ s.power.failing = true) :
    fed f s = .next s := by
  rcases h with h | h | h <;> simp [fed, h]

/-- A command by which operations are sent acts where no activation waits for its restart (R432). -/
theorem sends_next {f : State → State} {s : State} (h : s.power.on = true) (hh : s.power.held = false)
    (hp : s.power.failing = false) (hr : s.fw.restartAt = none) : sends f s = .next (f s) := by
  simp [sends, fed, h, hh, hp, hr]

/-- A command of a powered module acts (R448, R454). -/
theorem powered_next {f : State → State} {s : State} (h : s.power.on = true) : powered f s = .next (f s) := by
  simp [powered, h]

/-- A host write that reaches its register acts (R20, R26). -/
theorem onWrite_next {f : State → State} {s : State} (h : reachable s = true) : onWrite f s = .next (f s) := by
  simp [onWrite, h]

/-- A host read that reaches its register acts (R20, R26). -/
theorem onRead_next {off : Nat} {f : State → State} {s : State} (h : reachable s = true) :
    onRead off f s = .next (f s) := by
  simp [onRead, h]

/-- Where all of BAR0 answers, the function completes accesses and Yarler serves. -/
theorem reachable_parts {s : State} (h : reachable s = true) :
    answersBar s = true ∧ serving s = true ∧ s.irq.d3hot = false := by
  revert h
  cases h1 : s.irq.d3hot <;> cases h2 : s.power.on <;> cases h3 : s.power.held <;>
    simp [answersBar, reachable, serving, h1, h2, h3]

/-- Where Yarler serves, the module is powered, out of reset and neither in Boot nor in Dead. -/
theorem serving_parts {s : State} (h : serving s = true) :
    s.power.on = true ∧ s.power.held = false ∧ s.glb.yarlerUp = true ∧ s.glb.state ≠ .boot ∧ s.glb.state ≠ .dead := by
  simp only [serving, Bool.and_eq_true, Bool.not_eq_true', decide_eq_true_eq] at h
  exact ⟨h.1.1.1.1, h.1.1.1.2, h.1.1.2, h.1.2, h.2⟩

/-! What each updater leaves. -/

/-! setTile. -/

@[simp] theorem setTile_glb (t : Nat) (x : Tile) (s : State) : (setTile t x s).glb = s.glb := (rfl)
@[simp] theorem setTile_mbx (t : Nat) (x : Tile) (s : State) : (setTile t x s).mbx = s.mbx := (rfl)
@[simp] theorem setTile_irq (t : Nat) (x : Tile) (s : State) : (setTile t x s).irq = s.irq := (rfl)
@[simp] theorem setTile_bar2 (t : Nat) (x : Tile) (s : State) : (setTile t x s).bar2 = s.bar2 := (rfl)
@[simp] theorem setTile_tmu (t : Nat) (x : Tile) (s : State) : (setTile t x s).tmu = s.tmu := (rfl)
@[simp] theorem setTile_sched (t : Nat) (x : Tile) (s : State) : (setTile t x s).sched = s.sched := (rfl)
@[simp] theorem setTile_tpm (t : Nat) (x : Tile) (s : State) : (setTile t x s).tpm = s.tpm := (rfl)
@[simp] theorem setTile_cvus (t : Nat) (x : Tile) (s : State) : (setTile t x s).cvus = s.cvus := (rfl)
@[simp] theorem setTile_log (t : Nat) (x : Tile) (s : State) : (setTile t x s).log = s.log := (rfl)
@[simp] theorem setTile_power (t : Nat) (x : Tile) (s : State) : (setTile t x s).power = s.power := (rfl)
@[simp] theorem setTile_fw (t : Nat) (x : Tile) (s : State) : (setTile t x s).fw = s.fw := (rfl)
@[simp] theorem setTile_jobs (t : Nat) (x : Tile) (s : State) : (setTile t x s).jobs = s.jobs := (rfl)
@[simp] theorem setTile_stitch (t : Nat) (x : Tile) (s : State) : (setTile t x s).stitch = s.stitch := (rfl)
@[simp] theorem setTile_mem (t : Nat) (x : Tile) (s : State) : (setTile t x s).mem = s.mem := (rfl)
@[simp] theorem setTile_place (t : Nat) (x : Tile) (s : State) : (setTile t x s).place = s.place := (rfl)
@[simp] theorem setTile_fabric (t : Nat) (x : Tile) (s : State) : (setTile t x s).fabric = s.fabric := (rfl)
@[simp] theorem setTile_welt (t : Nat) (x : Tile) (s : State) : (setTile t x s).welt = s.welt := (rfl)
@[simp] theorem setTile_shank (t : Nat) (x : Tile) (s : State) : (setTile t x s).shank = s.shank := (rfl)
@[simp] theorem setTile_mon (t : Nat) (x : Tile) (s : State) : (setTile t x s).mon = s.mon := (rfl)
@[simp] theorem setTile_resil (t : Nat) (x : Tile) (s : State) : (setTile t x s).resil = s.resil := (rfl)
@[simp] theorem setTile_clk (t : Nat) (x : Tile) (s : State) : (setTile t x s).clk = s.clk := (rfl)
@[simp] theorem setTile_fresh (t : Nat) (x : Tile) (s : State) : (setTile t x s).fresh = s.fresh := (rfl)
@[simp] theorem setTile_out (t : Nat) (x : Tile) (s : State) : (setTile t x s).out = s.out := (rfl)
@[simp] theorem setTile_pending (t : Nat) (x : Tile) (s : State) : (setTile t x s).pending = s.pending := (rfl)

/-! setJob. -/

@[simp] theorem setJob_glb (j : Nat) (x : Job) (s : State) : (setJob j x s).glb = s.glb := (rfl)
@[simp] theorem setJob_mbx (j : Nat) (x : Job) (s : State) : (setJob j x s).mbx = s.mbx := (rfl)
@[simp] theorem setJob_irq (j : Nat) (x : Job) (s : State) : (setJob j x s).irq = s.irq := (rfl)
@[simp] theorem setJob_bar2 (j : Nat) (x : Job) (s : State) : (setJob j x s).bar2 = s.bar2 := (rfl)
@[simp] theorem setJob_tmu (j : Nat) (x : Job) (s : State) : (setJob j x s).tmu = s.tmu := (rfl)
@[simp] theorem setJob_sched (j : Nat) (x : Job) (s : State) : (setJob j x s).sched = s.sched := (rfl)
@[simp] theorem setJob_tpm (j : Nat) (x : Job) (s : State) : (setJob j x s).tpm = s.tpm := (rfl)
@[simp] theorem setJob_cvus (j : Nat) (x : Job) (s : State) : (setJob j x s).cvus = s.cvus := (rfl)
@[simp] theorem setJob_log (j : Nat) (x : Job) (s : State) : (setJob j x s).log = s.log := (rfl)
@[simp] theorem setJob_power (j : Nat) (x : Job) (s : State) : (setJob j x s).power = s.power := (rfl)
@[simp] theorem setJob_fw (j : Nat) (x : Job) (s : State) : (setJob j x s).fw = s.fw := (rfl)
@[simp] theorem setJob_tiles (j : Nat) (x : Job) (s : State) : (setJob j x s).tiles = s.tiles := (rfl)
@[simp] theorem setJob_stitch (j : Nat) (x : Job) (s : State) : (setJob j x s).stitch = s.stitch := (rfl)
@[simp] theorem setJob_mem (j : Nat) (x : Job) (s : State) : (setJob j x s).mem = s.mem := (rfl)
@[simp] theorem setJob_place (j : Nat) (x : Job) (s : State) : (setJob j x s).place = s.place := (rfl)
@[simp] theorem setJob_fabric (j : Nat) (x : Job) (s : State) : (setJob j x s).fabric = s.fabric := (rfl)
@[simp] theorem setJob_welt (j : Nat) (x : Job) (s : State) : (setJob j x s).welt = s.welt := (rfl)
@[simp] theorem setJob_shank (j : Nat) (x : Job) (s : State) : (setJob j x s).shank = s.shank := (rfl)
@[simp] theorem setJob_mon (j : Nat) (x : Job) (s : State) : (setJob j x s).mon = s.mon := (rfl)
@[simp] theorem setJob_resil (j : Nat) (x : Job) (s : State) : (setJob j x s).resil = s.resil := (rfl)
@[simp] theorem setJob_clk (j : Nat) (x : Job) (s : State) : (setJob j x s).clk = s.clk := (rfl)
@[simp] theorem setJob_fresh (j : Nat) (x : Job) (s : State) : (setJob j x s).fresh = s.fresh := (rfl)
@[simp] theorem setJob_out (j : Nat) (x : Job) (s : State) : (setJob j x s).out = s.out := (rfl)
@[simp] theorem setJob_pending (j : Nat) (x : Job) (s : State) : (setJob j x s).pending = s.pending := (rfl)

/-! setSlot. -/

@[simp] theorem setSlot_glb (n : Nat) (x : Slot) (s : State) : (setSlot n x s).glb = s.glb := (rfl)
@[simp] theorem setSlot_irq (n : Nat) (x : Slot) (s : State) : (setSlot n x s).irq = s.irq := (rfl)
@[simp] theorem setSlot_bar2 (n : Nat) (x : Slot) (s : State) : (setSlot n x s).bar2 = s.bar2 := (rfl)
@[simp] theorem setSlot_tmu (n : Nat) (x : Slot) (s : State) : (setSlot n x s).tmu = s.tmu := (rfl)
@[simp] theorem setSlot_sched (n : Nat) (x : Slot) (s : State) : (setSlot n x s).sched = s.sched := (rfl)
@[simp] theorem setSlot_tpm (n : Nat) (x : Slot) (s : State) : (setSlot n x s).tpm = s.tpm := (rfl)
@[simp] theorem setSlot_cvus (n : Nat) (x : Slot) (s : State) : (setSlot n x s).cvus = s.cvus := (rfl)
@[simp] theorem setSlot_log (n : Nat) (x : Slot) (s : State) : (setSlot n x s).log = s.log := (rfl)
@[simp] theorem setSlot_power (n : Nat) (x : Slot) (s : State) : (setSlot n x s).power = s.power := (rfl)
@[simp] theorem setSlot_fw (n : Nat) (x : Slot) (s : State) : (setSlot n x s).fw = s.fw := (rfl)
@[simp] theorem setSlot_jobs (n : Nat) (x : Slot) (s : State) : (setSlot n x s).jobs = s.jobs := (rfl)
@[simp] theorem setSlot_tiles (n : Nat) (x : Slot) (s : State) : (setSlot n x s).tiles = s.tiles := (rfl)
@[simp] theorem setSlot_stitch (n : Nat) (x : Slot) (s : State) : (setSlot n x s).stitch = s.stitch := (rfl)
@[simp] theorem setSlot_mem (n : Nat) (x : Slot) (s : State) : (setSlot n x s).mem = s.mem := (rfl)
@[simp] theorem setSlot_place (n : Nat) (x : Slot) (s : State) : (setSlot n x s).place = s.place := (rfl)
@[simp] theorem setSlot_fabric (n : Nat) (x : Slot) (s : State) : (setSlot n x s).fabric = s.fabric := (rfl)
@[simp] theorem setSlot_welt (n : Nat) (x : Slot) (s : State) : (setSlot n x s).welt = s.welt := (rfl)
@[simp] theorem setSlot_shank (n : Nat) (x : Slot) (s : State) : (setSlot n x s).shank = s.shank := (rfl)
@[simp] theorem setSlot_mon (n : Nat) (x : Slot) (s : State) : (setSlot n x s).mon = s.mon := (rfl)
@[simp] theorem setSlot_resil (n : Nat) (x : Slot) (s : State) : (setSlot n x s).resil = s.resil := (rfl)
@[simp] theorem setSlot_clk (n : Nat) (x : Slot) (s : State) : (setSlot n x s).clk = s.clk := (rfl)
@[simp] theorem setSlot_fresh (n : Nat) (x : Slot) (s : State) : (setSlot n x s).fresh = s.fresh := (rfl)
@[simp] theorem setSlot_out (n : Nat) (x : Slot) (s : State) : (setSlot n x s).out = s.out := (rfl)
@[simp] theorem setSlot_pending (n : Nat) (x : Slot) (s : State) : (setSlot n x s).pending = s.pending := (rfl)

/-! setChan. -/

@[simp] theorem setChan_glb (c : Nat) (x : Chan) (s : State) : (setChan c x s).glb = s.glb := (rfl)
@[simp] theorem setChan_mbx (c : Nat) (x : Chan) (s : State) : (setChan c x s).mbx = s.mbx := (rfl)
@[simp] theorem setChan_irq (c : Nat) (x : Chan) (s : State) : (setChan c x s).irq = s.irq := (rfl)
@[simp] theorem setChan_bar2 (c : Nat) (x : Chan) (s : State) : (setChan c x s).bar2 = s.bar2 := (rfl)
@[simp] theorem setChan_tmu (c : Nat) (x : Chan) (s : State) : (setChan c x s).tmu = s.tmu := (rfl)
@[simp] theorem setChan_sched (c : Nat) (x : Chan) (s : State) : (setChan c x s).sched = s.sched := (rfl)
@[simp] theorem setChan_tpm (c : Nat) (x : Chan) (s : State) : (setChan c x s).tpm = s.tpm := (rfl)
@[simp] theorem setChan_cvus (c : Nat) (x : Chan) (s : State) : (setChan c x s).cvus = s.cvus := (rfl)
@[simp] theorem setChan_log (c : Nat) (x : Chan) (s : State) : (setChan c x s).log = s.log := (rfl)
@[simp] theorem setChan_power (c : Nat) (x : Chan) (s : State) : (setChan c x s).power = s.power := (rfl)
@[simp] theorem setChan_fw (c : Nat) (x : Chan) (s : State) : (setChan c x s).fw = s.fw := (rfl)
@[simp] theorem setChan_jobs (c : Nat) (x : Chan) (s : State) : (setChan c x s).jobs = s.jobs := (rfl)
@[simp] theorem setChan_tiles (c : Nat) (x : Chan) (s : State) : (setChan c x s).tiles = s.tiles := (rfl)
@[simp] theorem setChan_stitch (c : Nat) (x : Chan) (s : State) : (setChan c x s).stitch = s.stitch := (rfl)
@[simp] theorem setChan_place (c : Nat) (x : Chan) (s : State) : (setChan c x s).place = s.place := (rfl)
@[simp] theorem setChan_fabric (c : Nat) (x : Chan) (s : State) : (setChan c x s).fabric = s.fabric := (rfl)
@[simp] theorem setChan_welt (c : Nat) (x : Chan) (s : State) : (setChan c x s).welt = s.welt := (rfl)
@[simp] theorem setChan_shank (c : Nat) (x : Chan) (s : State) : (setChan c x s).shank = s.shank := (rfl)
@[simp] theorem setChan_mon (c : Nat) (x : Chan) (s : State) : (setChan c x s).mon = s.mon := (rfl)
@[simp] theorem setChan_resil (c : Nat) (x : Chan) (s : State) : (setChan c x s).resil = s.resil := (rfl)
@[simp] theorem setChan_clk (c : Nat) (x : Chan) (s : State) : (setChan c x s).clk = s.clk := (rfl)
@[simp] theorem setChan_fresh (c : Nat) (x : Chan) (s : State) : (setChan c x s).fresh = s.fresh := (rfl)
@[simp] theorem setChan_out (c : Nat) (x : Chan) (s : State) : (setChan c x s).out = s.out := (rfl)
@[simp] theorem setChan_pending (c : Nat) (x : Chan) (s : State) : (setChan c x s).pending = s.pending := (rfl)

/-! setEntry. -/

@[simp] theorem setEntry_glb (e : Nat) (x : SEntry) (s : State) : (setEntry e x s).glb = s.glb := (rfl)
@[simp] theorem setEntry_mbx (e : Nat) (x : SEntry) (s : State) : (setEntry e x s).mbx = s.mbx := (rfl)
@[simp] theorem setEntry_irq (e : Nat) (x : SEntry) (s : State) : (setEntry e x s).irq = s.irq := (rfl)
@[simp] theorem setEntry_bar2 (e : Nat) (x : SEntry) (s : State) : (setEntry e x s).bar2 = s.bar2 := (rfl)
@[simp] theorem setEntry_tmu (e : Nat) (x : SEntry) (s : State) : (setEntry e x s).tmu = s.tmu := (rfl)
@[simp] theorem setEntry_sched (e : Nat) (x : SEntry) (s : State) : (setEntry e x s).sched = s.sched := (rfl)
@[simp] theorem setEntry_tpm (e : Nat) (x : SEntry) (s : State) : (setEntry e x s).tpm = s.tpm := (rfl)
@[simp] theorem setEntry_cvus (e : Nat) (x : SEntry) (s : State) : (setEntry e x s).cvus = s.cvus := (rfl)
@[simp] theorem setEntry_log (e : Nat) (x : SEntry) (s : State) : (setEntry e x s).log = s.log := (rfl)
@[simp] theorem setEntry_power (e : Nat) (x : SEntry) (s : State) : (setEntry e x s).power = s.power := (rfl)
@[simp] theorem setEntry_fw (e : Nat) (x : SEntry) (s : State) : (setEntry e x s).fw = s.fw := (rfl)
@[simp] theorem setEntry_jobs (e : Nat) (x : SEntry) (s : State) : (setEntry e x s).jobs = s.jobs := (rfl)
@[simp] theorem setEntry_tiles (e : Nat) (x : SEntry) (s : State) : (setEntry e x s).tiles = s.tiles := (rfl)
@[simp] theorem setEntry_mem (e : Nat) (x : SEntry) (s : State) : (setEntry e x s).mem = s.mem := (rfl)
@[simp] theorem setEntry_place (e : Nat) (x : SEntry) (s : State) : (setEntry e x s).place = s.place := (rfl)
@[simp] theorem setEntry_fabric (e : Nat) (x : SEntry) (s : State) : (setEntry e x s).fabric = s.fabric := (rfl)
@[simp] theorem setEntry_welt (e : Nat) (x : SEntry) (s : State) : (setEntry e x s).welt = s.welt := (rfl)
@[simp] theorem setEntry_shank (e : Nat) (x : SEntry) (s : State) : (setEntry e x s).shank = s.shank := (rfl)
@[simp] theorem setEntry_mon (e : Nat) (x : SEntry) (s : State) : (setEntry e x s).mon = s.mon := (rfl)
@[simp] theorem setEntry_resil (e : Nat) (x : SEntry) (s : State) : (setEntry e x s).resil = s.resil := (rfl)
@[simp] theorem setEntry_clk (e : Nat) (x : SEntry) (s : State) : (setEntry e x s).clk = s.clk := (rfl)
@[simp] theorem setEntry_fresh (e : Nat) (x : SEntry) (s : State) : (setEntry e x s).fresh = s.fresh := (rfl)
@[simp] theorem setEntry_out (e : Nat) (x : SEntry) (s : State) : (setEntry e x s).out = s.out := (rfl)
@[simp] theorem setEntry_pending (e : Nat) (x : SEntry) (s : State) : (setEntry e x s).pending = s.pending := (rfl)

/-! setSched. -/

@[simp] theorem setSched_glb (i : Nat) (x : Entry) (s : State) : (setSched i x s).glb = s.glb := (rfl)
@[simp] theorem setSched_mbx (i : Nat) (x : Entry) (s : State) : (setSched i x s).mbx = s.mbx := (rfl)
@[simp] theorem setSched_irq (i : Nat) (x : Entry) (s : State) : (setSched i x s).irq = s.irq := (rfl)
@[simp] theorem setSched_bar2 (i : Nat) (x : Entry) (s : State) : (setSched i x s).bar2 = s.bar2 := (rfl)
@[simp] theorem setSched_tmu (i : Nat) (x : Entry) (s : State) : (setSched i x s).tmu = s.tmu := (rfl)
@[simp] theorem setSched_tpm (i : Nat) (x : Entry) (s : State) : (setSched i x s).tpm = s.tpm := (rfl)
@[simp] theorem setSched_cvus (i : Nat) (x : Entry) (s : State) : (setSched i x s).cvus = s.cvus := (rfl)
@[simp] theorem setSched_log (i : Nat) (x : Entry) (s : State) : (setSched i x s).log = s.log := (rfl)
@[simp] theorem setSched_power (i : Nat) (x : Entry) (s : State) : (setSched i x s).power = s.power := (rfl)
@[simp] theorem setSched_fw (i : Nat) (x : Entry) (s : State) : (setSched i x s).fw = s.fw := (rfl)
@[simp] theorem setSched_jobs (i : Nat) (x : Entry) (s : State) : (setSched i x s).jobs = s.jobs := (rfl)
@[simp] theorem setSched_tiles (i : Nat) (x : Entry) (s : State) : (setSched i x s).tiles = s.tiles := (rfl)
@[simp] theorem setSched_stitch (i : Nat) (x : Entry) (s : State) : (setSched i x s).stitch = s.stitch := (rfl)
@[simp] theorem setSched_mem (i : Nat) (x : Entry) (s : State) : (setSched i x s).mem = s.mem := (rfl)
@[simp] theorem setSched_place (i : Nat) (x : Entry) (s : State) : (setSched i x s).place = s.place := (rfl)
@[simp] theorem setSched_fabric (i : Nat) (x : Entry) (s : State) : (setSched i x s).fabric = s.fabric := (rfl)
@[simp] theorem setSched_welt (i : Nat) (x : Entry) (s : State) : (setSched i x s).welt = s.welt := (rfl)
@[simp] theorem setSched_shank (i : Nat) (x : Entry) (s : State) : (setSched i x s).shank = s.shank := (rfl)
@[simp] theorem setSched_mon (i : Nat) (x : Entry) (s : State) : (setSched i x s).mon = s.mon := (rfl)
@[simp] theorem setSched_resil (i : Nat) (x : Entry) (s : State) : (setSched i x s).resil = s.resil := (rfl)
@[simp] theorem setSched_clk (i : Nat) (x : Entry) (s : State) : (setSched i x s).clk = s.clk := (rfl)
@[simp] theorem setSched_fresh (i : Nat) (x : Entry) (s : State) : (setSched i x s).fresh = s.fresh := (rfl)
@[simp] theorem setSched_out (i : Nat) (x : Entry) (s : State) : (setSched i x s).out = s.out := (rfl)
@[simp] theorem setSched_pending (i : Nat) (x : Entry) (s : State) : (setSched i x s).pending = s.pending := (rfl)

/-! setCvu. -/

@[simp] theorem setCvu_glb (n : Nat) (x : Cvu) (s : State) : (setCvu n x s).glb = s.glb := (rfl)
@[simp] theorem setCvu_mbx (n : Nat) (x : Cvu) (s : State) : (setCvu n x s).mbx = s.mbx := (rfl)
@[simp] theorem setCvu_irq (n : Nat) (x : Cvu) (s : State) : (setCvu n x s).irq = s.irq := (rfl)
@[simp] theorem setCvu_bar2 (n : Nat) (x : Cvu) (s : State) : (setCvu n x s).bar2 = s.bar2 := (rfl)
@[simp] theorem setCvu_tmu (n : Nat) (x : Cvu) (s : State) : (setCvu n x s).tmu = s.tmu := (rfl)
@[simp] theorem setCvu_sched (n : Nat) (x : Cvu) (s : State) : (setCvu n x s).sched = s.sched := (rfl)
@[simp] theorem setCvu_tpm (n : Nat) (x : Cvu) (s : State) : (setCvu n x s).tpm = s.tpm := (rfl)
@[simp] theorem setCvu_log (n : Nat) (x : Cvu) (s : State) : (setCvu n x s).log = s.log := (rfl)
@[simp] theorem setCvu_power (n : Nat) (x : Cvu) (s : State) : (setCvu n x s).power = s.power := (rfl)
@[simp] theorem setCvu_fw (n : Nat) (x : Cvu) (s : State) : (setCvu n x s).fw = s.fw := (rfl)
@[simp] theorem setCvu_jobs (n : Nat) (x : Cvu) (s : State) : (setCvu n x s).jobs = s.jobs := (rfl)
@[simp] theorem setCvu_tiles (n : Nat) (x : Cvu) (s : State) : (setCvu n x s).tiles = s.tiles := (rfl)
@[simp] theorem setCvu_stitch (n : Nat) (x : Cvu) (s : State) : (setCvu n x s).stitch = s.stitch := (rfl)
@[simp] theorem setCvu_mem (n : Nat) (x : Cvu) (s : State) : (setCvu n x s).mem = s.mem := (rfl)
@[simp] theorem setCvu_place (n : Nat) (x : Cvu) (s : State) : (setCvu n x s).place = s.place := (rfl)
@[simp] theorem setCvu_fabric (n : Nat) (x : Cvu) (s : State) : (setCvu n x s).fabric = s.fabric := (rfl)
@[simp] theorem setCvu_welt (n : Nat) (x : Cvu) (s : State) : (setCvu n x s).welt = s.welt := (rfl)
@[simp] theorem setCvu_shank (n : Nat) (x : Cvu) (s : State) : (setCvu n x s).shank = s.shank := (rfl)
@[simp] theorem setCvu_mon (n : Nat) (x : Cvu) (s : State) : (setCvu n x s).mon = s.mon := (rfl)
@[simp] theorem setCvu_resil (n : Nat) (x : Cvu) (s : State) : (setCvu n x s).resil = s.resil := (rfl)
@[simp] theorem setCvu_clk (n : Nat) (x : Cvu) (s : State) : (setCvu n x s).clk = s.clk := (rfl)
@[simp] theorem setCvu_fresh (n : Nat) (x : Cvu) (s : State) : (setCvu n x s).fresh = s.fresh := (rfl)
@[simp] theorem setCvu_out (n : Nat) (x : Cvu) (s : State) : (setCvu n x s).out = s.out := (rfl)
@[simp] theorem setCvu_pending (n : Nat) (x : Cvu) (s : State) : (setCvu n x s).pending = s.pending := (rfl)

/-! setPage. -/

@[simp] theorem setPage_glb (p : Nat) (x : Window) (s : State) : (setPage p x s).glb = s.glb := (rfl)
@[simp] theorem setPage_mbx (p : Nat) (x : Window) (s : State) : (setPage p x s).mbx = s.mbx := (rfl)
@[simp] theorem setPage_irq (p : Nat) (x : Window) (s : State) : (setPage p x s).irq = s.irq := (rfl)
@[simp] theorem setPage_tmu (p : Nat) (x : Window) (s : State) : (setPage p x s).tmu = s.tmu := (rfl)
@[simp] theorem setPage_sched (p : Nat) (x : Window) (s : State) : (setPage p x s).sched = s.sched := (rfl)
@[simp] theorem setPage_tpm (p : Nat) (x : Window) (s : State) : (setPage p x s).tpm = s.tpm := (rfl)
@[simp] theorem setPage_cvus (p : Nat) (x : Window) (s : State) : (setPage p x s).cvus = s.cvus := (rfl)
@[simp] theorem setPage_log (p : Nat) (x : Window) (s : State) : (setPage p x s).log = s.log := (rfl)
@[simp] theorem setPage_power (p : Nat) (x : Window) (s : State) : (setPage p x s).power = s.power := (rfl)
@[simp] theorem setPage_fw (p : Nat) (x : Window) (s : State) : (setPage p x s).fw = s.fw := (rfl)
@[simp] theorem setPage_jobs (p : Nat) (x : Window) (s : State) : (setPage p x s).jobs = s.jobs := (rfl)
@[simp] theorem setPage_tiles (p : Nat) (x : Window) (s : State) : (setPage p x s).tiles = s.tiles := (rfl)
@[simp] theorem setPage_stitch (p : Nat) (x : Window) (s : State) : (setPage p x s).stitch = s.stitch := (rfl)
@[simp] theorem setPage_mem (p : Nat) (x : Window) (s : State) : (setPage p x s).mem = s.mem := (rfl)
@[simp] theorem setPage_place (p : Nat) (x : Window) (s : State) : (setPage p x s).place = s.place := (rfl)
@[simp] theorem setPage_fabric (p : Nat) (x : Window) (s : State) : (setPage p x s).fabric = s.fabric := (rfl)
@[simp] theorem setPage_welt (p : Nat) (x : Window) (s : State) : (setPage p x s).welt = s.welt := (rfl)
@[simp] theorem setPage_shank (p : Nat) (x : Window) (s : State) : (setPage p x s).shank = s.shank := (rfl)
@[simp] theorem setPage_mon (p : Nat) (x : Window) (s : State) : (setPage p x s).mon = s.mon := (rfl)
@[simp] theorem setPage_resil (p : Nat) (x : Window) (s : State) : (setPage p x s).resil = s.resil := (rfl)
@[simp] theorem setPage_clk (p : Nat) (x : Window) (s : State) : (setPage p x s).clk = s.clk := (rfl)
@[simp] theorem setPage_fresh (p : Nat) (x : Window) (s : State) : (setPage p x s).fresh = s.fresh := (rfl)
@[simp] theorem setPage_out (p : Nat) (x : Window) (s : State) : (setPage p x s).out = s.out := (rfl)
@[simp] theorem setPage_pending (p : Nat) (x : Window) (s : State) : (setPage p x s).pending = s.pending := (rfl)

/-! emit. -/

@[simp] theorem emit_glb (o : Output) (s : State) : (emit o s).glb = s.glb := (rfl)
@[simp] theorem emit_mbx (o : Output) (s : State) : (emit o s).mbx = s.mbx := (rfl)
@[simp] theorem emit_irq (o : Output) (s : State) : (emit o s).irq = s.irq := (rfl)
@[simp] theorem emit_bar2 (o : Output) (s : State) : (emit o s).bar2 = s.bar2 := (rfl)
@[simp] theorem emit_tmu (o : Output) (s : State) : (emit o s).tmu = s.tmu := (rfl)
@[simp] theorem emit_sched (o : Output) (s : State) : (emit o s).sched = s.sched := (rfl)
@[simp] theorem emit_tpm (o : Output) (s : State) : (emit o s).tpm = s.tpm := (rfl)
@[simp] theorem emit_cvus (o : Output) (s : State) : (emit o s).cvus = s.cvus := (rfl)
@[simp] theorem emit_log (o : Output) (s : State) : (emit o s).log = s.log := (rfl)
@[simp] theorem emit_power (o : Output) (s : State) : (emit o s).power = s.power := (rfl)
@[simp] theorem emit_fw (o : Output) (s : State) : (emit o s).fw = s.fw := (rfl)
@[simp] theorem emit_jobs (o : Output) (s : State) : (emit o s).jobs = s.jobs := (rfl)
@[simp] theorem emit_tiles (o : Output) (s : State) : (emit o s).tiles = s.tiles := (rfl)
@[simp] theorem emit_stitch (o : Output) (s : State) : (emit o s).stitch = s.stitch := (rfl)
@[simp] theorem emit_mem (o : Output) (s : State) : (emit o s).mem = s.mem := (rfl)
@[simp] theorem emit_place (o : Output) (s : State) : (emit o s).place = s.place := (rfl)
@[simp] theorem emit_fabric (o : Output) (s : State) : (emit o s).fabric = s.fabric := (rfl)
@[simp] theorem emit_welt (o : Output) (s : State) : (emit o s).welt = s.welt := (rfl)
@[simp] theorem emit_shank (o : Output) (s : State) : (emit o s).shank = s.shank := (rfl)
@[simp] theorem emit_mon (o : Output) (s : State) : (emit o s).mon = s.mon := (rfl)
@[simp] theorem emit_resil (o : Output) (s : State) : (emit o s).resil = s.resil := (rfl)
@[simp] theorem emit_clk (o : Output) (s : State) : (emit o s).clk = s.clk := (rfl)
@[simp] theorem emit_fresh (o : Output) (s : State) : (emit o s).fresh = s.fresh := (rfl)
@[simp] theorem emit_pending (o : Output) (s : State) : (emit o s).pending = s.pending := (rfl)

/-! useFresh. -/

@[simp] theorem useFresh_glb (n : Nat) (s : State) : (useFresh n s).glb = s.glb := (rfl)
@[simp] theorem useFresh_mbx (n : Nat) (s : State) : (useFresh n s).mbx = s.mbx := (rfl)
@[simp] theorem useFresh_irq (n : Nat) (s : State) : (useFresh n s).irq = s.irq := (rfl)
@[simp] theorem useFresh_bar2 (n : Nat) (s : State) : (useFresh n s).bar2 = s.bar2 := (rfl)
@[simp] theorem useFresh_tmu (n : Nat) (s : State) : (useFresh n s).tmu = s.tmu := (rfl)
@[simp] theorem useFresh_sched (n : Nat) (s : State) : (useFresh n s).sched = s.sched := (rfl)
@[simp] theorem useFresh_tpm (n : Nat) (s : State) : (useFresh n s).tpm = s.tpm := (rfl)
@[simp] theorem useFresh_cvus (n : Nat) (s : State) : (useFresh n s).cvus = s.cvus := (rfl)
@[simp] theorem useFresh_log (n : Nat) (s : State) : (useFresh n s).log = s.log := (rfl)
@[simp] theorem useFresh_power (n : Nat) (s : State) : (useFresh n s).power = s.power := (rfl)
@[simp] theorem useFresh_fw (n : Nat) (s : State) : (useFresh n s).fw = s.fw := (rfl)
@[simp] theorem useFresh_jobs (n : Nat) (s : State) : (useFresh n s).jobs = s.jobs := (rfl)
@[simp] theorem useFresh_tiles (n : Nat) (s : State) : (useFresh n s).tiles = s.tiles := (rfl)
@[simp] theorem useFresh_stitch (n : Nat) (s : State) : (useFresh n s).stitch = s.stitch := (rfl)
@[simp] theorem useFresh_mem (n : Nat) (s : State) : (useFresh n s).mem = s.mem := (rfl)
@[simp] theorem useFresh_place (n : Nat) (s : State) : (useFresh n s).place = s.place := (rfl)
@[simp] theorem useFresh_fabric (n : Nat) (s : State) : (useFresh n s).fabric = s.fabric := (rfl)
@[simp] theorem useFresh_welt (n : Nat) (s : State) : (useFresh n s).welt = s.welt := (rfl)
@[simp] theorem useFresh_shank (n : Nat) (s : State) : (useFresh n s).shank = s.shank := (rfl)
@[simp] theorem useFresh_mon (n : Nat) (s : State) : (useFresh n s).mon = s.mon := (rfl)
@[simp] theorem useFresh_resil (n : Nat) (s : State) : (useFresh n s).resil = s.resil := (rfl)
@[simp] theorem useFresh_clk (n : Nat) (s : State) : (useFresh n s).clk = s.clk := (rfl)
@[simp] theorem useFresh_out (n : Nat) (s : State) : (useFresh n s).out = s.out := (rfl)
@[simp] theorem useFresh_pending (n : Nat) (s : State) : (useFresh n s).pending = s.pending := (rfl)

/-! Reading back. -/

@[simp] theorem tileOf_setTile_same (n : Nat) (x : Tile) (s : State) : tileOf (setTile n x s) n = x := by
  simp [tileOf, setTile]

@[simp] theorem tileOf_setTile_other {n m : Nat} (x : Tile) (s : State) (h : m ≠ n) : tileOf (setTile n x s) m = tileOf s m := by
  simp [tileOf, setTile, h]

@[simp] theorem jobOf_setJob_same (n : Nat) (x : Job) (s : State) : jobOf (setJob n x s) n = x := by
  simp [jobOf, setJob]

@[simp] theorem jobOf_setJob_other {n m : Nat} (x : Job) (s : State) (h : m ≠ n) : jobOf (setJob n x s) m = jobOf s m := by
  simp [jobOf, setJob, h]

@[simp] theorem slotOf_setSlot_same (n : Nat) (x : Slot) (s : State) : slotOf (setSlot n x s) n = x := by
  simp [slotOf, setSlot]

@[simp] theorem slotOf_setSlot_other {n m : Nat} (x : Slot) (s : State) (h : m ≠ n) : slotOf (setSlot n x s) m = slotOf s m := by
  simp [slotOf, setSlot, h]

@[simp] theorem chanOf_setChan_same (n : Nat) (x : Chan) (s : State) : chanOf (setChan n x s) n = x := by
  simp [chanOf, setChan]

@[simp] theorem chanOf_setChan_other {n m : Nat} (x : Chan) (s : State) (h : m ≠ n) : chanOf (setChan n x s) m = chanOf s m := by
  simp [chanOf, setChan, h]

@[simp] theorem entryOf_setEntry_same (n : Nat) (x : SEntry) (s : State) : entryOf (setEntry n x s) n = x := by
  simp [entryOf, setEntry]

@[simp] theorem entryOf_setEntry_other {n m : Nat} (x : SEntry) (s : State) (h : m ≠ n) : entryOf (setEntry n x s) m = entryOf s m := by
  simp [entryOf, setEntry, h]

@[simp] theorem schedOf_setSched_same (n : Nat) (x : Entry) (s : State) : schedOf (setSched n x s) n = x := by
  simp [schedOf, setSched]

@[simp] theorem schedOf_setSched_other {n m : Nat} (x : Entry) (s : State) (h : m ≠ n) : schedOf (setSched n x s) m = schedOf s m := by
  simp [schedOf, setSched, h]

@[simp] theorem cvuOf_setCvu_same (n : Nat) (x : Cvu) (s : State) : cvuOf (setCvu n x s) n = x := by
  simp [cvuOf, setCvu]

@[simp] theorem cvuOf_setCvu_other {n m : Nat} (x : Cvu) (s : State) (h : m ≠ n) : cvuOf (setCvu n x s) m = cvuOf s m := by
  simp [cvuOf, setCvu, h]

@[simp] theorem pageOf_setPage_same (n : Nat) (x : Window) (s : State) : pageOf (setPage n x s) n = x := by
  simp [pageOf, setPage]

@[simp] theorem pageOf_setPage_other {n m : Nat} (x : Window) (s : State) (h : m ≠ n) : pageOf (setPage n x s) m = pageOf s m := by
  simp [pageOf, setPage, h]

end Sys2Proof.Machine
end

