-- ==== Sys2Proof/Laws/Events.lean ====
section
/-! SUPPORT. Events and state transitions: what raising an event can change, and the cause bits it leaves. -/

namespace Sys2Proof.Machine

/-- `t` is `s` but for the recorder, the interrupt block and what the module has sent. -/
def Loud (s t : State) : Prop := t = { s with log := t.log, irq := t.irq, out := t.out }

theorem Loud.refl (s : State) : Loud s s := rfl

theorem Loud.trans {s t u : State} (h : Loud s t) (g : Loud t u) : Loud s u := by
  unfold Loud at *
  rw [h] at g
  exact g

theorem loud_emit (o : Output) (s : State) : Loud s (emit o s) := rfl

theorem loud_sendMsix (v : Nat) (s : State) : Loud s (sendMsix v s) := by
  unfold sendMsix
  simp only []
  repeat' split
  all_goals rfl

/-- Setting a cause bit changes the interrupt block, and sends at most a message (R48). -/
theorem loud_setCause (v : Nat) (s : State) : Loud s (setCause v s) := by
  unfold setCause
  simp only []
  repeat' split
  · rfl
  · rfl
  · exact Loud.trans (by exact rfl) (loud_sendMsix v _)

theorem loud_growBuffer (l : List Record) (s : State) : Loud s (growBuffer l s) := by
  unfold growBuffer
  simp only []
  split
  · exact Loud.trans (by exact rfl) (loud_setCause 7 _)
  · rfl

theorem loud_bufferRecord (r : Record) (s : State) : Loud s (bufferRecord r s) :=
  Loud.trans (by exact rfl) (loud_growBuffer _ _)

theorem loud_gasp (r : Record) (s : State) : Loud s (gasp r s) := by
  unfold gasp
  split <;> rfl

theorem loud_fireVector (sev : Nat) (seq : Option Word) (s : State) : Loud s (fireVector sev seq s) := by
  unfold fireVector
  split
  · cases seq with
    | none => exact loud_setCause _ s
    | some q => exact Loud.trans (by exact rfl) (loud_setCause _ _)
  · rfl

/-- Raising an event touches the recorder, the interrupt block and the outputs, and nothing else (R394 to R404). -/
theorem loud_raise (code : BitVec 16) (sev : Nat) (items : List Word) (s : State) : Loud s (raise code sev items s) := by
  unfold raise
  simp only []
  split
  · rfl
  · split <;> split
    · exact Loud.trans (by exact rfl) ((loud_bufferRecord _ _).trans ((loud_gasp _ _).trans (loud_fireVector _ _ _)))
    · exact Loud.trans (by exact rfl) ((loud_gasp _ _).trans (loud_fireVector _ _ _))
    · exact (loud_bufferRecord _ _).trans ((loud_gasp _ _).trans (loud_fireVector _ _ _))
    · exact Loud.trans (by exact rfl) ((loud_gasp _ _).trans (loud_fireVector _ _ _))

theorem loud_raiseLimited (code : BitVec 16) (sev key gap n : Nat) (items : Nat → List Word) (s : State) :
    Loud s (raiseLimited code sev key gap n items s) := by
  unfold raiseLimited
  simp only []
  repeat' split
  all_goals first | rfl | exact Loud.trans (by exact rfl) (loud_raise _ _ _ _)

/-- A state transition touches the state registers beside what an event touches (R27, R54). -/
theorem enter_eq (new : ModState) (cause : BitVec 16) (s : State) (h : s.glb.state ≠ new) :
    let t := enter new cause s
    t = { s with
      glb := { s.glb with prev := BitVec.ofNat 4 (stateCode s.glb.state), state := new, seq := s.glb.seq + 1, cause := cause }
      log := t.log, irq := t.irq, out := t.out } := by
  have key : Loud { s with
      glb := { s.glb with prev := BitVec.ofNat 4 (stateCode s.glb.state), state := new, seq := s.glb.seq + 1, cause := cause } }
      (enter new cause s) := by
    unfold enter
    rw [if_neg h]
    exact (loud_setCause 0 _).trans (loud_raise _ _ _ _)
  exact key

/-- A module already in a state does not enter it again (R54). -/
theorem enter_same (cause : BitVec 16) (s : State) : enter s.glb.state cause s = s := by
  unfold enter
  rw [if_pos rfl]

/-- What any quantity outside the recorder, the interrupt block and the outputs reads after an event. -/
theorem Loud.same {s t : State} (h : Loud s t) :
    t.glb = s.glb ∧ t.mbx = s.mbx ∧ t.jobs = s.jobs ∧ t.tiles = s.tiles ∧ t.stitch = s.stitch ∧ t.mem = s.mem ∧
    t.place = s.place ∧ t.fabric = s.fabric ∧ t.welt = s.welt ∧ t.power = s.power ∧ t.fw = s.fw ∧ t.tmu = s.tmu ∧
    t.fresh = s.fresh ∧ t.clk = s.clk ∧ t.pending = s.pending := by
  unfold Loud at h
  rw [h]
  exact ⟨rfl, rfl, rfl, rfl, rfl, rfl, rfl, rfl, rfl, rfl, rfl, rfl, rfl, rfl, rfl⟩

end Sys2Proof.Machine
end

