-- ==== Sys2Proof/Laws/Quiet.lean ====
section
/-! SUPPORT. What a quiet operation leaves alone: the memories, ECLK, the queue of commands and the fused identity. One
lemma for each operation of the model that writes none of these. -/

namespace Sys2Proof.Machine

/-- The part of the machine that most operations leave: SRAM, DRAM, ECLK, the queue and the fused identity. -/
def quietOf (s : State) : Tbl Byte × Tbl Byte × Nat × List Instr × DWord × Byte × Byte :=
  (s.mem.sram, s.mem.dram, s.power.eclk, s.pending, s.glb.serial, s.glb.dieRev, s.glb.boardRev)

@[simp] theorem quietOf_mk (glb mbx irq bar2 tmu sched tpm cvus log power fw jobs tiles stitch mem place fabric welt shank mon resil clk fresh out pending) :
    quietOf { glb := glb, mbx := mbx, irq := irq, bar2 := bar2, tmu := tmu, sched := sched, tpm := tpm, cvus := cvus, log := log, power := power, fw := fw, jobs := jobs, tiles := tiles, stitch := stitch, mem := mem, place := place, fabric := fabric, welt := welt, shank := shank, mon := mon, resil := resil, clk := clk, fresh := fresh, out := out, pending := pending : State } =
      (mem.sram, mem.dram, power.eclk, pending, glb.serial, glb.dieRev, glb.boardRev) := (rfl)

@[simp] theorem quietOf_eta (s : State) :
    (s.mem.sram, s.mem.dram, s.power.eclk, s.pending, s.glb.serial, s.glb.dieRev, s.glb.boardRev) =
      quietOf s := (rfl)

@[simp] theorem foldl_quiet {β : Type} (f : State → β → State) (h : ∀ s x, quietOf (f s x) = quietOf s) (l : List β)
    (s : State) : quietOf (l.foldl f s) = quietOf s := by
  induction l generalizing s with
  | nil => rfl
  | cons a l ih => simp [ih, h]

@[simp] theorem forAll_quiet {β : Type} (f : β → State → State) (h : ∀ x s, quietOf (f x s) = quietOf s) (l : List β)
    (s : State) : quietOf (forAll l f s) = quietOf s := by
  unfold forAll; exact foldl_quiet _ (fun s x => h x s) l s

@[simp] theorem setTile_quiet (t : Nat) (x : Tile) (s : State) :
    quietOf (setTile t x s) = quietOf s := by simp [setTile, apply_ite quietOf]

@[simp] theorem modTile_quiet (t : Nat) (f : Tile → Tile) (s : State) :
    quietOf (modTile t f s) = quietOf s := by simp [modTile, apply_ite quietOf]

@[simp] theorem setJob_quiet (j : Nat) (x : Job) (s : State) :
    quietOf (setJob j x s) = quietOf s := by simp [setJob, apply_ite quietOf]

@[simp] theorem modJob_quiet (j : Nat) (f : Job → Job) (s : State) :
    quietOf (modJob j f s) = quietOf s := by simp [modJob, apply_ite quietOf]

@[simp] theorem setSlot_quiet (n : Nat) (x : Slot) (s : State) :
    quietOf (setSlot n x s) = quietOf s := by simp [setSlot, apply_ite quietOf]

@[simp] theorem modSlot_quiet (n : Nat) (f : Slot → Slot) (s : State) :
    quietOf (modSlot n f s) = quietOf s := by simp [modSlot, apply_ite quietOf]

@[simp] theorem setChan_quiet (c : Nat) (x : Chan) (s : State) :
    quietOf (setChan c x s) = quietOf s := by simp [setChan, apply_ite quietOf]

@[simp] theorem modChan_quiet (c : Nat) (f : Chan → Chan) (s : State) :
    quietOf (modChan c f s) = quietOf s := by simp [modChan, apply_ite quietOf]

@[simp] theorem setEntry_quiet (e : Nat) (x : SEntry) (s : State) :
    quietOf (setEntry e x s) = quietOf s := by simp [setEntry, apply_ite quietOf]

@[simp] theorem modEntry_quiet (e : Nat) (f : SEntry → SEntry) (s : State) :
    quietOf (modEntry e f s) = quietOf s := by simp [modEntry, apply_ite quietOf]

@[simp] theorem setSched_quiet (i : Nat) (x : Entry) (s : State) :
    quietOf (setSched i x s) = quietOf s := by simp [setSched, apply_ite quietOf]

@[simp] theorem setCvu_quiet (n : Nat) (x : Cvu) (s : State) :
    quietOf (setCvu n x s) = quietOf s := by simp [setCvu, apply_ite quietOf]

@[simp] theorem setPage_quiet (p : Nat) (x : Window) (s : State) :
    quietOf (setPage p x s) = quietOf s := by simp [setPage, apply_ite quietOf]

@[simp] theorem emit_quiet (o : Output) (s : State) :
    quietOf (emit o s) = quietOf s := by simp [emit, apply_ite quietOf]

@[simp] theorem useFresh_quiet (n : Nat) (s : State) :
    quietOf (useFresh n s) = quietOf s := by simp [useFresh, apply_ite quietOf]

@[simp] theorem sendMsix_quiet (v : Nat) (s : State) :
    quietOf (sendMsix v s) = quietOf s := by simp [sendMsix, apply_ite quietOf]

@[simp] theorem setCause_quiet (v : Nat) (s : State) :
    quietOf (setCause v s) = quietOf s := by simp [setCause, apply_ite quietOf]

@[simp] theorem setJobCause_quiet (j : Nat) (s : State) :
    quietOf (setJobCause j s) = quietOf s := by simp [setJobCause, apply_ite quietOf]

@[simp] theorem growBuffer_quiet (l : List Record) (s : State) :
    quietOf (growBuffer l s) = quietOf s := by simp [growBuffer, apply_ite quietOf]

@[simp] theorem bufferRecord_quiet (r : Record) (s : State) :
    quietOf (bufferRecord r s) = quietOf s := by simp [bufferRecord, apply_ite quietOf]

@[simp] theorem gasp_quiet (r : Record) (s : State) :
    quietOf (gasp r s) = quietOf s := by simp [gasp, apply_ite quietOf]

@[simp] theorem fireVector_quiet (sev : Nat) (seq : Option Word) (s : State) :
    quietOf (fireVector sev seq s) = quietOf s := by
  unfold fireVector; (repeat' split) <;> simp [apply_ite quietOf]

@[simp] theorem raise_quiet (code : BitVec 16) (sev : Nat) (items : List Word) (s : State) :
    quietOf (raise code sev items s) = quietOf s := by simp [raise, apply_ite quietOf]

@[simp] theorem raiseTogether_quiet (l : List Raised) (s : State) :
    quietOf (raiseTogether l s) = quietOf s := by simp [raiseTogether, apply_ite quietOf]

@[simp] theorem raiseLimited_quiet (code : BitVec 16) (sev key gap n : Nat) (items : Nat → List Word) (s : State) :
    quietOf (raiseLimited code sev key gap n items s) = quietOf s := by simp [raiseLimited, apply_ite quietOf]

@[simp] theorem enter_quiet (new : ModState) (cause : BitVec 16) (s : State) :
    quietOf (enter new cause s) = quietOf s := by simp [enter, apply_ite quietOf]

@[simp] theorem setUnit_quiet (u : Nat) (x : FUnit) (s : State) :
    quietOf (setUnit u x s) = quietOf s := by simp [setUnit, apply_ite quietOf]

@[simp] theorem modUnit_quiet (u : Nat) (f : FUnit → FUnit) (s : State) :
    quietOf (modUnit u f s) = quietOf s := by simp [modUnit, apply_ite quietOf]

@[simp] theorem setLane_quiet (k : Nat) (x : Lane) (s : State) :
    quietOf (setLane k x s) = quietOf s := by simp [setLane, apply_ite quietOf]

@[simp] theorem modLane_quiet (k : Nat) (f : Lane → Lane) (s : State) :
    quietOf (modLane k f s) = quietOf s := by simp [modLane, apply_ite quietOf]

@[simp] theorem reevaluate_quiet (cause : BitVec 16) (s : State) :
    quietOf (reevaluate cause s) = quietOf s := by simp [reevaluate, apply_ite quietOf]

@[simp] theorem sramCorrected_quiet (t w : Nat) (s : State) :
    quietOf (sramCorrected t w s) = quietOf s := by simp [sramCorrected, apply_ite quietOf]

@[simp] theorem sramBadWord_quiet (t w reader : Nat) (s : State) :
    quietOf (sramBadWord t w reader s) = quietOf s := by simp [sramBadWord, apply_ite quietOf]

@[simp] theorem sramReadWord_quiet (t reader w : Nat) (s : State) :
    quietOf (sramReadWord t reader w s) = quietOf s := by
  unfold sramReadWord
  repeat' (first
    | (simp [apply_ite quietOf]; done) | split | dsimp only | (refine (forAll_quiet _ ?_ _ _).trans ?_)
    | (refine (foldl_quiet _ ?_ _ _).trans ?_) | intro _ | simp [apply_ite quietOf])

@[simp] theorem sramTouch_quiet (t reader off n : Nat) (s : State) :
    quietOf (sramTouch t reader off n s) = quietOf s := by simp [sramTouch, apply_ite quietOf]

@[simp] theorem queueRewrite_quiet (c line : Nat) (s : State) :
    quietOf (queueRewrite c line s) = quietOf s := by simp [queueRewrite, apply_ite quietOf]

@[simp] theorem dropRewrite_quiet (c line : Nat) (s : State) :
    quietOf (dropRewrite c line s) = quietOf s := by simp [dropRewrite, apply_ite quietOf]

@[simp] theorem lineCorrected_quiet (c line pos : Nat) (s : State) :
    quietOf (lineCorrected c line pos s) = quietOf s := by simp [lineCorrected, apply_ite quietOf]

@[simp] theorem lineBad_quiet (c line reader : Nat) (s : State) :
    quietOf (lineBad c line reader s) = quietOf s := by simp [lineBad, apply_ite quietOf]

@[simp] theorem lineFound_quiet (c line : Nat) (s : State) :
    quietOf (lineFound c line s) = quietOf s := by simp [lineFound, apply_ite quietOf]

@[simp] theorem lineRead_quiet (c reader line : Nat) (s : State) :
    quietOf (lineRead c reader line s) = quietOf s := by
  unfold lineRead; (repeat' split) <;> simp [apply_ite quietOf]

@[simp] theorem inject_quiet (l : List Flaw) (s : State) :
    quietOf (inject l s) = quietOf s := by
  unfold inject
  repeat' (first
    | (simp [apply_ite quietOf]; done) | split | dsimp only | (refine (forAll_quiet _ ?_ _ _).trans ?_)
    | (refine (foldl_quiet _ ?_ _ _).trans ?_) | intro _ | simp [apply_ite quietOf])

@[simp] theorem dramTouch_quiet (c reader a n : Nat) (s : State) :
    quietOf (dramTouch c reader a n s) = quietOf s := by simp [dramTouch, apply_ite quietOf]

@[simp] theorem setDirtyBit_quiet (k : Nat) (s : State) :
    quietOf (setDirtyBit k s) = quietOf s := by simp [setDirtyBit, apply_ite quietOf]

@[simp] theorem setDirty_quiet (c a n : Nat) (s : State) :
    quietOf (setDirty c a n s) = quietOf s := by simp [setDirty, apply_ite quietOf]

@[simp] theorem piecesTouch_quiet (reader : Nat) (l : List (Nat × Nat × Nat)) (s : State) :
    quietOf (piecesTouch reader l s) = quietOf s := by simp [piecesTouch, apply_ite quietOf]

@[simp] theorem setFront_quiet (c : Nat) (x : Front) (s : State) :
    quietOf (setFront c x s) = quietOf s := by simp [setFront, apply_ite quietOf]

@[simp] theorem frontPut_quiet (c : Nat) (p : Pkt) (s : State) :
    quietOf (frontPut c p s) = quietOf s := by simp [frontPut, apply_ite quietOf]

@[simp] theorem frontTake_quiet (c : Nat) (w : Claim) (a : Arb) (s : State) :
    quietOf (frontTake c w a s) = quietOf s := by
  unfold frontTake
  repeat' (first
    | (simp [apply_ite quietOf]; done) | split | dsimp only | (refine (forAll_quiet _ ?_ _ _).trans ?_)
    | (refine (foldl_quiet _ ?_ _ _).trans ?_) | intro _ | simp [apply_ite quietOf])

@[simp] theorem frontGrant_quiet (c : Nat) (s : State) :
    quietOf (frontGrant c s) = quietOf s := by
  unfold frontGrant
  repeat' (first
    | (simp [apply_ite quietOf]; done) | split | dsimp only | (refine (forAll_quiet _ ?_ _ _).trans ?_)
    | (refine (foldl_quiet _ ?_ _ _).trans ?_) | intro _ | simp [apply_ite quietOf])

@[simp] theorem frontTurn_quiet (who cls c n : Nat) (s : State) : quietOf (frontTurn who cls c n s) = quietOf s := by
  induction n generalizing s with
  | zero => rfl
  | succ n ih =>
    unfold frontTurn
    dsimp only
    split
    · rfl
    · split
      · exact setFront_quiet _ _ _
      · rw [ih, frontTake_quiet]

@[simp] theorem frontAlone_quiet (who cls lines c : Nat) (s : State) :
    quietOf (frontAlone who cls lines c s) = quietOf s := by simp [frontAlone, apply_ite quietOf]

@[simp] theorem frontCharge_quiet (who cls lines c : Nat) (s : State) :
    quietOf (frontCharge who cls lines c s) = quietOf s := by simp [frontCharge, apply_ite quietOf]

@[simp] theorem chargePieces_quiet (who cls : Nat) (l : List (Nat × Nat × Nat)) (s : State) :
    quietOf (chargePieces who cls l s) = quietOf s := by simp [chargePieces, apply_ite quietOf]

@[simp] theorem setBuf_quiet (k : Nat) (l : List MPkt) (s : State) :
    quietOf (setBuf k l s) = quietOf s := by simp [setBuf, apply_ite quietOf]

@[simp] theorem meshPut_quiet (src goal : Nat) (p : Pkt) (s : State) :
    quietOf (meshPut src goal p s) = quietOf s := by simp [meshPut, apply_ite quietOf]

@[simp] theorem meshLeave_quiet (m : MPkt) (s : State) :
    quietOf (meshLeave m s) = quietOf s := by simp [meshLeave, apply_ite quietOf]

@[simp] theorem meshLook_quiet (node way : Nat) (s : State) :
    quietOf (meshLook node way s) = quietOf s := by simp [meshLook, apply_ite quietOf]

@[simp] theorem meshGrant_quiet (node way : Nat) (s : State) :
    quietOf (meshGrant node way s) = quietOf s := by
  unfold meshGrant
  repeat' (first
    | (simp [apply_ite quietOf]; done) | split | dsimp only | (refine (forAll_quiet _ ?_ _ _).trans ?_)
    | (refine (foldl_quiet _ ?_ _ _).trans ?_) | intro _ | simp [apply_ite quietOf])

@[simp] theorem meshPass_quiet (s : State) :
    quietOf (meshPass s) = quietOf s := by simp [meshPass, apply_ite quietOf]

@[simp] theorem meshPasses_quiet (n : Nat) (s : State) : quietOf (meshPasses n s) = quietOf s := by
  induction n generalizing s with
  | zero => rfl
  | succ n ih => unfold meshPasses; split <;> simp [ih]

@[simp] theorem meshSettle_quiet (s : State) :
    quietOf (meshSettle s) = quietOf s := by simp [meshSettle, apply_ite quietOf]

@[simp] theorem meshLookAll_quiet (s : State) :
    quietOf (meshLookAll s) = quietOf s := by simp [meshLookAll, apply_ite quietOf]

@[simp] theorem frontGrants_quiet (n : Nat) (s : State) : quietOf (frontGrants n s) = quietOf s := by
  induction n generalizing s with
  | zero => rfl
  | succ n ih =>
    unfold frontGrants
    split
    · rfl
    · split
      · rw [ih, frontGrant_quiet]
      · rfl

@[simp] theorem nextRequest_quiet (s : State) :
    quietOf (nextRequest s) = quietOf s := by simp [nextRequest, apply_ite quietOf]

@[simp] theorem nextResponse_quiet (s : State) :
    quietOf (nextResponse s) = quietOf s := by simp [nextResponse, apply_ite quietOf]

@[simp] theorem deliverLocal_quiet (src : Nat) (p : Pkt) (s : State) :
    quietOf (deliverLocal src p s) = quietOf s := by simp [deliverLocal, apply_ite quietOf]

@[simp] theorem queuePacket_quiet (src u : Nat) (p : Pkt) (s : State) :
    quietOf (queuePacket src u p s) = quietOf s := by simp [queuePacket, apply_ite quietOf]

@[simp] theorem stepSlews_quiet (p : Nat → Bool) (s : State) :
    quietOf (stepSlews p s) = quietOf s := by simp [stepSlews, apply_ite quietOf]

@[simp] theorem sendSlotVector_quiet (v : Nat) (s : State) :
    quietOf (sendSlotVector v s) = quietOf s := by simp [sendSlotVector, apply_ite quietOf]

@[simp] theorem slotMessage_quiet (n : Nat) (noIrq now : Bool) (s : State) :
    quietOf (slotMessage n noIrq now s) = quietOf s := by simp [slotMessage, apply_ite quietOf]

@[simp] theorem svcSend_quiet (ws : List Word) (data : List Byte) (s : State) :
    quietOf (svcSend ws data s) = quietOf s := by simp [svcSend, apply_ite quietOf]

@[simp] theorem complete_quiet (r : Req) (now : Bool) (st : Status) (ws : List Word) (bulk : List (Nat × List Byte))
    (s : State) :
    quietOf (complete r now st ws bulk s) = quietOf s := by
  unfold complete; (repeat' split) <;> simp [apply_ite quietOf]

@[simp] theorem finish_quiet (op : Nat) (p : Req → Bool) (st : Status) (ws : List Word) (s : State) :
    quietOf (finish op p st ws s) = quietOf s := by simp [finish, apply_ite quietOf]

@[simp] theorem modCvu_quiet (n : Nat) (f : Cvu → Cvu) (s : State) :
    quietOf (modCvu n f s) = quietOf s := by simp [modCvu, apply_ite quietOf]

@[simp] theorem cvuCheckOp_quiet (n : Nat) (s : State) :
    quietOf (cvuCheckOp n s) = quietOf s := by simp [cvuCheckOp, apply_ite quietOf]

@[simp] theorem cvuApply_quiet (n : Nat) (w : CvuWrite) (s : State) :
    quietOf (cvuApply n w s) = quietOf s := by simp [cvuApply, apply_ite quietOf]

@[simp] theorem cvuWrite_quiet (n off : Nat) (value : Word) (s : State) :
    quietOf (cvuWrite n off value s) = quietOf s := by simp [cvuWrite, apply_ite quietOf]

@[simp] theorem cvuRun_quiet (n : Nat) (l : List CvuWrite) (b : Nat) (s : State) :
    quietOf (cvuRun n l b s) = quietOf s := by
  induction l generalizing b s with
  | nil => exact modCvu_quiet _ _ _
  | cons w ws ih =>
    unfold cvuRun
    dsimp only
    split
    · rw [ih, cvuApply_quiet, modCvu_quiet]
    · exact modCvu_quiet _ _ _

@[simp] theorem cvuTick_quiet (n : Nat) (s : State) :
    quietOf (cvuTick n s) = quietOf s := by simp [cvuTick, apply_ite quietOf]

@[simp] theorem cvuSettled_quiet (n : Nat) (s : State) :
    quietOf (cvuSettled n s) = quietOf s := by simp [cvuSettled, apply_ite quietOf]

@[simp] theorem tmuFlag_quiet (b : Nat) (s : State) :
    quietOf (tmuFlag b s) = quietOf s := by simp [tmuFlag, apply_ite quietOf]

@[simp] theorem tickCounter_quiet (s : State) :
    quietOf (tickCounter s) = quietOf s := by simp [tickCounter, apply_ite quietOf]

@[simp] theorem tickJob_quiet (j : Nat) (s : State) :
    quietOf (tickJob j s) = quietOf s := by simp [tickJob, apply_ite quietOf]

theorem tickUnits_quiet (u : State) : quietOf (forAll jobNos tickJob (forAll (List.range 8) cvuTick
    { tickCounter u with glb.holdover := (tickCounter u).tmu.holdover })) = quietOf u := by
  have h (v : State) : quietOf { v with glb.holdover := v.tmu.holdover } = quietOf v := (rfl)
  rw [forAll_quiet _ tickJob_quiet, forAll_quiet _ cvuTick_quiet]
  exact (h _).trans (tickCounter_quiet _)

@[simp] theorem tick_quiet (s : State) : quietOf (tick s) = quietOf s := by
  have h : quietOf { s with clk := s.clk + 1 } = quietOf s := (rfl)
  unfold tick
  dsimp only
  split
  · exact (tickUnits_quiet _).trans h
  · exact h

@[simp] theorem tmuNsRead_quiet (s : State) :
    quietOf (tmuNsRead s) = quietOf s := by simp [tmuNsRead, apply_ite quietOf]

@[simp] theorem wdogRestart_quiet (s : State) :
    quietOf (wdogRestart s) = quietOf s := by simp [wdogRestart, apply_ite quietOf]

@[simp] theorem tmuAddendWrite_quiet (v : Word) (s : State) :
    quietOf (tmuAddendWrite v s) = quietOf s := by simp [tmuAddendWrite, apply_ite quietOf]

@[simp] theorem tmuWdogWrite_quiet (v : Word) (s : State) :
    quietOf (tmuWdogWrite v s) = quietOf s := by simp [tmuWdogWrite, apply_ite quietOf]

@[simp] theorem holdoverEnter_quiet (s : State) :
    quietOf (holdoverEnter s) = quietOf s := by simp [holdoverEnter, apply_ite quietOf]

@[simp] theorem secondBoundary_quiet (s : State) :
    quietOf (secondBoundary s) = quietOf s := by simp [secondBoundary, apply_ite quietOf]

@[simp] theorem ppsOutRise_quiet (s : State) :
    quietOf (ppsOutRise s) = quietOf s := by simp [ppsOutRise, apply_ite quietOf]

@[simp] theorem ppsOutFall_quiet (s : State) :
    quietOf (ppsOutFall s) = quietOf s := by simp [ppsOutFall, apply_ite quietOf]

@[simp] theorem ppsInputEdge_quiet (rising : Bool) (pulse : Nat) (s : State) :
    quietOf (ppsInputEdge rising pulse s) = quietOf s := by simp [ppsInputEdge, apply_ite quietOf]

@[simp] theorem ppsLost_quiet (s : State) :
    quietOf (ppsLost s) = quietOf s := by simp [ppsLost, apply_ite quietOf]

@[simp] theorem armAt_quiet (i action : Nat) (t : Word) (notify : Bool) (arg : Nat) (tag : Word) (s : State) :
    quietOf (armAt i action t notify arg tag s) = quietOf s := by simp [armAt, apply_ite quietOf]

@[simp] theorem spend_quiet (i : Nat) (failed : Bool) (s : State) :
    quietOf (spend i failed s) = quietOf s := by simp [spend, apply_ite quietOf]

@[simp] theorem schedRecordExpire_quiet (i : Nat) (s : State) :
    quietOf (schedRecordExpire i s) = quietOf s := by simp [schedRecordExpire, apply_ite quietOf]

@[simp] theorem stepCounter_quiet (step : Int) (s : State) :
    quietOf (stepCounter step s) = quietOf s := by simp [stepCounter, apply_ite quietOf]

@[simp] theorem stepBoundary_quiet (wasLoaded : Bool) (old : BitVec 48) (s : State) :
    quietOf (stepBoundary wasLoaded old s) = quietOf s := by simp [stepBoundary, apply_ite quietOf]

@[simp] theorem tmuStepWrite_quiet (v : Word) (s : State) :
    quietOf (tmuStepWrite v s) = quietOf s := by
  unfold tmuStepWrite
  repeat' (first
    | (simp [apply_ite quietOf]; done) | split | dsimp only | (refine (forAll_quiet _ ?_ _ _).trans ?_)
    | (refine (foldl_quiet _ ?_ _ _).trans ?_) | intro _ | simp [apply_ite quietOf])

@[simp] theorem setRun_quiet (i : Nat) (x : LaceRun) (s : State) :
    quietOf (setRun i x s) = quietOf s := by simp [setRun, apply_ite quietOf]

@[simp] theorem setCell_quiet (c : Nat) (x : Cell) (s : State) :
    quietOf (setCell c x s) = quietOf s := by simp [setCell, apply_ite quietOf]

@[simp] theorem setPlane_quiet (p : Nat) (x : Plane) (s : State) :
    quietOf (setPlane p x s) = quietOf s := by simp [setPlane, apply_ite quietOf]

@[simp] theorem loadShadow_quiet (b : Tbl (Option Lace)) (keep : Bool) (s : State) :
    quietOf (loadShadow b keep s) = quietOf s := by simp [loadShadow, apply_ite quietOf]

@[simp] theorem retarget_quiet (new : Tbl (Option Bool)) (c : Nat) (s : State) :
    quietOf (retarget new c s) = quietOf s := by
  unfold retarget; (repeat' split) <;> simp [apply_ite quietOf]

@[simp] theorem followBank_quiet (s : State) :
    quietOf (followBank s) = quietOf s := by simp [followBank, apply_ite quietOf]

@[simp] theorem newGrid_quiet (s : State) :
    quietOf (newGrid s) = quietOf s := by simp [newGrid, apply_ite quietOf]

@[simp] theorem darkEvent_quiet (i : Nat) (s : State) :
    quietOf (darkEvent i s) = quietOf s := by simp [darkEvent, apply_ite quietOf]

@[simp] theorem leaveDark_quiet (l : List Nat) (s : State) :
    quietOf (leaveDark l s) = quietOf s := by simp [leaveDark, apply_ite quietOf]

@[simp] theorem settle_quiet (i : Nat) (s : State) :
    quietOf (settle i s) = quietOf s := by simp [settle, apply_ite quietOf]

@[simp] theorem relaceEvent_quiet (x : Relace) (lockUs : Nat) (superseded : Bool) (s : State) :
    quietOf (relaceEvent x lockUs superseded s) = quietOf s := by simp [relaceEvent, apply_ite quietOf]

@[simp] theorem commitBank_quiet (entry : Nat) (t : Word) (s : State) :
    quietOf (commitBank entry t s) = quietOf s := by
  unfold commitBank
  repeat' (first
    | (simp [apply_ite quietOf]; done) | split | dsimp only | (refine (forAll_quiet _ ?_ _ _).trans ?_)
    | (refine (foldl_quiet _ ?_ _ _).trans ?_) | intro _ | simp [apply_ite quietOf])

@[simp] theorem relaceComplete_quiet (s : State) :
    quietOf (relaceComplete s) = quietOf s := by
  unfold relaceComplete; (repeat' split) <;> simp [apply_ite quietOf]

@[simp] theorem unlockLace_quiet (i : Nat) (s : State) :
    quietOf (unlockLace i s) = quietOf s := by simp [unlockLace, apply_ite quietOf]

@[simp] theorem laceSettleTimeout_quiet (i : Nat) (s : State) :
    quietOf (laceSettleTimeout i s) = quietOf s := by simp [laceSettleTimeout, apply_ite quietOf]

@[simp] theorem laceLockLoss_quiet (i : Nat) (s : State) :
    quietOf (laceLockLoss i s) = quietOf s := by
  unfold laceLockLoss
  repeat' (first
    | (simp [apply_ite quietOf]; done) | split | dsimp only | (refine (forAll_quiet _ ?_ _ _).trans ?_)
    | (refine (foldl_quiet _ ?_ _ _).trans ?_) | intro _ | simp [apply_ite quietOf])

@[simp] theorem laceDark_quiet (i : Nat) (s : State) :
    quietOf (laceDark i s) = quietOf s := by
  unfold laceDark
  repeat' (first
    | (simp [apply_ite quietOf]; done) | split | dsimp only | (refine (forAll_quiet _ ?_ _ _).trans ?_)
    | (refine (foldl_quiet _ ?_ _ _).trans ?_) | intro _ | simp [apply_ite quietOf])

@[simp] theorem laceLightReturn_quiet (i : Nat) (s : State) :
    quietOf (laceLightReturn i s) = quietOf s := by simp [laceLightReturn, apply_ite quietOf]

@[simp] theorem laceLossAlarm_quiet (i : Nat) (s : State) :
    quietOf (laceLossAlarm i s) = quietOf s := by
  unfold laceLossAlarm
  repeat' (first
    | (simp [apply_ite quietOf]; done) | split | dsimp only | (refine (forAll_quiet _ ?_ _ _).trans ?_)
    | (refine (foldl_quiet _ ?_ _ _).trans ?_) | intro _ | simp [apply_ite quietOf])

@[simp] theorem laceAfterSample_quiet (i : Nat) (x : Lace) (s : State) :
    quietOf (laceAfterSample i x s) = quietOf s := by
  unfold laceAfterSample
  repeat' (first
    | (simp [apply_ite quietOf]; done) | split | dsimp only | (refine (forAll_quiet _ ?_ _ _).trans ?_)
    | (refine (foldl_quiet _ ?_ _ _).trans ?_) | intro _ | simp [apply_ite quietOf])

@[simp] theorem lacesAfterSample_quiet (plane : Nat) (s : State) :
    quietOf (lacesAfterSample plane s) = quietOf s := by
  unfold lacesAfterSample
  repeat' (first
    | (simp [apply_ite quietOf]; done) | split | dsimp only | (refine (forAll_quiet _ ?_ _ _).trans ?_)
    | (refine (foldl_quiet _ ?_ _ _).trans ?_) | intro _ | simp [apply_ite quietOf])

@[simp] theorem weltOff_quiet (cause : Nat) (s : State) :
    quietOf (weltOff cause s) = quietOf s := by simp [weltOff, apply_ite quietOf]

@[simp] theorem weltOn_quiet (cause : Nat) (s : State) :
    quietOf (weltOn cause s) = quietOf s := by simp [weltOn, apply_ite quietOf]

@[simp] theorem releaseForces_quiet (s : State) :
    quietOf (releaseForces s) = quietOf s := by simp [releaseForces, apply_ite quietOf]

@[simp] theorem cellSample_quiet (k : SampleCtx) (cell : Nat) (s : State) :
    quietOf (cellSample k cell s).1 = quietOf s := by
  unfold cellSample; dsimp only; split <;> simp

@[simp] theorem unusedCell_quiet (c : Nat) (s : State) :
    quietOf (unusedCell c s) = quietOf s := by simp [unusedCell, apply_ite quietOf]

@[simp] theorem unusedCells_quiet (p : Nat) (s : State) :
    quietOf (unusedCells p s) = quietOf s := by
  unfold unusedCells
  repeat' (first
    | (simp [apply_ite quietOf]; done) | split | dsimp only | (refine (forAll_quiet _ ?_ _ _).trans ?_)
    | (refine (foldl_quiet _ ?_ _ _).trans ?_) | intro _ | simp [apply_ite quietOf])

@[simp] theorem planeLaw_quiet (p : Nat) (c : Coef) (lim : Limits) (swap : Bool) (s : State) :
    quietOf (planeLaw p c lim swap s).1 = quietOf s := by
  have hf : ∀ (k : SampleCtx) (l : List Nat) (a : State × Bool),
      quietOf (l.foldl (fun a i => let r := cellSample k i a.1; (r.1, a.2 || r.2)) a).1 = quietOf a.1 := by
    intro k l
    induction l with
    | nil => intro a; rfl
    | cons b l ih => intro a; rw [List.foldl_cons, ih]; exact cellSample_quiet k b a.1
  unfold planeLaw
  dsimp only at hf ⊢
  simp only [apply_ite quietOf, raise_quiet, setPlane_quiet, hf, raiseLimited_quiet, ite_self]

@[simp] theorem rateChange_quiet (p : Nat) (s : State) :
    quietOf (rateChange p s) = quietOf s := by
  unfold rateChange
  repeat' (first
    | (simp [apply_ite quietOf]; done) | split | dsimp only | (refine (forAll_quiet _ ?_ _ _).trans ?_)
    | (refine (foldl_quiet _ ?_ _ _).trans ?_) | intro _ | simp [apply_ite quietOf])

@[simp] theorem firstLoad_quiet (p : Nat) (s : State) :
    quietOf (firstLoad p s) = quietOf s := by
  unfold firstLoad
  repeat' (first
    | (simp [apply_ite quietOf]; done) | split | dsimp only | (refine (forAll_quiet _ ?_ _ _).trans ?_)
    | (refine (foldl_quiet _ ?_ _ _).trans ?_) | intro _ | simp [apply_ite quietOf])

@[simp] theorem applyLimits_quiet (p : Nat) (s : State) :
    quietOf (applyLimits p s) = quietOf s := by simp [applyLimits, apply_ite quietOf]

@[simp] theorem takeSwap_quiet (p : Nat) (s : State) : quietOf (takeSwap p s).1 = quietOf s := by
  unfold takeSwap; repeat' (first | (simp; done) | split | dsimp only)

@[simp] theorem swapMade_quiet (p : Nat) (clamped : Bool) (s : State) :
    quietOf (swapMade p clamped s) = quietOf s := by simp [swapMade, apply_ite quietOf]

@[simp] theorem cellsLocked_quiet (p : Nat) (s : State) :
    quietOf (cellsLocked p s) = quietOf s := by simp [cellsLocked, apply_ite quietOf]

@[simp] theorem heaterReading_quiet (cell : Nat) (s : State) :
    quietOf (heaterReading cell s) = quietOf s := by simp [heaterReading, apply_ite quietOf]

@[simp] theorem latchReadings_quiet (p : Nat) (s : State) :
    quietOf (latchReadings p s) = quietOf s := by simp [latchReadings, apply_ite quietOf]

@[simp] theorem hotTick_quiet (p : Nat) (s : State) :
    quietOf (hotTick p s) = quietOf s := by simp [hotTick, apply_ite quietOf]

@[simp] theorem boundary_quiet (p : Nat) (s : State) : quietOf (boundary p s) = quietOf s := by
  have ht := takeSwap_quiet p (applyLimits p (firstLoad p (rateChange p s)))
  simp only [applyLimits_quiet, firstLoad_quiet, rateChange_quiet] at ht
  unfold boundary
  simp only [cellsLocked_quiet, lacesAfterSample_quiet, stepSlews_quiet, hotTick_quiet, setPlane_quiet, apply_ite quietOf, swapMade_quiet,
    ite_self]
  split
  · simp [ht]
  · simp [ht]

@[simp] theorem shankSample_quiet (p : Nat) (s : State) :
    quietOf (shankSample p s) = quietOf s := by simp [shankSample, apply_ite quietOf]

@[simp] theorem offlineNow_quiet (p : Nat) (s : State) : quietOf (offlineNow p s) = quietOf s := by
  have ht := takeSwap_quiet p (applyLimits p (firstLoad p (rateChange p s)))
  simp only [applyLimits_quiet, firstLoad_quiet, rateChange_quiet] at ht
  unfold offlineNow
  simp only [apply_ite quietOf, swapMade_quiet, ite_self, ht]

@[simp] theorem unlessPowered_quiet (p : Nat) (s : State) :
    quietOf (unlessPowered p s) = quietOf s := by simp [unlessPowered, apply_ite quietOf]

@[simp] theorem weltDown_quiet (cause : Nat) (s : State) :
    quietOf (weltDown cause s) = quietOf s := by simp [weltDown, apply_ite quietOf]

@[simp] theorem bump_quiet (u i n : Nat) (s : State) :
    quietOf (bump u i n s) = quietOf s := by simp [bump, apply_ite quietOf]

@[simp] theorem dropPacket_quiet (unit cause : Nat) (p : Pkt) (s : State) :
    quietOf (dropPacket unit cause p s) = quietOf s := by simp [dropPacket, apply_ite quietOf]

@[simp] theorem linkFresh_quiet (u : Nat) (s : State) :
    quietOf (linkFresh u s) = quietOf s := by simp [linkFresh, apply_ite quietOf]

@[simp] theorem lineOut_quiet (u lane : Nat) (h : BitVec 56) (body : List Byte) (s : State) :
    quietOf (lineOut u lane h body s) = quietOf s := by simp [lineOut, apply_ite quietOf]

@[simp] theorem sendFrame_quiet (u lane firstPtr kind : Nat) (body : List Byte) (s : State) :
    quietOf (sendFrame u lane firstPtr kind body s) = quietOf s := by simp [sendFrame, apply_ite quietOf]

@[simp] theorem freeBuffer_quiet (p : Pkt) (s : State) :
    quietOf (freeBuffer p s) = quietOf s := by
  unfold freeBuffer
  repeat' (first
    | (simp [apply_ite quietOf]; done) | split | dsimp only | (refine (forAll_quiet _ ?_ _ _).trans ?_)
    | (refine (foldl_quiet _ ?_ _ _).trans ?_) | intro _ | simp [apply_ite quietOf])

@[simp] theorem flushQueue_quiet (u : Nat) (s : State) :
    quietOf (flushQueue u s) = quietOf s := by simp [flushQueue, apply_ite quietOf]

@[simp] theorem evalUnit_quiet (cause : BitVec 16) (u : Nat) (s : State) :
    quietOf (evalUnit cause u s) = quietOf s := by
  unfold evalUnit
  repeat' (first
    | (simp [apply_ite quietOf]; done) | split | dsimp only | (refine (forAll_quiet _ ?_ _ _).trans ?_)
    | (refine (foldl_quiet _ ?_ _ _).trans ?_) | intro _ | simp [apply_ite quietOf])

@[simp] theorem evalUnits_quiet (cause : BitVec 16) (s : State) :
    quietOf (evalUnits cause s) = quietOf s := by simp [evalUnits, apply_ite quietOf]

@[simp] theorem endQuiet_quiet (n : Nat) (back : Bool) (s : State) :
    quietOf (endQuiet n back s) = quietOf s := by
  unfold endQuiet
  repeat' (first
    | (simp [apply_ite quietOf]; done) | split | dsimp only | (refine (forAll_quiet _ ?_ _ _).trans ?_)
    | (refine (foldl_quiet _ ?_ _ _).trans ?_) | intro _ | simp [apply_ite quietOf])

@[simp] theorem clearQuiet_quiet (n : Nat) (s : State) :
    quietOf (clearQuiet n s) = quietOf s := by
  unfold clearQuiet
  repeat' (first
    | (simp [apply_ite quietOf]; done) | split | dsimp only | (refine (forAll_quiet _ ?_ _ _).trans ?_)
    | (refine (foldl_quiet _ ?_ _ _).trans ?_) | intro _ | simp [apply_ite quietOf])

@[simp] theorem laneOutOfService_quiet (u n cause : Nat) (s : State) :
    quietOf (laneOutOfService u n cause s) = quietOf s := by simp [laneOutOfService, apply_ite quietOf]

@[simp] theorem sendingOut_quiet (u n : Nat) (s : State) :
    quietOf (sendingOut u n s) = quietOf s := by simp [sendingOut, apply_ite quietOf]

@[simp] theorem bufferPacket_quiet (u : Nat) (p : Pkt) (s : State) :
    quietOf (bufferPacket u p s) = quietOf s := by simp [bufferPacket, apply_ite quietOf]

@[simp] theorem streamFrame_quiet (u firstPtr : Nat) (body : List Byte) (s : State) :
    quietOf (streamFrame u firstPtr body s) = quietOf s := by
  unfold streamFrame
  repeat' (first
    | (simp [apply_ite quietOf]; done) | split | dsimp only | (refine (forAll_quiet _ ?_ _ _).trans ?_)
    | (refine (foldl_quiet _ ?_ _ _).trans ?_) | intro _ | simp [apply_ite quietOf])

@[simp] theorem resend_quiet (port : Nat) (ack : BitVec 16) (s : State) :
    quietOf (resend port ack s) = quietOf s := by
  unfold resend
  repeat' (first
    | (simp [apply_ite quietOf]; done) | split | dsimp only | (refine (forAll_quiet _ ?_ _ _).trans ?_)
    | (refine (foldl_quiet _ ?_ _ _).trans ?_) | intro _ | simp [apply_ite quietOf])

@[simp] theorem replay_quiet (port : Nat) (ack : BitVec 16) (s : State) :
    quietOf (replay port ack s) = quietOf s := by
  unfold replay
  repeat' (first
    | (simp [apply_ite quietOf]; done) | split | dsimp only | (refine (forAll_quiet _ ?_ _ _).trans ?_)
    | (refine (foldl_quiet _ ?_ _ _).trans ?_) | intro _ | simp [apply_ite quietOf])

@[simp] theorem acceptFrame_quiet (u : Nat) (f : Frame) (s : State) :
    quietOf (acceptFrame u f s) = quietOf s := by
  unfold acceptFrame
  repeat' (first
    | (simp [apply_ite quietOf]; done) | split | dsimp only | (refine (forAll_quiet _ ?_ _ _).trans ?_)
    | (refine (foldl_quiet _ ?_ _ _).trans ?_) | intro _ | simp [apply_ite quietOf])

@[simp] theorem drainEarly_quiet (u n : Nat) (s : State) : quietOf (drainEarly u n s) = quietOf s := by
  induction n generalizing s with
  | zero => rfl
  | succ n ih =>
    unfold drainEarly
    repeat' (first | (simp [ih]; done) | split | dsimp only)

@[simp] theorem closeGap_quiet (u : Nat) (s : State) : quietOf (closeGap u s) = quietOf s := by
  unfold closeGap
  repeat' (first | (simp [apply_ite quietOf]; done) | split | dsimp only)

@[simp] theorem requestReplay_quiet (u : Nat) (s : State) :
    quietOf (requestReplay u s) = quietOf s := by
  unfold requestReplay; (repeat' split) <;> simp [apply_ite quietOf]

@[simp] theorem sequenced_quiet (u n : Nat) (f : Frame) (s : State) :
    quietOf (sequenced u n f s) = quietOf s := by simp [sequenced, apply_ite quietOf]

@[simp] theorem helloSend_quiet (u n : Nat) (s : State) :
    quietOf (helloSend u n s) = quietOf s := by simp [helloSend, apply_ite quietOf]

@[simp] theorem hello_quiet (u n : Nat) (body : List Byte) (s : State) :
    quietOf (hello u n body s) = quietOf s := by simp [hello, apply_ite quietOf]

@[simp] theorem helloReceive_quiet (u n : Nat) (body : List Byte) (s : State) :
    quietOf (helloReceive u n body s) = quietOf s := by simp [helloReceive, apply_ite quietOf]

@[simp] theorem tellUncorrectable_quiet (u n : Nat) (s : State) :
    quietOf (tellUncorrectable u n s) = quietOf s := by simp [tellUncorrectable, apply_ite quietOf]

@[simp] theorem uncorrectable_quiet (u n : Nat) (s : State) :
    quietOf (uncorrectable u n s) = quietOf s := by simp [uncorrectable, apply_ite quietOf]

@[simp] theorem goodFrame_quiet (u n : Nat) (cw : Codeword) (s : State) :
    quietOf (goodFrame u n cw s) = quietOf s := by simp [goodFrame, apply_ite quietOf]

@[simp] theorem frameReceive_quiet (u n : Nat) (cw : Codeword) (s : State) :
    quietOf (frameReceive u n cw s) = quietOf s := by simp [frameReceive, apply_ite quietOf]

@[simp] theorem eyeletSeqGapTimeout_quiet (e : Nat) (s : State) :
    quietOf (eyeletSeqGapTimeout e s) = quietOf s := by
  unfold eyeletSeqGapTimeout; (repeat' split) <;> simp [apply_ite quietOf]

/-- A grant of a link arbiter. -/
theorem unitGrant_quiet {u : Nat} {s t : State} {p : Pkt} (h : unitGrant u s = some (p, t)) :
    quietOf t = quietOf s := by
  unfold unitGrant at h
  dsimp only at h
  split at h
  · cases h
  · simp only [Option.map_eq_some_iff] at h
    obtain ⟨q, -, hq⟩ := h
    cases hq; simp

@[simp] theorem sendStream_quiet (u : Nat) (flush : Bool) (n : Nat) (s : State) :
    quietOf (sendStream u flush n s) = quietOf s := by
  induction n generalizing s with
  | zero => rfl
  | succ n ih =>
    unfold sendStream
    repeat' (first | (simp [ih]; done) | split | dsimp only)

@[simp] theorem appendStream_quiet (u : Nat) (bytes : List Byte) (s : State) :
    quietOf (appendStream u bytes s) = quietOf s := by simp [appendStream, apply_ite quietOf]

@[simp] theorem sendPacket_quiet (u : Nat) (p : Pkt) (s : State) :
    quietOf (sendPacket u p s) = quietOf s := by
  unfold sendPacket
  repeat' (first
    | (simp [apply_ite quietOf]; done) | split | dsimp only | (refine (forAll_quiet _ ?_ _ _).trans ?_)
    | (refine (foldl_quiet _ ?_ _ _).trans ?_) | intro _ | simp [apply_ite quietOf])

@[simp] theorem packetSend_quiet (u : Nat) (s : State) : quietOf (packetSend u s) = quietOf s := by
  unfold packetSend
  dsimp only
  split
  · simp
  · split
    · simp
    · split
      · rename_i h; simp [unitGrant_quiet h]
      · simp

@[simp] theorem lookAll_quiet (s : State) :
    quietOf (lookAll s) = quietOf s := by simp [lookAll, apply_ite quietOf]

@[simp] theorem popBuffer_quiet (u buf : Nat) (s : State) :
    quietOf (popBuffer u buf s) = quietOf s := by simp [popBuffer, apply_ite quietOf]

@[simp] theorem packetForward_quiet (u buf : Nat) (s : State) :
    quietOf (packetForward u buf s) = quietOf s := by
  unfold packetForward; (repeat' split) <;> simp [apply_ite quietOf]

@[simp] theorem laneLockTimeout_quiet (u n : Nat) (deaf : Bool) (s : State) :
    quietOf (laneLockTimeout u n deaf s) = quietOf s := by simp [laneLockTimeout, apply_ite quietOf]

@[simp] theorem laneErrorCheck_quiet (u n unc corr recv : Nat) (s : State) :
    quietOf (laneErrorCheck u n unc corr recv s) = quietOf s := by simp [laneErrorCheck, apply_ite quietOf]

@[simp] theorem laneRetry_quiet (u n : Nat) (s : State) :
    quietOf (laneRetry u n s) = quietOf s := by simp [laneRetry, apply_ite quietOf]

@[simp] theorem laneReturn_quiet (u n : Nat) (s : State) :
    quietOf (laneReturn u n s) = quietOf s := by simp [laneReturn, apply_ite quietOf]

@[simp] theorem laneLockGained_quiet (u n : Nat) (s : State) :
    quietOf (laneLockGained u n s) = quietOf s := by simp [laneLockGained, apply_ite quietOf]

@[simp] theorem unitMissing_quiet (u : Nat) (s : State) :
    quietOf (unitMissing u s) = quietOf s := by
  unfold unitMissing
  repeat' (first
    | (simp [apply_ite quietOf]; done) | split | dsimp only | (refine (forAll_quiet _ ?_ _ _).trans ?_)
    | (refine (foldl_quiet _ ?_ _ _).trans ?_) | intro _ | simp [apply_ite quietOf])

@[simp] theorem linkTrainingComplete_quiet (p : Nat) (ok : Bool) (s : State) :
    quietOf (linkTrainingComplete p ok s) = quietOf s := by
  unfold linkTrainingComplete
  repeat' (first
    | (simp [apply_ite quietOf]; done) | split | dsimp only | (refine (forAll_quiet _ ?_ _ _).trans ?_)
    | (refine (foldl_quiet _ ?_ _ _).trans ?_) | intro _ | simp [apply_ite quietOf])

@[simp] theorem relaceQuiesce_quiet (seq : BitVec 16) (s : State) :
    quietOf (relaceQuiesce seq s) = quietOf s := by
  unfold relaceQuiesce; (repeat' split) <;> simp [apply_ite quietOf]

@[simp] theorem laneDealResume_quiet (n : Nat) (s : State) :
    quietOf (laneDealResume n s) = quietOf s := by
  unfold laneDealResume
  repeat' (first
    | (simp [apply_ite quietOf]; done) | split | dsimp only | (refine (forAll_quiet _ ?_ _ _).trans ?_)
    | (refine (foldl_quiet _ ?_ _ _).trans ?_) | intro _ | simp [apply_ite quietOf])

@[simp] theorem lightBreaks_quiet (relace : Bool) (cause : BitVec 16) (lanes : List Nat) (s : State) :
    quietOf (lightBreaks relace cause lanes s) = quietOf s := by simp [lightBreaks, apply_ite quietOf]

@[simp] theorem resumeLanes_quiet (t : BitVec 48) (s : State) :
    quietOf (resumeLanes t s) = quietOf s := by simp [resumeLanes, apply_ite quietOf]

@[simp] theorem weltDark_quiet (cause : Nat) (s : State) :
    quietOf (weltDark cause s) = quietOf s := by simp [weltDark, apply_ite quietOf]

@[simp] theorem activationEvent_quiet (i : Nat) (armed : Bool) (s : State) :
    quietOf (activationEvent i armed s) = quietOf s := by simp [activationEvent, apply_ite quietOf]

@[simp] theorem fwDisarmed_quiet (i : Nat) (next : Staging) (s : State) :
    quietOf (fwDisarmed i next s) = quietOf s := by simp [fwDisarmed, apply_ite quietOf]

@[simp] theorem disarmEntry_quiet (i : Nat) (s : State) :
    quietOf (disarmEntry i s) = quietOf s := by simp [disarmEntry, apply_ite quietOf]

@[simp] theorem closeSession_quiet (cause : Nat) (s : State) :
    quietOf (closeSession cause s) = quietOf s := by
  unfold closeSession; (repeat' split) <;> simp [apply_ite quietOf]

@[simp] theorem svcSeen_quiet (s : State) :
    quietOf (svcSeen s) = quietOf s := by simp [svcSeen, apply_ite quietOf]

@[simp] theorem sessionOpen_quiet (token : List Byte) (peer : DWord) (s : State) :
    quietOf (sessionOpen token peer s) = quietOf s := by
  unfold sessionOpen; (repeat' split) <;> simp [apply_ite quietOf]

@[simp] theorem sessionIdle_quiet (s : State) :
    quietOf (sessionIdle s) = quietOf s := by
  unfold sessionIdle; (repeat' split) <;> simp [apply_ite quietOf]

@[simp] theorem nonceExpiry_quiet (s : State) :
    quietOf (nonceExpiry s) = quietOf s := by simp [nonceExpiry, apply_ite quietOf]

@[simp] theorem changeStatus_quiet (j : Nat) (new : JobStatus) (s : State) :
    quietOf (changeStatus j new s) = quietOf s := by simp [changeStatus, apply_ite quietOf]

@[simp] theorem bumpTally_quiet (t n : Nat) (s : State) :
    quietOf (bumpTally t n s) = quietOf s := by simp [bumpTally, apply_ite quietOf]

@[simp] theorem freeEntry_quiet (e : Nat) (s : State) :
    quietOf (freeEntry e s) = quietOf s := by simp [freeEntry, apply_ite quietOf]

@[simp] theorem abandonHeld_quiet (t : Nat) (s : State) :
    quietOf (abandonHeld t s) = quietOf s := by simp [abandonHeld, apply_ite quietOf]

@[simp] theorem settleStops_quiet (s : State) :
    quietOf (settleStops s) = quietOf s := by
  unfold settleStops
  repeat' (first
    | (simp [apply_ite quietOf]; done) | split | dsimp only | (refine (forAll_quiet _ ?_ _ _).trans ?_)
    | (refine (foldl_quiet _ ?_ _ _).trans ?_) | intro _ | simp [apply_ite quietOf])

@[simp] theorem jobDone_quiet (j : Nat) (s : State) :
    quietOf (jobDone j s) = quietOf s := by simp [jobDone, apply_ite quietOf]

@[simp] theorem endRun_quiet (j : Nat) (s : State) :
    quietOf (endRun j s) = quietOf s := by simp [endRun, apply_ite quietOf]

@[simp] theorem tellOnce_quiet (t b : Nat) (f : State → State) (s : State) (hf : ∀ a0, quietOf (f a0) = quietOf a0) :
    quietOf (tellOnce t b f s) = quietOf s := by simp [tellOnce, apply_ite quietOf, hf]

@[simp] theorem stepTouch_quiet (t : Nat) (l : List (Nat × Nat)) (s : State) :
    quietOf (stepTouch t l s) = quietOf s := by simp [stepTouch, apply_ite quietOf]

@[simp] theorem goOn_quiet (t : Nat) (s : State) :
    quietOf (goOn t s) = quietOf s := by simp [goOn, apply_ite quietOf]

@[simp] theorem unitDone_quiet (t : Nat) (o : UnitOp) (s : State) :
    quietOf (unitDone t o s) = quietOf s := by
  unfold unitDone; (repeat' split) <;> simp [apply_ite quietOf]

@[simp] theorem keepArithAt_quiet (t step : Nat) (a : Arith) (s : State) :
    quietOf (keepArithAt t step a s) = quietOf s := by
  unfold keepArithAt; (repeat' split) <;> simp [apply_ite quietOf]

@[simp] theorem keepArith_quiet (t : Nat) (a : Arith) (s : State) :
    quietOf (keepArith t a s) = quietOf s := by
  unfold keepArith; (repeat' split) <;> simp [apply_ite quietOf]

@[simp] theorem regrace_quiet (us : List Nat) (s : State) :
    quietOf (regrace us s) = quietOf s := by simp [regrace, apply_ite quietOf]

@[simp] theorem moveLanes_quiet (old new : Word) (s : State) :
    quietOf (moveLanes old new s) = quietOf s := by simp [moveLanes, apply_ite quietOf]

@[simp] theorem rmSet_quiet (i : Nat) (e : RmEntry) (s : State) :
    quietOf (rmSet i e s) = quietOf s := by simp [rmSet, apply_ite quietOf]

@[simp] theorem rmMod_quiet (j r : Nat) (f : RmEntry → RmEntry) (s : State) :
    quietOf (rmMod j r f s) = quietOf s := by
  unfold rmMod; (repeat' split) <;> simp [apply_ite quietOf]

@[simp] theorem trackWrite_quiet (pa n : Nat) (s : State) :
    quietOf (trackWrite pa n s) = quietOf s := by
  unfold trackWrite; (repeat' split) <;> simp [apply_ite quietOf]

@[simp] theorem sendOut_quiet (src : Nat) (p : Pkt) (s : State) :
    quietOf (sendOut src p s) = quietOf s := by
  unfold sendOut; (repeat' split) <;> simp [apply_ite quietOf]

@[simp] theorem respond_quiet (p : Pkt) (q : Request) (status : Nat) (payload : List Byte) (s : State) :
    quietOf (respond p q status payload s) = quietOf s := by simp [respond, apply_ite quietOf]

@[simp] theorem placeTouch_quiet (q : Request) (p : Place0) (s : State) :
    quietOf (placeTouch q p s) = quietOf s := by
  unfold placeTouch; (repeat' split) <;> simp [apply_ite quietOf]

@[simp] theorem yarlerWrite_quiet (off : Nat) (bs : List Byte) (s : State) :
    quietOf (yarlerWrite off bs s) = quietOf s := by simp [yarlerWrite, apply_ite quietOf]

@[simp] theorem refuse_quiet (p : Pkt) (q : Request) (code : Nat) (s : State) :
    quietOf (refuse p q code s) = quietOf s := by simp [refuse, apply_ite quietOf]

@[simp] theorem refuseHalted_quiet (m dest : Nat) (s : State) :
    quietOf (refuseHalted m dest s) = quietOf s := by simp [refuseHalted, apply_ite quietOf]

@[simp] theorem sawSeal_quiet (q : Request) (s : State) :
    quietOf (sawSeal q s) = quietOf s := by
  unfold sawSeal
  repeat' (first
    | (simp [apply_ite quietOf]; done) | split | dsimp only | (refine (forAll_quiet _ ?_ _ _).trans ?_)
    | (refine (foldl_quiet _ ?_ _ _).trans ?_) | intro _ | simp [apply_ite quietOf])

@[simp] theorem holdEnded_quiet (page at0 : Nat) (s : State) :
    quietOf (holdEnded page at0 s) = quietOf s := by simp [holdEnded, apply_ite quietOf]

@[simp] theorem holdAt_quiet (h : HeldWrite) (s : State) :
    quietOf (holdAt h s) = quietOf s := by simp [holdAt, apply_ite quietOf]

@[simp] theorem refuseChannel_quiet (c : Nat) (s : State) :
    quietOf (refuseChannel c s) = quietOf s := by simp [refuseChannel, apply_ite quietOf]

@[simp] theorem suspendPages_quiet (p : Nat → Nat → Bool) (s : State) :
    quietOf (suspendPages p s) = quietOf s := by simp [suspendPages, apply_ite quietOf]

@[simp] theorem winMiss_quiet (page off : Nat) (write : Bool) (cause : Nat) (s : State) :
    quietOf (winMiss page off write cause s) = quietOf s := by simp [winMiss, apply_ite quietOf]

@[simp] theorem hitTouch_quiet (p : Place0) (n : Nat) (s : State) :
    quietOf (hitTouch p n s) = quietOf s := by
  unfold hitTouch; (repeat' split) <;> simp [apply_ite quietOf]

@[simp] theorem winRead_quiet (page off n : Nat) (s : State) :
    quietOf (winRead page off n s) = quietOf s := by
  unfold winRead; (repeat' split) <;> simp [apply_ite quietOf]

@[simp] theorem clearCopy_quiet (c : Copy) (s : State) :
    quietOf (clearCopy c s) = quietOf s := by simp [clearCopy, apply_ite quietOf]

@[simp] theorem sealDone_quiet (d : Desc) (s : State) :
    quietOf (sealDone d s) = quietOf s := by
  unfold sealDone; (repeat' split) <;> simp [apply_ite quietOf]

@[simp] theorem tellPast_quiet (t : Nat) (tag : Word) (s : State) :
    quietOf (tellPast t tag s) = quietOf s := by simp [tellPast, apply_ite quietOf]

@[simp] theorem opFailed_quiet (x : SEntry) (err : Nat) (s : State) :
    quietOf (opFailed x err s) = quietOf s := by
  unfold opFailed; (repeat' split) <;> simp [apply_ite quietOf]

@[simp] theorem askPool_quiet (who purpose : Nat) (d : Desc) (s : State) :
    quietOf (askPool who purpose d s) = quietOf s := by simp [askPool, apply_ite quietOf]

@[simp] theorem moveNote_quiet (m : Nat) (tag : Word) (k phase base newBase : Nat) (s : State) :
    quietOf (moveNote m tag k phase base newBase s) = quietOf s := by simp [moveNote, apply_ite quietOf]

@[simp] theorem sendAck_quiet (home : Nat) (tag : Word) (k phase : Nat) (s : State) :
    quietOf (sendAck home tag k phase s) = quietOf s := by simp [sendAck, apply_ite quietOf]

@[simp] theorem copyAsk_quiet (s : State) :
    quietOf (copyAsk s) = quietOf s := by
  unfold copyAsk; (repeat' split) <;> simp [apply_ite quietOf]

@[simp] theorem copyAgain_quiet (d : Desc) (s : State) :
    quietOf (copyAgain d s) = quietOf s := by
  unfold copyAgain; (repeat' split) <;> simp [apply_ite quietOf]

@[simp] theorem dropCopy_quiet (s : State) :
    quietOf (dropCopy s) = quietOf s := by simp [dropCopy, apply_ite quietOf]

@[simp] theorem restoreAsk_quiet (s : State) :
    quietOf (restoreAsk s) = quietOf s := by
  unfold restoreAsk; (repeat' split) <;> simp [apply_ite quietOf]

@[simp] theorem sendAcks_quiet (s : State) :
    quietOf (sendAcks s) = quietOf s := by simp [sendAcks, apply_ite quietOf]

@[simp] theorem afterOp_quiet (s : State) :
    quietOf (afterOp s) = quietOf s := by simp [afterOp, apply_ite quietOf]

@[simp] theorem completeOp_quiet (e : Nat) (s : State) :
    quietOf (completeOp e s) = quietOf s := by
  unfold completeOp
  repeat' (first
    | (simp [apply_ite quietOf]; done) | split | dsimp only | (refine (forAll_quiet _ ?_ _ _).trans ?_)
    | (refine (foldl_quiet _ ?_ _ _).trans ?_) | intro _ | simp [apply_ite quietOf])

@[simp] theorem copyTouch_quiet (p : Place0) (n : Nat) (s : State) :
    quietOf (copyTouch p n s) = quietOf s := by
  unfold copyTouch; (repeat' split) <;> simp [apply_ite quietOf]

@[simp] theorem heldRelease_quiet (e : Nat) (s : State) :
    quietOf (heldRelease e s) = quietOf s := by simp [heldRelease, apply_ite quietOf]

@[simp] theorem countStitch_quiet (k : Nat) (s : State) :
    quietOf (countStitch k s) = quietOf s := by simp [countStitch, apply_ite quietOf]

@[simp] theorem lateResponse_quiet (p : Pkt) (seq : Nat) (s : State) :
    quietOf (lateResponse p seq s) = quietOf s := by simp [lateResponse, apply_ite quietOf]

@[simp] theorem quarantineEnd_quiet (e : Nat) (s : State) :
    quietOf (quarantineEnd e s) = quietOf s := by
  unfold quarantineEnd; (repeat' split) <;> simp [apply_ite quietOf]

@[simp] theorem passWait_quiet (t tally : Nat) (target : Word) (consume : Bool) (s : State) :
    quietOf (passWait t tally target consume s) = quietOf s := by simp [passWait, apply_ite quietOf]

@[simp] theorem waitIssue_quiet (t : Nat) (st : BitVec 256) (s : State) :
    quietOf (waitIssue t st s) = quietOf s := by simp [waitIssue, apply_ite quietOf]

@[simp] theorem waitMet_quiet (t : Nat) (s : State) :
    quietOf (waitMet t s) = quietOf s := by
  unfold waitMet; (repeat' split) <;> simp [apply_ite quietOf]

@[simp] theorem timewaitRelease_quiet (t : Nat) (s : State) :
    quietOf (timewaitRelease t s) = quietOf s := by
  unfold timewaitRelease; (repeat' split) <;> simp [apply_ite quietOf]

@[simp] theorem loopIssue_quiet (t : Nat) (st : BitVec 256) (s : State) :
    quietOf (loopIssue t st s) = quietOf s := by simp [loopIssue, apply_ite quietOf]

@[simp] theorem roleEnd_quiet (t : Nat) (s : State) :
    quietOf (roleEnd t s) = quietOf s := by
  unfold roleEnd; (repeat' split) <;> simp [apply_ite quietOf]

@[simp] theorem unarmJob_quiet (j : Nat) (s : State) :
    quietOf (unarmJob j s) = quietOf s := by simp [unarmJob, apply_ite quietOf]

@[simp] theorem beginProc_quiet (p : Nat) (s : State) :
    quietOf (beginProc p s) = quietOf s := by simp [beginProc, apply_ite quietOf]

@[simp] theorem runProgress_quiet (s : State) :
    quietOf (runProgress s) = quietOf s := by simp [runProgress, apply_ite quietOf]

@[simp] theorem setStale_quiet (key : Nat) (b : Bool) (s : State) :
    quietOf (setStale key b s) = quietOf s := by simp [setStale, apply_ite quietOf]

@[simp] theorem deliverReading_quiet (group : Nat) (l : List Reading) (key : Nat) (s : State) :
    quietOf (deliverReading group l key s) = quietOf s := by
  unfold deliverReading; (repeat' split) <;> simp [apply_ite quietOf]

@[simp] theorem monitorScan_quiet (group : Nat) (l : List Reading) (s : State) :
    quietOf (monitorScan group l s) = quietOf s := by simp [monitorScan, apply_ite quietOf]

@[simp] theorem bandgapCompare_quiet (a b : Int) (s : State) :
    quietOf (bandgapCompare a b s) = quietOf s := by simp [bandgapCompare, apply_ite quietOf]

@[simp] theorem bandgapFail_quiet (s : State) :
    quietOf (bandgapFail s) = quietOf s := by
  unfold bandgapFail; (repeat' split) <;> simp [apply_ite quietOf]

@[simp] theorem startRun_quiet (mask : Nat) (trigger : CalTrigger) (s : State) :
    quietOf (startRun mask trigger s) = quietOf s := by simp [startRun, apply_ite quietOf]

@[simp] theorem calDriftTest_quiet (s : State) :
    quietOf (calDriftTest s) = quietOf s := by
  unfold calDriftTest; (repeat' split) <;> simp [apply_ite quietOf]

@[simp] theorem calDeferredStart_quiet (s : State) :
    quietOf (calDeferredStart s) = quietOf s := by
  unfold calDeferredStart; (repeat' split) <;> simp [apply_ite quietOf]

@[simp] theorem newCorrection_quiet (key : Nat) (v : Q) (s : State) :
    quietOf (newCorrection key v s) = quietOf s := by simp [newCorrection, apply_ite quietOf]

@[simp] theorem storeFf_quiet (s0 : State) :
    quietOf (storeFf s0) = quietOf s0 := by simp [storeFf, apply_ite quietOf]

@[simp] theorem endProcedure_quiet (items : List CalItem) (p : Nat) (a : State × Nat) :
    quietOf (endProcedure items p a).1 = quietOf a.1 := by
  unfold endProcedure
  repeat' (first | (simp [apply_ite quietOf]; done) | split | dsimp only)

@[simp] theorem startUpRun_quiet (s : State) :
    quietOf (startUpRun s) = quietOf s := by simp [startUpRun, apply_ite quietOf]

@[simp] theorem calRunComplete_quiet (items : List CalItem) (s : State) :
    quietOf (calRunComplete items s) = quietOf s := by
  have hf : ∀ (items : List CalItem) (l : List Nat) (a : State × Nat),
      quietOf (l.foldl (fun a p => endProcedure items p a) a).1 = quietOf a.1 := by
    intro items l
    induction l with
    | nil => intro a; rfl
    | cons b l ih => intro a; rw [List.foldl_cons, ih, endProcedure_quiet]
  unfold calRunComplete
  split
  · rfl
  · simp only [reevaluate_quiet, raise_quiet, quietOf_mk, quietOf_eta, hf]

@[simp] theorem putRecord_quiet (ok : Bool) (r : CalRec) (s : State) :
    quietOf (putRecord ok r s) = quietOf s := by simp [putRecord, apply_ite quietOf]

@[simp] theorem calRecordWrite_quiet (ok : Bool) (s : State) :
    quietOf (calRecordWrite ok s) = quietOf s := by simp [calRecordWrite, apply_ite quietOf]

@[simp] theorem setRegion_quiet (j k : Nat) (x : Option Region) (s : State) :
    quietOf (setRegion j k x s) = quietOf s := by simp [setRegion, apply_ite quietOf]

@[simp] theorem Extent.own_quiet (a : Extent) (j : Nat) (s : State) :
    quietOf (Extent.own a j s) = quietOf s := by simp [Extent.own, apply_ite quietOf]

@[simp] theorem Extent.disown_quiet (a : Extent) (j : Nat) (s : State) :
    quietOf (Extent.disown a j s) = quietOf s := by simp [Extent.disown, apply_ite quietOf]

@[simp] theorem putTable_quiet (slot : Nat) (bs : List Byte) (purpose : Nat) (s : State) :
    quietOf (putTable slot bs purpose s) = quietOf s := by simp [putTable, apply_ite quietOf]

@[simp] theorem imageAdd_quiet (j k b : Nat) (x : Region) (s : State) :
    quietOf (imageAdd j k b x s) = quietOf s := by
  unfold imageAdd; dsimp only; (repeat' split) <;> simp [apply_ite quietOf]

@[simp] theorem imageJob_quiet (j : Nat) (s : State) :
    quietOf (imageJob j s) = quietOf s := by
  unfold imageJob
  repeat' (first
    | (simp [apply_ite quietOf]; done) | split | dsimp only | (refine (forAll_quiet _ ?_ _ _).trans ?_)
    | (refine (foldl_quiet _ ?_ _ _).trans ?_) | intro _ | simp [apply_ite quietOf])

@[simp] theorem imageDrop_quiet (j : Nat) (s : State) :
    quietOf (imageDrop j s) = quietOf s := by simp [imageDrop, apply_ite quietOf]

@[simp] theorem bindRole_quiet (j role t : Nat) (s : State) :
    quietOf (bindRole j role t s) = quietOf s := by simp [bindRole, apply_ite quietOf]

@[simp] theorem bindStorage_quiet (j t : Nat) (s : State) :
    quietOf (bindStorage j t s) = quietOf s := by simp [bindStorage, apply_ite quietOf]

@[simp] theorem notPlaced_quiet (r : Req) (s : State) :
    quietOf (notPlaced r s) = quietOf s := by simp [notPlaced, apply_ite quietOf]

@[simp] theorem takePlace_quiet (j pa size : Nat) (s : State) :
    quietOf (takePlace j pa size s) = quietOf s := by simp [takePlace, apply_ite quietOf]

@[simp] theorem leavePlace_quiet (j pa size : Nat) (s : State) :
    quietOf (leavePlace j pa size s) = quietOf s := by simp [leavePlace, apply_ite quietOf]

@[simp] theorem sendUpdates_quiet (j k phase base newBase : Nat) (s : State) :
    quietOf (sendUpdates j k phase base newBase s) = quietOf s := by simp [sendUpdates, apply_ite quietOf]

@[simp] theorem moveStart_quiet (j k old new size : Nat) (s : State) :
    quietOf (moveStart j k old new size s) = quietOf s := by simp [moveStart, apply_ite quietOf]

@[simp] theorem holdWrites_quiet (j k : Nat) (s : State) :
    quietOf (holdWrites j k s) = quietOf s := by simp [holdWrites, apply_ite quietOf]

@[simp] theorem moveCopyComplete_quiet (s : State) :
    quietOf (moveCopyComplete s) = quietOf s := by
  unfold moveCopyComplete; (repeat' split) <;> simp [apply_ite quietOf]

@[simp] theorem moveDrainAck_quiet (module : Nat) (s : State) :
    quietOf (moveDrainAck module s) = quietOf s := by
  unfold moveDrainAck; (repeat' split) <;> simp [apply_ite quietOf]

@[simp] theorem moveFlipAck_quiet (module : Nat) (s : State) :
    quietOf (moveFlipAck module s) = quietOf s := by simp [moveFlipAck, apply_ite quietOf]

@[simp] theorem moveOldPlaceRelease_quiet (s : State) :
    quietOf (moveOldPlaceRelease s) = quietOf s := by
  unfold moveOldPlaceRelease
  repeat' (first
    | (simp [apply_ite quietOf]; done) | split | dsimp only | (refine (forAll_quiet _ ?_ _ _).trans ?_)
    | (refine (foldl_quiet _ ?_ _ _).trans ?_) | intro _ | simp [apply_ite quietOf])

@[simp] theorem moveFlipAckTimeout_quiet (s : State) :
    quietOf (moveFlipAckTimeout s) = quietOf s := by
  unfold moveFlipAckTimeout
  repeat' (first
    | (simp [apply_ite quietOf]; done) | split | dsimp only | (refine (forAll_quiet _ ?_ _ _).trans ?_)
    | (refine (foldl_quiet _ ?_ _ _).trans ?_) | intro _ | simp [apply_ite quietOf])

@[simp] theorem moveUpdateReceive_quiet (u : MoveUpdate) (s : State) :
    quietOf (moveUpdateReceive u s) = quietOf s := by
  unfold moveUpdateReceive
  repeat' (first
    | (simp [apply_ite quietOf]; done) | split | dsimp only | (refine (forAll_quiet _ ?_ _ _).trans ?_)
    | (refine (foldl_quiet _ ?_ _ _).trans ?_) | intro _ | simp [apply_ite quietOf])

@[simp] theorem markLost_quiet (c : Nat) (s : State) :
    quietOf (markLost c s) = quietOf s := by simp [markLost, apply_ite quietOf]

@[simp] theorem sramRewrite_quiet (k : Nat) (s : State) :
    quietOf (sramRewrite k s) = quietOf s := by simp [sramRewrite, apply_ite quietOf]

@[simp] theorem sramBankScrub_quiet (t bank : Nat) (s : State) :
    quietOf (sramBankScrub t bank s) = quietOf s := by simp [sramBankScrub, apply_ite quietOf]

@[simp] theorem passEnd_quiet (c : Nat) (s : State) :
    quietOf (passEnd c s) = quietOf s := by simp [passEnd, apply_ite quietOf]

@[simp] theorem patrolScrub_quiet (c sub : Nat) (s : State) :
    quietOf (patrolScrub c sub s) = quietOf s := by simp [patrolScrub, apply_ite quietOf]

@[simp] theorem scrubPeriodChange_quiet (c : Nat) (s : State) :
    quietOf (scrubPeriodChange c s) = quietOf s := by simp [scrubPeriodChange, apply_ite quietOf]

@[simp] theorem calibrateAtStart_quiet (s : State) :
    quietOf (calibrateAtStart s) = quietOf s := by simp [calibrateAtStart, apply_ite quietOf]

@[simp] theorem dimmTraining_quiet (c : Nat) (x : Spd) (s : State) :
    quietOf (dimmTraining c x s) = quietOf s := by simp [dimmTraining, apply_ite quietOf]

@[simp] theorem discardStarts_quiet (s : State) :
    quietOf (discardStarts s) = quietOf s := by simp [discardStarts, apply_ite quietOf]

@[simp] theorem showVersion_quiet (s : State) :
    quietOf (showVersion s) = quietOf s := by simp [showVersion, apply_ite quietOf]

@[simp] theorem limitedEvent_quiet (was : Bool) (cause : Nat) (s : State) :
    quietOf (limitedEvent was cause s) = quietOf s := by simp [limitedEvent, apply_ite quietOf]

@[simp] theorem inputRange_quiet (v : Nat) (s : State) :
    quietOf (inputRange v s) = quietOf s := by simp [inputRange, apply_ite quietOf]

@[simp] theorem converterTemp_quiet (t : Int) (s : State) :
    quietOf (converterTemp t s) = quietOf s := by simp [converterTemp, apply_ite quietOf]

@[simp] theorem holdupCheck_quiet (cap v : Nat) (s : State) :
    quietOf (holdupCheck cap v s) = quietOf s := by simp [holdupCheck, apply_ite quietOf]

@[simp] theorem holdupCharged_quiet (v : Nat) (s : State) :
    quietOf (holdupCharged v s) = quietOf s := by simp [holdupCharged, apply_ite quietOf]

@[simp] theorem heelDone_quiet (recs : List Record) (s : State) : quietOf (heelDone recs s).2 = quietOf s := by
  simp [heelDone]
@[simp] theorem heelChunk_quiet (c : Nat) (recs recs' : List Record) (s s' : State)
    (h : (if c = heelLast then
      match heelDone recs s with
      | (r, s) => (recs ++ [r], s)
      else (recs, s)) = (recs', s')) : quietOf s' = quietOf s := by
  split at h
  · have := heelDone_quiet recs s
    cases h; exact this
  · cases h; rfl

@[simp] theorem startChunk_quiet (c : Nat) (recs : List Record) (s : State) :
    quietOf (startChunk c recs s) = quietOf s := by
  unfold startChunk
  split
  rename_i h
  have := heelChunk_quiet c recs _ s _ h
  simp [this]

@[simp] theorem startErase_quiet (s : State) :
    quietOf (startErase s) = quietOf s := by
  unfold startErase; (repeat' split) <;> simp [apply_ite quietOf]

@[simp] theorem logChunkWrite_quiet (s : State) :
    quietOf (logChunkWrite s) = quietOf s := by
  unfold logChunkWrite; (repeat' split) <;> simp [apply_ite quietOf]

@[simp] theorem mediaFail_quiet (area sector op : Nat) (s : State) :
    quietOf (mediaFail area sector op s) = quietOf s := by simp [mediaFail, apply_ite quietOf]

@[simp] theorem toeFail_quiet (sector op : Nat) (s : State) :
    quietOf (toeFail sector op s) = quietOf s := by simp [toeFail, apply_ite quietOf]

@[simp] theorem checkFreeze_quiet (s : State) :
    quietOf (checkFreeze s) = quietOf s := by simp [checkFreeze, apply_ite quietOf]

@[simp] theorem chunkWritten_quiet (c version : Nat) (recs : List Record) (pf : Bool) (s : State) :
    quietOf (chunkWritten c version recs pf s) = quietOf s := by simp [chunkWritten, apply_ite quietOf]

@[simp] theorem chunkFailed_quiet (c version : Nat) (recs : List Record) (s : State) :
    quietOf (chunkFailed c version recs s) = quietOf s := by simp [chunkFailed, apply_ite quietOf]

@[simp] theorem lossRecordWrite_quiet (s : State) :
    quietOf (lossRecordWrite s) = quietOf s := by simp [lossRecordWrite, apply_ite quietOf]

@[simp] theorem flushRec_quiet (code : BitVec 16) (sev : Nat) (items : List Word) (s : State) :
    quietOf (flushRec code sev items s).2 = quietOf s := by
  simp [flushRec]

@[simp] theorem flushChunk_quiet (c : Nat) (recs : List Record) (s : State) :
    quietOf (flushChunk c recs s) = quietOf s := by
  unfold flushChunk
  split
  rename_i h
  have := heelChunk_quiet c recs _ s _ h
  simp [this]

@[simp] theorem flushLast_quiet (c : Nat) (recs rest : List Record) (written : Nat) (s : State) :
    quietOf (flushLast c recs rest written s) = quietOf s := by
  unfold flushLast
  simp only [flushChunk_quiet, flushRec_quiet]
  split <;> simp

@[simp] theorem flushChunks_quiet (n : Nat) (order : List Record) (w : Nat) (s : State) :
    quietOf (flushChunks n order w s) = quietOf s := by
  induction n generalizing order w s with
  | zero => rfl
  | succ n ih =>
    unfold flushChunks
    repeat' (first | (simp [ih]; done) | split | dsimp only)

@[simp] theorem flushLog_quiet (s : State) : quietOf (flushLog s) = quietOf s := by
  simp [flushLog]

@[simp] theorem logPowerFail_quiet (s : State) :
    quietOf (logPowerFail s) = quietOf s := by simp [logPowerFail, apply_ite quietOf]

@[simp] theorem flushIdle_quiet (s : State) :
    quietOf (flushIdle s) = quietOf s := by simp [flushIdle, apply_ite quietOf]

@[simp] theorem logChunkComplete_quiet (ok : Bool) (s : State) :
    quietOf (logChunkComplete ok s) = quietOf s := by
  unfold logChunkComplete
  repeat' (first
    | (simp [apply_ite quietOf]; done) | split | dsimp only | (refine (forAll_quiet _ ?_ _ _).trans ?_)
    | (refine (foldl_quiet _ ?_ _ _).trans ?_) | intro _ | simp [apply_ite quietOf])

@[simp] theorem toeEraseComplete_quiet (ok : Bool) (s : State) :
    quietOf (toeEraseComplete ok s) = quietOf s := by
  unfold toeEraseComplete; (repeat' split) <;> simp [apply_ite quietOf]

@[simp] theorem thaw_quiet (cause : Nat) (s : State) :
    quietOf (thaw cause s) = quietOf s := by
  unfold thaw; (repeat' split) <;> simp [apply_ite quietOf]

@[simp] theorem logFreezeTimeout_quiet (s : State) :
    quietOf (logFreezeTimeout s) = quietOf s := by simp [logFreezeTimeout, apply_ite quietOf]

@[simp] theorem renumber_quiet (old : Word) (s : State) :
    quietOf (renumber old s) = quietOf s := by simp [renumber, apply_ite quietOf]

@[simp] theorem badChunk_quiet (p : Nat × Nat) (s : State) :
    quietOf (badChunk p s) = quietOf s := by
  unfold badChunk
  repeat' (first
    | (simp [apply_ite quietOf]; done) | split | dsimp only | (refine (forAll_quiet _ ?_ _ _).trans ?_)
    | (refine (foldl_quiet _ ?_ _ _).trans ?_) | intro _ | simp [apply_ite quietOf])

@[simp] theorem logScanComplete_quiet (bad : List (Nat × Nat)) (s : State) :
    quietOf (logScanComplete bad s) = quietOf s := by
  unfold logScanComplete
  repeat' (first
    | (simp [apply_ite quietOf]; done) | split | dsimp only | (refine (forAll_quiet _ ?_ _ _).trans ?_)
    | (refine (foldl_quiet _ ?_ _ _).trans ?_) | intro _ | simp [apply_ite quietOf])

@[simp] theorem logFillPeakRead_quiet (s : State) :
    quietOf (logFillPeakRead s) = quietOf s := by simp [logFillPeakRead, apply_ite quietOf]

@[simp] theorem logLostRead_quiet (s : State) :
    quietOf (logLostRead s) = quietOf s := by simp [logLostRead, apply_ite quietOf]

@[simp] theorem reportSlots_quiet (s : State) :
    quietOf (reportSlots s) = quietOf s := by
  unfold reportSlots
  repeat' (first
    | (simp [apply_ite quietOf]; done) | split | dsimp only | (refine (forAll_quiet _ ?_ _ _).trans ?_)
    | (refine (foldl_quiet _ ?_ _ _).trans ?_) | intro _ | simp [apply_ite quietOf])

@[simp] theorem modResetRelease_quiet (s : State) :
    quietOf (modResetRelease s) = quietOf s := by simp [modResetRelease, apply_ite quietOf]

@[simp] theorem linkReset_quiet (s : State) :
    quietOf (linkReset s) = quietOf s := by simp [linkReset, apply_ite quietOf]

@[simp] theorem functionReset_quiet (s : State) :
    quietOf (functionReset s) = quietOf s := by simp [functionReset, apply_ite quietOf]

@[simp] theorem hostLinkReset_quiet (s : State) :
    quietOf (hostLinkReset s) = quietOf s := by simp [hostLinkReset, apply_ite quietOf]

@[simp] theorem powerOff_quiet (s : State) :
    quietOf (powerOff s) = quietOf s := by simp [powerOff, apply_ite quietOf]

@[simp] theorem enterDead_quiet (s : State) :
    quietOf (enterDead s) = quietOf s := by
  unfold enterDead
  repeat' (first
    | (simp [apply_ite quietOf]; done) | split | dsimp only | (refine (forAll_quiet _ ?_ _ _).trans ?_)
    | (refine (foldl_quiet _ ?_ _ _).trans ?_) | intro _ | simp [apply_ite quietOf])

@[simp] theorem bootCopy_quiet (s : State) :
    quietOf (bootCopy s) = quietOf s := by simp [bootCopy, apply_ite quietOf]

@[simp] theorem bootRomStart_quiet (s : State) :
    quietOf (bootRomStart s) = quietOf s := by simp [bootRomStart, apply_ite quietOf]

@[simp] theorem trialTimeout_quiet (s : State) :
    quietOf (trialTimeout s) = quietOf s := by
  unfold trialTimeout; (repeat' split) <;> simp [apply_ite quietOf]

@[simp] theorem migrateCal_quiet (flashOk : Bool) (s : State) :
    quietOf (migrateCal flashOk s) = quietOf s := by simp [migrateCal, apply_ite quietOf]

@[simp] theorem migrateLog_quiet (s : State) :
    quietOf (migrateLog s) = quietOf s := by simp [migrateLog, apply_ite quietOf]

@[simp] theorem migration_quiet (flashOk : Bool) (s : State) :
    quietOf (migration flashOk s) = quietOf s := by simp [migration, apply_ite quietOf]

@[simp] theorem endTrial_quiet (s : State) :
    quietOf (endTrial s) = quietOf s := by
  unfold endTrial; (repeat' split) <;> simp [apply_ite quietOf]

@[simp] theorem blowFuses_quiet (n : Nat) (s : State) :
    quietOf (blowFuses n s) = quietOf s := by simp [blowFuses, apply_ite quietOf]

@[simp] theorem startupComplete_quiet (fuses : Nat) (s : State) :
    quietOf (startupComplete fuses s) = quietOf s := by simp [startupComplete, apply_ite quietOf]

@[simp] theorem notTaken_quiet (n : Word) (cause peer : Nat) (s : State) :
    quietOf (notTaken n cause peer s) = quietOf s := by simp [notTaken, apply_ite quietOf]

@[simp] theorem armBoundary_quiet (n : Word) (s : State) :
    quietOf (armBoundary n s) = quietOf s := by
  unfold armBoundary; (repeat' split) <;> simp [apply_ite quietOf]

@[simp] theorem armNext_quiet (n : Word) (s : State) :
    quietOf (armNext n s) = quietOf s := by simp [armNext, apply_ite quietOf]

@[simp] theorem askHeader_quiet (s : State) :
    quietOf (askHeader s) = quietOf s := by simp [askHeader, apply_ite quietOf]

@[simp] theorem dirtyDrainEnd_quiet (s : State) :
    quietOf (dirtyDrainEnd s) = quietOf s := by
  unfold dirtyDrainEnd; (repeat' split) <;> simp [apply_ite quietOf]

@[simp] theorem disarmBoundary_quiet (s : State) :
    quietOf (disarmBoundary s) = quietOf s := by
  unfold disarmBoundary; (repeat' split) <;> simp [apply_ite quietOf]

@[simp] theorem joinMask_quiet (old new : Word) (s : State) :
    quietOf (joinMask old new s) = quietOf s := by simp [joinMask, apply_ite quietOf]

@[simp] theorem heartbeatSend_quiet (s : State) :
    quietOf (heartbeatSend s) = quietOf s := by simp [heartbeatSend, apply_ite quietOf]

@[simp] theorem modPeers_quiet (p : Peer → Bool) (f : Peer → Peer) (s : State) :
    quietOf (modPeers p f s) = quietOf s := by simp [modPeers, apply_ite quietOf]

@[simp] theorem heartbeatReceive_quiet (hb : List Word) (s : State) :
    quietOf (heartbeatReceive hb s) = quietOf s := by simp [heartbeatReceive, apply_ite quietOf]

@[simp] theorem mirrorSeal_quiet (s : State) :
    quietOf (mirrorSeal s) = quietOf s := by
  unfold mirrorSeal; (repeat' split) <;> simp [apply_ite quietOf]

@[simp] theorem storeRead_quiet (x : Store) (off n : Nat) (s : State) :
    quietOf (storeRead x off n s) = quietOf s := by
  unfold storeRead; (repeat' split) <;> simp [apply_ite quietOf]

@[simp] theorem restoreCut_quiet (s : State) :
    quietOf (restoreCut s) = quietOf s := by simp [restoreCut, apply_ite quietOf]

@[simp] theorem freeStore_quiet (m : Nat) (s : State) :
    quietOf (freeStore m s) = quietOf s := by
  unfold freeStore; (repeat' split) <;> simp [apply_ite quietOf]

@[simp] theorem Extent.hand_quiet (a : Extent) (src dst : Nat) (s : State) :
    quietOf (Extent.hand a src dst s) = quietOf s := by simp [Extent.hand, apply_ite quietOf]

@[simp] theorem readSeals_quiet (k : Nat) (s : State) :
    quietOf (readSeals k s) = quietOf s := by
  unfold readSeals; (repeat' split) <;> simp [apply_ite quietOf]

@[simp] theorem notice_quiet (e : Entry) (s : State) :
    quietOf (notice e s) = quietOf s := by simp [notice, apply_ite quietOf]

@[simp] theorem fireEvents_quiet (e : Entry) (s : State) :
    quietOf (fireEvents e s) = quietOf s := by simp [fireEvents, apply_ite quietOf]

@[simp] theorem commitFire_quiet (i : Nat) (e : Entry) (s : State) :
    quietOf (commitFire i e s) = quietOf s := by
  unfold commitFire; (repeat' split) <;> simp [apply_ite quietOf]

@[simp] theorem disarmed_quiet (i : Nat) (e : Entry) (s : State) :
    quietOf (disarmed i e s) = quietOf s := by simp [disarmed, apply_ite quietOf]

@[simp] theorem ringSlot_quiet (n : Nat) (s : State) :
    quietOf (ringSlot n s) = quietOf s := by simp [ringSlot, apply_ite quietOf]

@[simp] theorem dropPending_quiet (n : Nat) (s : State) :
    quietOf (dropPending n s) = quietOf s := by simp [dropPending, apply_ite quietOf]

@[simp] theorem freeSlot_quiet (n : Nat) (s : State) :
    quietOf (freeSlot n s) = quietOf s := by simp [freeSlot, apply_ite quietOf]

@[simp] theorem mbxErrRead_quiet (s : State) :
    quietOf (mbxErrRead s) = quietOf s := by simp [mbxErrRead, apply_ite quietOf]

@[simp] theorem sendOwed_quiet (v : Nat) (masked : Bool) (s : State) :
    quietOf (sendOwed v masked s) = quietOf s := by simp [sendOwed, apply_ite quietOf]

@[simp] theorem irqMaskWrite_quiet (value : Word) (s : State) :
    quietOf (irqMaskWrite value s) = quietOf s := by simp [irqMaskWrite, apply_ite quietOf]

@[simp] theorem irqJobMaskWrite_quiet (value : Word) (s : State) :
    quietOf (irqJobMaskWrite value s) = quietOf s := by simp [irqJobMaskWrite, apply_ite quietOf]

@[simp] theorem gapEnd_quiet (v : Nat) (s : State) :
    quietOf (gapEnd v s) = quietOf s := by simp [gapEnd, apply_ite quietOf]

@[simp] theorem badAccess_quiet (off width : Nat) (isRead : Bool) (s : State) :
    quietOf (badAccess off width isRead s) = quietOf s := by simp [badAccess, apply_ite quietOf]

@[simp] theorem bar0Bad_quiet (off width : Nat) (isRead : Bool) (s : State) :
    quietOf (bar0Bad off width isRead s) = quietOf s := by simp [bar0Bad, apply_ite quietOf]

@[simp] theorem restoreFails_quiet (x : Restore) (s : State) :
    quietOf (restoreFails x s) = quietOf s := by simp [restoreFails, apply_ite quietOf]

@[simp] theorem readHeader_quiet (x : Restore) (stage : Nat) (s : State) :
    quietOf (readHeader x stage s) = quietOf s := by simp [readHeader, apply_ite quietOf]

@[simp] theorem restoreSeal_quiet (x : Restore) (s : State) :
    quietOf (restoreSeal x s) = quietOf s := by simp [restoreSeal, apply_ite quietOf]

theorem restorePlan_quiet (journal : List Nat) (l : List ImageRegion) {x y : Restore} {s u : State}
    (h : restorePlan journal l x s = some (y, u)) : quietOf u = quietOf s := by
  induction l generalizing x s with
  | nil => cases h; rfl
  | cons r l ih =>
    unfold restorePlan at h
    split at h
    · split at h
      · exact ih h
      · split at h
        · cases h
        · rw [ih h, takePlace_quiet]
    · exact ih h

@[simp] theorem restorePages_quiet (x : Restore) (s : State) : quietOf (restorePages x s) = quietOf s := by
  unfold restorePages
  dsimp only
  split
  · simp
  · next h => simp [restorePlan_quiet _ _ h]

@[simp] theorem restoreFlip_quiet (j : Nat) (p : Nat × Nat × Nat) (s : State) :
    quietOf (restoreFlip j p s) = quietOf s := by
  unfold restoreFlip; (repeat' split) <;> simp [apply_ite quietOf]

@[simp] theorem restoreEnds_quiet (x : Restore) (s : State) :
    quietOf (restoreEnds x s) = quietOf s := by simp [restoreEnds, apply_ite quietOf]

@[simp] theorem restoreStep_quiet (x : Restore) (s : State) :
    quietOf (restoreStep x s) = quietOf s := by
  unfold restoreStep; (repeat' split) <;> simp [apply_ite quietOf]

@[simp] theorem restoreGo_quiet (n : Nat) (s : State) : quietOf (restoreGo n s) = quietOf s := by
  induction n generalizing s with
  | zero => rfl
  | succ n ih =>
    unfold restoreGo
    split
    · rfl
    · split
      · rfl
      · rw [ih, restoreStep_quiet]


@[simp] theorem portRead_quiet (n : Nat) (a : Option (List Byte)) (s : State) :
    quietOf (portRead n a s).2 = quietOf s := by
  cases a <;> simp [portRead]

@[simp] theorem tpmReceive_quiet (f : EthFrame) (dma : Dma) (s : State) :
    quietOf (tpmReceive f dma s) = quietOf s := by
  have hp := portRead_quiet 16 (nth none dma 0) s
  unfold tpmReceive
  dsimp only
  repeat' (first | (simp [hp]; done) | split)

@[simp] theorem tpmTransmit_quiet (dma : Dma) (s : State) : quietOf (tpmTransmit dma s) = quietOf s := by
  have hp := portRead_quiet 16 (nth none dma 0) s
  unfold tpmTransmit
  dsimp only
  split
  · rfl
  · split <;> simp only [setCause_quiet, quietOf_mk, quietOf_eta, emit_quiet, hp, portRead_quiet, useFresh_quiet]

@[simp] theorem ringSizeWrite_quiet (tx : Bool) (value : Word) (s : State) :
    quietOf (ringSizeWrite tx value s) = quietOf s := by simp [ringSizeWrite, apply_ite quietOf]

@[simp] theorem tpmDropRead_quiet (s : State) :
    quietOf (tpmDropRead s) = quietOf s := by simp [tpmDropRead, apply_ite quietOf]

@[simp] theorem portLink_quiet (up : Bool) (s : State) :
    quietOf (portLink up s) = quietOf s := by simp [portLink, apply_ite quietOf]

@[simp] theorem clearCause_quiet (v : Word) (s : State) :
    quietOf (clearCause v s) = quietOf s := by simp [clearCause, apply_ite quietOf]

@[simp] theorem clearJobCause_quiet (v : Word) (s : State) :
    quietOf (clearJobCause v s) = quietOf s := by simp [clearJobCause, apply_ite quietOf]

@[simp] theorem msixWrite_quiet (off : Nat) (v : Word) (s : State) :
    quietOf (msixWrite off v s) = quietOf s := by simp [msixWrite, apply_ite quietOf]

@[simp] theorem irqWrite_quiet (off : Nat) (v : Word) (s : State) :
    quietOf (irqWrite off v s) = quietOf s := by simp [irqWrite, apply_ite quietOf]

@[simp] theorem mbxWrite_quiet (off : Nat) (v : Word) (s : State) :
    quietOf (mbxWrite off v s) = quietOf s := by simp [mbxWrite, apply_ite quietOf]

@[simp] theorem tmuWrite_quiet (off : Nat) (v : Word) (s : State) :
    quietOf (tmuWrite off v s) = quietOf s := by simp [tmuWrite, apply_ite quietOf]

@[simp] theorem cvuRegWrite_quiet (off : Nat) (v : Word) (s : State) :
    quietOf (cvuRegWrite off v s) = quietOf s := by simp [cvuRegWrite, apply_ite quietOf]

@[simp] theorem logWrite_quiet (off : Nat) (v : Word) (s : State) :
    quietOf (logWrite off v s) = quietOf s := by simp [logWrite, apply_ite quietOf]

@[simp] theorem ringWrite_quiet (tx : Bool) (off : Nat) (v : Word) (s : State) :
    quietOf (ringWrite tx off v s) = quietOf s := by simp [ringWrite, apply_ite quietOf]

@[simp] theorem tpmWrite_quiet (off : Nat) (v : Word) (s : State) :
    quietOf (tpmWrite off v s) = quietOf s := by simp [tpmWrite, apply_ite quietOf]

@[simp] theorem slotWrite_quiet (off : Nat) (v : Word) (s : State) :
    quietOf (slotWrite off v s) = quietOf s := by simp [slotWrite, apply_ite quietOf]

@[simp] theorem wordWrite_quiet (off : Nat) (v : Word) (s : State) :
    quietOf (wordWrite off v s) = quietOf s := by simp [wordWrite, apply_ite quietOf]

@[simp] theorem registerWrite_quiet (off : Nat) (value : DWord) (wide : Bool) (s : State) :
    quietOf (registerWrite off value wide s) = quietOf s := by simp [registerWrite, apply_ite quietOf]

end Sys2Proof.Machine
end

