-- ==== Sys2Proof/Laws/Units.lean ====
section
/-! SUPPORT. The tables of the fabric, the Welt and the Shank: what each updater leaves, field by field, and reading back
what was set. -/

namespace Sys2Proof.Machine

/-! setUnit. -/

@[simp] theorem setUnit_glb (n : Nat) (x : FUnit) (s : State) : (setUnit n x s).glb = s.glb := (rfl)
@[simp] theorem setUnit_mbx (n : Nat) (x : FUnit) (s : State) : (setUnit n x s).mbx = s.mbx := (rfl)
@[simp] theorem setUnit_irq (n : Nat) (x : FUnit) (s : State) : (setUnit n x s).irq = s.irq := (rfl)
@[simp] theorem setUnit_bar2 (n : Nat) (x : FUnit) (s : State) : (setUnit n x s).bar2 = s.bar2 := (rfl)
@[simp] theorem setUnit_tmu (n : Nat) (x : FUnit) (s : State) : (setUnit n x s).tmu = s.tmu := (rfl)
@[simp] theorem setUnit_sched (n : Nat) (x : FUnit) (s : State) : (setUnit n x s).sched = s.sched := (rfl)
@[simp] theorem setUnit_tpm (n : Nat) (x : FUnit) (s : State) : (setUnit n x s).tpm = s.tpm := (rfl)
@[simp] theorem setUnit_cvus (n : Nat) (x : FUnit) (s : State) : (setUnit n x s).cvus = s.cvus := (rfl)
@[simp] theorem setUnit_log (n : Nat) (x : FUnit) (s : State) : (setUnit n x s).log = s.log := (rfl)
@[simp] theorem setUnit_power (n : Nat) (x : FUnit) (s : State) : (setUnit n x s).power = s.power := (rfl)
@[simp] theorem setUnit_fw (n : Nat) (x : FUnit) (s : State) : (setUnit n x s).fw = s.fw := (rfl)
@[simp] theorem setUnit_jobs (n : Nat) (x : FUnit) (s : State) : (setUnit n x s).jobs = s.jobs := (rfl)
@[simp] theorem setUnit_tiles (n : Nat) (x : FUnit) (s : State) : (setUnit n x s).tiles = s.tiles := (rfl)
@[simp] theorem setUnit_stitch (n : Nat) (x : FUnit) (s : State) : (setUnit n x s).stitch = s.stitch := (rfl)
@[simp] theorem setUnit_mem (n : Nat) (x : FUnit) (s : State) : (setUnit n x s).mem = s.mem := (rfl)
@[simp] theorem setUnit_place (n : Nat) (x : FUnit) (s : State) : (setUnit n x s).place = s.place := (rfl)
@[simp] theorem setUnit_welt (n : Nat) (x : FUnit) (s : State) : (setUnit n x s).welt = s.welt := (rfl)
@[simp] theorem setUnit_shank (n : Nat) (x : FUnit) (s : State) : (setUnit n x s).shank = s.shank := (rfl)
@[simp] theorem setUnit_mon (n : Nat) (x : FUnit) (s : State) : (setUnit n x s).mon = s.mon := (rfl)
@[simp] theorem setUnit_resil (n : Nat) (x : FUnit) (s : State) : (setUnit n x s).resil = s.resil := (rfl)
@[simp] theorem setUnit_clk (n : Nat) (x : FUnit) (s : State) : (setUnit n x s).clk = s.clk := (rfl)
@[simp] theorem setUnit_fresh (n : Nat) (x : FUnit) (s : State) : (setUnit n x s).fresh = s.fresh := (rfl)
@[simp] theorem setUnit_out (n : Nat) (x : FUnit) (s : State) : (setUnit n x s).out = s.out := (rfl)
@[simp] theorem setUnit_pending (n : Nat) (x : FUnit) (s : State) : (setUnit n x s).pending = s.pending := (rfl)

/-! setLane. -/

@[simp] theorem setLane_glb (n : Nat) (x : Lane) (s : State) : (setLane n x s).glb = s.glb := (rfl)
@[simp] theorem setLane_mbx (n : Nat) (x : Lane) (s : State) : (setLane n x s).mbx = s.mbx := (rfl)
@[simp] theorem setLane_irq (n : Nat) (x : Lane) (s : State) : (setLane n x s).irq = s.irq := (rfl)
@[simp] theorem setLane_bar2 (n : Nat) (x : Lane) (s : State) : (setLane n x s).bar2 = s.bar2 := (rfl)
@[simp] theorem setLane_tmu (n : Nat) (x : Lane) (s : State) : (setLane n x s).tmu = s.tmu := (rfl)
@[simp] theorem setLane_sched (n : Nat) (x : Lane) (s : State) : (setLane n x s).sched = s.sched := (rfl)
@[simp] theorem setLane_tpm (n : Nat) (x : Lane) (s : State) : (setLane n x s).tpm = s.tpm := (rfl)
@[simp] theorem setLane_cvus (n : Nat) (x : Lane) (s : State) : (setLane n x s).cvus = s.cvus := (rfl)
@[simp] theorem setLane_log (n : Nat) (x : Lane) (s : State) : (setLane n x s).log = s.log := (rfl)
@[simp] theorem setLane_power (n : Nat) (x : Lane) (s : State) : (setLane n x s).power = s.power := (rfl)
@[simp] theorem setLane_fw (n : Nat) (x : Lane) (s : State) : (setLane n x s).fw = s.fw := (rfl)
@[simp] theorem setLane_jobs (n : Nat) (x : Lane) (s : State) : (setLane n x s).jobs = s.jobs := (rfl)
@[simp] theorem setLane_tiles (n : Nat) (x : Lane) (s : State) : (setLane n x s).tiles = s.tiles := (rfl)
@[simp] theorem setLane_stitch (n : Nat) (x : Lane) (s : State) : (setLane n x s).stitch = s.stitch := (rfl)
@[simp] theorem setLane_mem (n : Nat) (x : Lane) (s : State) : (setLane n x s).mem = s.mem := (rfl)
@[simp] theorem setLane_place (n : Nat) (x : Lane) (s : State) : (setLane n x s).place = s.place := (rfl)
@[simp] theorem setLane_welt (n : Nat) (x : Lane) (s : State) : (setLane n x s).welt = s.welt := (rfl)
@[simp] theorem setLane_shank (n : Nat) (x : Lane) (s : State) : (setLane n x s).shank = s.shank := (rfl)
@[simp] theorem setLane_mon (n : Nat) (x : Lane) (s : State) : (setLane n x s).mon = s.mon := (rfl)
@[simp] theorem setLane_resil (n : Nat) (x : Lane) (s : State) : (setLane n x s).resil = s.resil := (rfl)
@[simp] theorem setLane_clk (n : Nat) (x : Lane) (s : State) : (setLane n x s).clk = s.clk := (rfl)
@[simp] theorem setLane_fresh (n : Nat) (x : Lane) (s : State) : (setLane n x s).fresh = s.fresh := (rfl)
@[simp] theorem setLane_out (n : Nat) (x : Lane) (s : State) : (setLane n x s).out = s.out := (rfl)
@[simp] theorem setLane_pending (n : Nat) (x : Lane) (s : State) : (setLane n x s).pending = s.pending := (rfl)

/-! setFront. -/

@[simp] theorem setFront_glb (n : Nat) (x : Front) (s : State) : (setFront n x s).glb = s.glb := (rfl)
@[simp] theorem setFront_mbx (n : Nat) (x : Front) (s : State) : (setFront n x s).mbx = s.mbx := (rfl)
@[simp] theorem setFront_irq (n : Nat) (x : Front) (s : State) : (setFront n x s).irq = s.irq := (rfl)
@[simp] theorem setFront_bar2 (n : Nat) (x : Front) (s : State) : (setFront n x s).bar2 = s.bar2 := (rfl)
@[simp] theorem setFront_tmu (n : Nat) (x : Front) (s : State) : (setFront n x s).tmu = s.tmu := (rfl)
@[simp] theorem setFront_sched (n : Nat) (x : Front) (s : State) : (setFront n x s).sched = s.sched := (rfl)
@[simp] theorem setFront_tpm (n : Nat) (x : Front) (s : State) : (setFront n x s).tpm = s.tpm := (rfl)
@[simp] theorem setFront_cvus (n : Nat) (x : Front) (s : State) : (setFront n x s).cvus = s.cvus := (rfl)
@[simp] theorem setFront_log (n : Nat) (x : Front) (s : State) : (setFront n x s).log = s.log := (rfl)
@[simp] theorem setFront_power (n : Nat) (x : Front) (s : State) : (setFront n x s).power = s.power := (rfl)
@[simp] theorem setFront_fw (n : Nat) (x : Front) (s : State) : (setFront n x s).fw = s.fw := (rfl)
@[simp] theorem setFront_jobs (n : Nat) (x : Front) (s : State) : (setFront n x s).jobs = s.jobs := (rfl)
@[simp] theorem setFront_tiles (n : Nat) (x : Front) (s : State) : (setFront n x s).tiles = s.tiles := (rfl)
@[simp] theorem setFront_stitch (n : Nat) (x : Front) (s : State) : (setFront n x s).stitch = s.stitch := (rfl)
@[simp] theorem setFront_mem (n : Nat) (x : Front) (s : State) : (setFront n x s).mem = s.mem := (rfl)
@[simp] theorem setFront_place (n : Nat) (x : Front) (s : State) : (setFront n x s).place = s.place := (rfl)
@[simp] theorem setFront_welt (n : Nat) (x : Front) (s : State) : (setFront n x s).welt = s.welt := (rfl)
@[simp] theorem setFront_shank (n : Nat) (x : Front) (s : State) : (setFront n x s).shank = s.shank := (rfl)
@[simp] theorem setFront_mon (n : Nat) (x : Front) (s : State) : (setFront n x s).mon = s.mon := (rfl)
@[simp] theorem setFront_resil (n : Nat) (x : Front) (s : State) : (setFront n x s).resil = s.resil := (rfl)
@[simp] theorem setFront_clk (n : Nat) (x : Front) (s : State) : (setFront n x s).clk = s.clk := (rfl)
@[simp] theorem setFront_fresh (n : Nat) (x : Front) (s : State) : (setFront n x s).fresh = s.fresh := (rfl)
@[simp] theorem setFront_out (n : Nat) (x : Front) (s : State) : (setFront n x s).out = s.out := (rfl)
@[simp] theorem setFront_pending (n : Nat) (x : Front) (s : State) : (setFront n x s).pending = s.pending := (rfl)

/-! setRun. -/

@[simp] theorem setRun_glb (n : Nat) (x : LaceRun) (s : State) : (setRun n x s).glb = s.glb := (rfl)
@[simp] theorem setRun_mbx (n : Nat) (x : LaceRun) (s : State) : (setRun n x s).mbx = s.mbx := (rfl)
@[simp] theorem setRun_irq (n : Nat) (x : LaceRun) (s : State) : (setRun n x s).irq = s.irq := (rfl)
@[simp] theorem setRun_bar2 (n : Nat) (x : LaceRun) (s : State) : (setRun n x s).bar2 = s.bar2 := (rfl)
@[simp] theorem setRun_tmu (n : Nat) (x : LaceRun) (s : State) : (setRun n x s).tmu = s.tmu := (rfl)
@[simp] theorem setRun_sched (n : Nat) (x : LaceRun) (s : State) : (setRun n x s).sched = s.sched := (rfl)
@[simp] theorem setRun_tpm (n : Nat) (x : LaceRun) (s : State) : (setRun n x s).tpm = s.tpm := (rfl)
@[simp] theorem setRun_cvus (n : Nat) (x : LaceRun) (s : State) : (setRun n x s).cvus = s.cvus := (rfl)
@[simp] theorem setRun_log (n : Nat) (x : LaceRun) (s : State) : (setRun n x s).log = s.log := (rfl)
@[simp] theorem setRun_power (n : Nat) (x : LaceRun) (s : State) : (setRun n x s).power = s.power := (rfl)
@[simp] theorem setRun_fw (n : Nat) (x : LaceRun) (s : State) : (setRun n x s).fw = s.fw := (rfl)
@[simp] theorem setRun_jobs (n : Nat) (x : LaceRun) (s : State) : (setRun n x s).jobs = s.jobs := (rfl)
@[simp] theorem setRun_tiles (n : Nat) (x : LaceRun) (s : State) : (setRun n x s).tiles = s.tiles := (rfl)
@[simp] theorem setRun_stitch (n : Nat) (x : LaceRun) (s : State) : (setRun n x s).stitch = s.stitch := (rfl)
@[simp] theorem setRun_mem (n : Nat) (x : LaceRun) (s : State) : (setRun n x s).mem = s.mem := (rfl)
@[simp] theorem setRun_place (n : Nat) (x : LaceRun) (s : State) : (setRun n x s).place = s.place := (rfl)
@[simp] theorem setRun_fabric (n : Nat) (x : LaceRun) (s : State) : (setRun n x s).fabric = s.fabric := (rfl)
@[simp] theorem setRun_shank (n : Nat) (x : LaceRun) (s : State) : (setRun n x s).shank = s.shank := (rfl)
@[simp] theorem setRun_mon (n : Nat) (x : LaceRun) (s : State) : (setRun n x s).mon = s.mon := (rfl)
@[simp] theorem setRun_resil (n : Nat) (x : LaceRun) (s : State) : (setRun n x s).resil = s.resil := (rfl)
@[simp] theorem setRun_clk (n : Nat) (x : LaceRun) (s : State) : (setRun n x s).clk = s.clk := (rfl)
@[simp] theorem setRun_fresh (n : Nat) (x : LaceRun) (s : State) : (setRun n x s).fresh = s.fresh := (rfl)
@[simp] theorem setRun_out (n : Nat) (x : LaceRun) (s : State) : (setRun n x s).out = s.out := (rfl)
@[simp] theorem setRun_pending (n : Nat) (x : LaceRun) (s : State) : (setRun n x s).pending = s.pending := (rfl)

/-! setCell. -/

@[simp] theorem setCell_glb (n : Nat) (x : Cell) (s : State) : (setCell n x s).glb = s.glb := (rfl)
@[simp] theorem setCell_mbx (n : Nat) (x : Cell) (s : State) : (setCell n x s).mbx = s.mbx := (rfl)
@[simp] theorem setCell_irq (n : Nat) (x : Cell) (s : State) : (setCell n x s).irq = s.irq := (rfl)
@[simp] theorem setCell_bar2 (n : Nat) (x : Cell) (s : State) : (setCell n x s).bar2 = s.bar2 := (rfl)
@[simp] theorem setCell_tmu (n : Nat) (x : Cell) (s : State) : (setCell n x s).tmu = s.tmu := (rfl)
@[simp] theorem setCell_sched (n : Nat) (x : Cell) (s : State) : (setCell n x s).sched = s.sched := (rfl)
@[simp] theorem setCell_tpm (n : Nat) (x : Cell) (s : State) : (setCell n x s).tpm = s.tpm := (rfl)
@[simp] theorem setCell_cvus (n : Nat) (x : Cell) (s : State) : (setCell n x s).cvus = s.cvus := (rfl)
@[simp] theorem setCell_log (n : Nat) (x : Cell) (s : State) : (setCell n x s).log = s.log := (rfl)
@[simp] theorem setCell_power (n : Nat) (x : Cell) (s : State) : (setCell n x s).power = s.power := (rfl)
@[simp] theorem setCell_fw (n : Nat) (x : Cell) (s : State) : (setCell n x s).fw = s.fw := (rfl)
@[simp] theorem setCell_jobs (n : Nat) (x : Cell) (s : State) : (setCell n x s).jobs = s.jobs := (rfl)
@[simp] theorem setCell_tiles (n : Nat) (x : Cell) (s : State) : (setCell n x s).tiles = s.tiles := (rfl)
@[simp] theorem setCell_stitch (n : Nat) (x : Cell) (s : State) : (setCell n x s).stitch = s.stitch := (rfl)
@[simp] theorem setCell_mem (n : Nat) (x : Cell) (s : State) : (setCell n x s).mem = s.mem := (rfl)
@[simp] theorem setCell_place (n : Nat) (x : Cell) (s : State) : (setCell n x s).place = s.place := (rfl)
@[simp] theorem setCell_fabric (n : Nat) (x : Cell) (s : State) : (setCell n x s).fabric = s.fabric := (rfl)
@[simp] theorem setCell_welt (n : Nat) (x : Cell) (s : State) : (setCell n x s).welt = s.welt := (rfl)
@[simp] theorem setCell_mon (n : Nat) (x : Cell) (s : State) : (setCell n x s).mon = s.mon := (rfl)
@[simp] theorem setCell_resil (n : Nat) (x : Cell) (s : State) : (setCell n x s).resil = s.resil := (rfl)
@[simp] theorem setCell_clk (n : Nat) (x : Cell) (s : State) : (setCell n x s).clk = s.clk := (rfl)
@[simp] theorem setCell_fresh (n : Nat) (x : Cell) (s : State) : (setCell n x s).fresh = s.fresh := (rfl)
@[simp] theorem setCell_out (n : Nat) (x : Cell) (s : State) : (setCell n x s).out = s.out := (rfl)
@[simp] theorem setCell_pending (n : Nat) (x : Cell) (s : State) : (setCell n x s).pending = s.pending := (rfl)

/-! setPlane. -/

@[simp] theorem setPlane_glb (n : Nat) (x : Plane) (s : State) : (setPlane n x s).glb = s.glb := (rfl)
@[simp] theorem setPlane_mbx (n : Nat) (x : Plane) (s : State) : (setPlane n x s).mbx = s.mbx := (rfl)
@[simp] theorem setPlane_irq (n : Nat) (x : Plane) (s : State) : (setPlane n x s).irq = s.irq := (rfl)
@[simp] theorem setPlane_bar2 (n : Nat) (x : Plane) (s : State) : (setPlane n x s).bar2 = s.bar2 := (rfl)
@[simp] theorem setPlane_tmu (n : Nat) (x : Plane) (s : State) : (setPlane n x s).tmu = s.tmu := (rfl)
@[simp] theorem setPlane_sched (n : Nat) (x : Plane) (s : State) : (setPlane n x s).sched = s.sched := (rfl)
@[simp] theorem setPlane_tpm (n : Nat) (x : Plane) (s : State) : (setPlane n x s).tpm = s.tpm := (rfl)
@[simp] theorem setPlane_cvus (n : Nat) (x : Plane) (s : State) : (setPlane n x s).cvus = s.cvus := (rfl)
@[simp] theorem setPlane_log (n : Nat) (x : Plane) (s : State) : (setPlane n x s).log = s.log := (rfl)
@[simp] theorem setPlane_power (n : Nat) (x : Plane) (s : State) : (setPlane n x s).power = s.power := (rfl)
@[simp] theorem setPlane_fw (n : Nat) (x : Plane) (s : State) : (setPlane n x s).fw = s.fw := (rfl)
@[simp] theorem setPlane_jobs (n : Nat) (x : Plane) (s : State) : (setPlane n x s).jobs = s.jobs := (rfl)
@[simp] theorem setPlane_tiles (n : Nat) (x : Plane) (s : State) : (setPlane n x s).tiles = s.tiles := (rfl)
@[simp] theorem setPlane_stitch (n : Nat) (x : Plane) (s : State) : (setPlane n x s).stitch = s.stitch := (rfl)
@[simp] theorem setPlane_mem (n : Nat) (x : Plane) (s : State) : (setPlane n x s).mem = s.mem := (rfl)
@[simp] theorem setPlane_place (n : Nat) (x : Plane) (s : State) : (setPlane n x s).place = s.place := (rfl)
@[simp] theorem setPlane_fabric (n : Nat) (x : Plane) (s : State) : (setPlane n x s).fabric = s.fabric := (rfl)
@[simp] theorem setPlane_welt (n : Nat) (x : Plane) (s : State) : (setPlane n x s).welt = s.welt := (rfl)
@[simp] theorem setPlane_mon (n : Nat) (x : Plane) (s : State) : (setPlane n x s).mon = s.mon := (rfl)
@[simp] theorem setPlane_resil (n : Nat) (x : Plane) (s : State) : (setPlane n x s).resil = s.resil := (rfl)
@[simp] theorem setPlane_clk (n : Nat) (x : Plane) (s : State) : (setPlane n x s).clk = s.clk := (rfl)
@[simp] theorem setPlane_fresh (n : Nat) (x : Plane) (s : State) : (setPlane n x s).fresh = s.fresh := (rfl)
@[simp] theorem setPlane_out (n : Nat) (x : Plane) (s : State) : (setPlane n x s).out = s.out := (rfl)
@[simp] theorem setPlane_pending (n : Nat) (x : Plane) (s : State) : (setPlane n x s).pending = s.pending := (rfl)

/-! Reading back. -/

@[simp] theorem unitOf_setUnit_same (n : Nat) (x : FUnit) (s : State) : unitOf (setUnit n x s) n = x := by
  simp [unitOf, setUnit]

@[simp] theorem unitOf_setUnit_other {n m : Nat} (x : FUnit) (s : State) (h : m ≠ n) : unitOf (setUnit n x s) m = unitOf s m := by
  simp [unitOf, setUnit, h]

@[simp] theorem laneOf_setLane_same (n : Nat) (x : Lane) (s : State) : laneOf (setLane n x s) n = x := by
  simp [laneOf, setLane]

@[simp] theorem laneOf_setLane_other {n m : Nat} (x : Lane) (s : State) (h : m ≠ n) : laneOf (setLane n x s) m = laneOf s m := by
  simp [laneOf, setLane, h]

@[simp] theorem frontOf_setFront_same (n : Nat) (x : Front) (s : State) : frontOf n (setFront n x s) = x := by
  simp [frontOf, setFront]

@[simp] theorem frontOf_setFront_other {n m : Nat} (x : Front) (s : State) (h : m ≠ n) : frontOf m (setFront n x s) = frontOf m s := by
  simp [frontOf, setFront, h]

@[simp] theorem runOf_setRun_same (n : Nat) (x : LaceRun) (s : State) : runOf (setRun n x s) n = x := by
  simp [runOf, setRun]

@[simp] theorem runOf_setRun_other {n m : Nat} (x : LaceRun) (s : State) (h : m ≠ n) : runOf (setRun n x s) m = runOf s m := by
  simp [runOf, setRun, h]

@[simp] theorem cellOf_setCell_same (n : Nat) (x : Cell) (s : State) : cellOf (setCell n x s) n = x := by
  simp [cellOf, setCell]

@[simp] theorem cellOf_setCell_other {n m : Nat} (x : Cell) (s : State) (h : m ≠ n) : cellOf (setCell n x s) m = cellOf s m := by
  simp [cellOf, setCell, h]

@[simp] theorem planeOf_setPlane_same (n : Nat) (x : Plane) (s : State) : planeOf (setPlane n x s) n = x := by
  simp [planeOf, setPlane]

@[simp] theorem planeOf_setPlane_other {n m : Nat} (x : Plane) (s : State) (h : m ≠ n) : planeOf (setPlane n x s) m = planeOf s m := by
  simp [planeOf, setPlane, h]

end Sys2Proof.Machine
end

