-- ==== Sys2Proof/Laws/Frame.lean ====
section
/-! SUPPORT. What the operations that store leave alone: every byte outside the ranges that they name, and the
    tern_inv
flag that a step decodes. -/

namespace Sys2Proof

open Machine

theorem KeepsOutside.refl (a d : List (Nat × Nat)) (s : State) : KeepsOutside a d s s := ⟨fun _ _ => rfl, fun _ _ =>
    rfl⟩

theorem KeepsOutside.trans {a d : List (Nat × Nat)} {s t u : State} (h : KeepsOutside a d s t) (g : KeepsOutside a d
    t u) :
    KeepsOutside a d s u := ⟨fun x hx => (g.1 x hx).trans (h.1 x hx), fun x hx => (g.2 x hx).trans (h.2 x hx)⟩

theorem keeps_quiet {a d : List (Nat × Nat)} {s t : State} (h : quietOf t = quietOf s) : KeepsOutside a d s t := by
  have h1 : t.mem.sram = s.mem.sram := congrArg (·.1) h
  have h2 : t.mem.dram = s.mem.dram := congrArg (·.2.1) h
  exact ⟨fun _ _ => by rw [h1], fun _ _ => by rw [h2]⟩

theorem KeepsOutside.mono {a d b e : List (Nat × Nat)} {s t : State} (h : KeepsOutside a d s t) (ha : ∀ x ∈ a, x ∈ b)
    (hd : ∀ x ∈ d, x ∈ e) : KeepsOutside b e s t :=
  ⟨fun x hx => h.1 x (fun q hq => hx q (ha q hq)), fun x hx => h.2 x (fun q hq => hx q (hd q hq))⟩

theorem keeps_forAll {β : Type} {a d : List (Nat × Nat)} (f : β → State → State) (l : List β)
    (h : ∀ x ∈ l, ∀ s, KeepsOutside a d s (f x s)) (s : State) : KeepsOutside a d s (forAll l f s) := by
  induction l generalizing s with
  | nil => exact .refl _ _ _
  | cons x l ih => exact (h x (by simp) s).trans (ih (fun y hy => h y (by simp [hy])) (f x s))

theorem keeps_sramWrite (t off n : Nat) (bs : List Byte) (s : State) (a d : List (Nat × Nat)) (hn : bs.length ≤ n)
    (h : (sramAddr t off, n) ∈ a) : KeepsOutside a d s (sramWrite t off bs s) := by
  refine ⟨fun x hx => ?_, fun x hx => rfl⟩
  refine readByte_writeBytes_other _ _ _ ?_
  have := hx _ h
  dsimp only at this
  omega

theorem keeps_lineStore (c line : Nat) (bs : List Byte) (s : State) (a d : List (Nat × Nat)) (hl : bs.length = 64)
    (h : (dramAddr c (64 * line), 64) ∈ d) : KeepsOutside a d s (lineStore c line bs s) := by
  refine ⟨fun x hx => rfl, fun x hx => ?_⟩
  refine readByte_writeBytes_other _ _ _ ?_
  rw [hl]
  exact hx _ h

theorem lineFound_q (c line : Nat) (s : State) : quietOf (lineFound c line s) = quietOf s := rfl

theorem keeps_linePrepare (c w a0 n line : Nat) (s : State) (a d : List (Nat × Nat))
    (h : (dramAddr c (64 * line), 64) ∈ d) : KeepsOutside a d s (linePrepare c w a0 n line s) := by
  have hb : (dramBytes c (64 * line) 64 s).length = 64 := by unfold dramBytes; simp
  have hg : ∀ s', quietOf s' = quietOf s → KeepsOutside a d s (lineFound c line (lineStore c line (dramBytes c (64 *
      line) 64 s) s')) := by
    intro s' hs
    exact (keeps_quiet hs).trans ((keeps_lineStore c line _ s' a d hb h).trans (keeps_quiet (lineFound_q _ _ _)))
  unfold linePrepare
  dsimp only
  split
  · exact keeps_quiet rfl
  · split
    · exact keeps_quiet rfl
    · exact hg _ rfl
    · exact hg _ (by simp)
    · refine keeps_quiet ?_
      rw [raiseLimited_quiet]
      rfl

theorem mem_linesOf {a n m k : Nat} (h : k ∈ linesOf a m) (hm : m ≤ n) : k ∈ linesOf a n := by
  unfold linesOf at *
  split at h
  · cases h
  · rw [if_neg (by omega)]
    rw [List.mem_map] at *
    obtain ⟨i, hi, rfl⟩ := h
    rw [List.mem_range] at hi
    refine ⟨i, ?_, rfl⟩
    rw [List.mem_range]
    have : (a + m - 1) / 64 ≤ (a + n - 1) / 64 := Nat.div_le_div_right (by omega)
    omega

theorem outside_lines {c a n x : Nat} (hx : Outside (pieceLines [(c, a, n)]) x) (hn : n ≠ 0) :
    x < dramAddr c a ∨ dramAddr c a + n ≤ x := by
  by_cases h1 : x < dramAddr c a
  · exact .inl h1
  by_cases h2 : dramAddr c a + n ≤ x
  · exact .inr h2
  exfalso
  unfold dramAddr at h1 h2
  have hk : ((x - c * 2 ^ 38) / 64) ∈ linesOf a n := by
    unfold linesOf
    rw [if_neg hn, List.mem_map]
    refine ⟨(x - c * 2 ^ 38) / 64 - a / 64, ?_, ?_⟩
    · rw [List.mem_range]
      have : (x - c * 2 ^ 38) / 64 ≤ (a + n - 1) / 64 := Nat.div_le_div_right (by omega)
      omega
    · have : a / 64 ≤ (x - c * 2 ^ 38) / 64 := Nat.div_le_div_right (by omega)
      omega
  have := hx (dramAddr c (64 * ((x - c * 2 ^ 38) / 64)), 64) (by
    unfold pieceLines
    rw [List.mem_flatMap]
    exact ⟨(c, a, n), by simp, List.mem_map.mpr ⟨_, hk, rfl⟩⟩)
  unfold dramAddr at this
  dsimp only at this
  omega

theorem keeps_dramWrite (mark : Bool) (w c a0 : Nat) (bs : List Byte) (n : Nat) (s : State) (a d : List (Nat × Nat))
    (hn : bs.length ≤ n) (h : ∀ q ∈ pieceLines [(c, a0, n)], q ∈ d) : KeepsOutside a d s (dramWrite mark w c a0 bs
        s) := by
  have hmem : ∀ k ∈ linesOf a0 bs.length, (dramAddr c (64 * k), 64) ∈ d := by
    intro k hk
    apply h
    unfold pieceLines
    simp only [List.flatMap_cons, List.flatMap_nil, List.append_nil, List.mem_map]
    exact ⟨k, mem_linesOf hk hn, rfl⟩
  have h1 := keeps_forAll (a := a) (d := d) (linePrepare c w a0 bs.length) (linesOf a0 bs.length)
    (fun k hk u => keeps_linePrepare c w a0 _ k u a d (hmem k hk)) s
  have h2 : ∀ u : State, KeepsOutside a d u { u with mem.dram := writeBytes u.mem.dram (dramAddr c a0) bs } := by
    intro u
    refine ⟨fun _ _ => rfl, fun x hx => ?_⟩
    refine readByte_writeBytes_other _ _ _ ?_
    by_cases h0 : bs.length = 0
    · omega
    · refine outside_lines (c := c) (a := a0) (n := bs.length) (fun q hq => hx q ?_) h0
      unfold pieceLines at hq
      simp only [List.flatMap_cons, List.flatMap_nil, List.append_nil, List.mem_map] at hq
      obtain ⟨k, hk, rfl⟩ := hq
      exact hmem k hk
  unfold dramWrite
  dsimp only
  split
  · exact (h1.trans (h2 _)).trans (keeps_quiet (by simp))
  · exact h1.trans (h2 _)

theorem keeps_piecesWrite (mark : Bool) (w : Nat) (l : List (Nat × Nat × Nat)) (bs : List Byte) (s : State) (a d :
    List (Nat × Nat))
    (h : ∀ q ∈ pieceLines l, q ∈ d) : KeepsOutside a d s (piecesWrite mark w l bs s) := by
  induction l generalizing bs s with
  | nil => exact .refl _ _ _
  | cons p l ih =>
    unfold piecesWrite
    refine (keeps_dramWrite mark w p.1 p.2.1 (bs.take p.2.2) p.2.2 s a d (by rw [List.length_take]; omega) (fun q
        hq => h q ?_)).trans
      (ih _ _ (fun q hq => h q ?_))
    · unfold pieceLines at *
      simp only [List.flatMap_cons, List.flatMap_nil, List.append_nil] at *
      exact List.mem_append_left _ hq
    · unfold pieceLines at *
      simp only [List.flatMap_cons] at *
      exact List.mem_append_right _ hq

theorem keeps_hitWrite (pl : Place0) (bs : List Byte) (s : State) :
    KeepsOutside (storedSram bs.length pl) (storedDram pl) s (hitWrite pl bs s) := by
  cases pl with
  | dram l => exact (keeps_quiet (by simp)).trans (keeps_piecesWrite _ _ l bs _ _ _ (fun q hq => hq))
  | sram t off => exact keeps_sramWrite t off _ bs s _ _ (Nat.le_refl _) (by simp [storedSram, tileRanges])
  | tally t n => exact .refl _ _ _
  | yarler off => exact .refl _ _ _

theorem keeps_winWrite (w : HeldBar2) (s : State) :
    (∀ pl pa jk, mapHit w.map w.off w.bytes.length true s = .at pl pa jk → KeepsOutside (storedSram w.bytes.length
        pl) (storedDram pl) s (winWrite w s)) ∧
    (∀ c, mapHit w.map w.off w.bytes.length true s = .no c → KeepsOutside [] [] s (winWrite w s)) := by
  refine ⟨fun pl pa jk h => ?_, fun c h => ?_⟩
  · unfold winWrite
    rw [h]
    dsimp only
    split
    · exact keeps_quiet (by simp)
    split
    · exact keeps_quiet rfl
    · refine KeepsOutside.trans (t := trackWrite pa w.bytes.length (match w.wait with
          | some (k, t) => holdEnded k t s
          | none => s)) (keeps_quiet ?_) (keeps_hitWrite _ _ _)
      cases w.wait <;> simp
  · unfold winWrite
    rw [h]
    exact keeps_quiet (by simp)

theorem leBytes_length (x n : Nat) : (leBytes x n).length = n := by
  induction n generalizing x with
  | zero => rfl
  | succ n ih => simp [leBytes, ih]

theorem atomicBytes_length (op k : Nat) (n : Nat) (old new : List Byte) : (atomicBytes op k n old new).length = n *
    k := by
  induction n generalizing old new with
  | zero => simp [atomicBytes]
  | succ n ih => simp [atomicBytes, ih, leBytes_length, Nat.succ_mul, Nat.add_comm]

theorem keeps_placeWrite (q : Request) (pl : Place0) (bs : List Byte) (s : State) (hn : bs.length ≤ q.n) :
    KeepsOutside (storedSram q.n pl) (storedDram pl) s (placeWrite q pl bs s) := by
  cases pl with
  | dram l => exact keeps_piecesWrite _ _ l bs _ _ _ (fun q hq => hq)
  | sram t off => exact keeps_sramWrite t off q.n bs s _ _ hn (by simp [storedSram, tileRanges])
  | tally t n => exact .refl _ _ _
  | yarler off => exact .refl _ _ _

theorem placeTouch_q (q : Request) (pl : Place0) (s : State) : quietOf (placeTouch q pl s) = quietOf s := by
  cases pl <;> simp [placeTouch]

theorem keeps_applyRequest (p : Pkt) (q : Request) (pl : Place0) (s : State) (hb : badSpace q = false) :
    KeepsOutside (storedSram q.n pl) (storedDram pl) s (applyRequest p q pl s) := by
  have hlen : (q.op = 1 ∨ q.op = 2) → q.payload.length ≤ q.n := by
    intro ho
    unfold badSpace at hb
    simp only [Bool.or_eq_false_iff, decide_eq_false_iff_not, Decidable.not_not] at hb
    rw [hb.1.1.1.2]
    have hp : isPlainAtomic q.op = false := by rcases ho with h | h <;> simp [isPlainAtomic, h]
    have hf : isFetching q.op = false := by rcases ho with h | h <;> simp [isFetching, h]
    rw [hp, hf]
    split
    · exact Nat.le_refl _
    · rw [if_neg (by rcases ho with h | h <;> simp [h])]
      simp
  have hw : ∀ (bs : List Byte) (u : State), bs.length ≤ q.n →
      KeepsOutside (storedSram q.n pl) (storedDram pl) u (placeWrite q pl bs (trackWrite q.dest q.n u)) := by
    intro bs u hn
    exact (keeps_quiet (by simp)).trans (keeps_placeWrite q pl bs _ hn)
  have key : ∀ k, k = elemSize q.op → KeepsOutside (storedSram q.n pl) (storedDram pl) s
      (if q.op = 1 || q.op = 2 then respond p q 0 [] (sawSeal q (placeWrite q pl q.payload (trackWrite q.dest q.n s)))
    else if placeUe q pl s then refuse p q 2 (placeTouch q pl s)
    else
      let old := placeBytes q pl s
      let s := placeTouch q pl s
      if q.op = 3 then respond p q 0 old s
      else if isPlainAtomic q.op then
        respond p q 0 [] (placeWrite q pl (atomicBytes q.op k (q.n / k) old q.payload) (trackWrite q.dest q.n s))
      else
        let new := fetchingAtomic q.op (leNat old) (leNat (q.payload.take k)) (leNat (q.payload.drop k))
        respond p q 0 old (placeWrite q pl (leBytes new k) (trackWrite q.dest q.n s))) := by
    intro k hk
    have ht : KeepsOutside (storedSram q.n pl) (storedDram pl) s (placeTouch q pl s) := keeps_quiet (placeTouch_q _
        _ _)
    split
    · rename_i ho
      exact (hw _ _ (hlen (by simpa using ho))).trans (keeps_quiet (by simp))
    split
    · exact keeps_quiet (by rw [refuse_quiet, placeTouch_q])
    dsimp only
    split
    · exact keeps_quiet (by rw [respond_quiet, placeTouch_q])
    split
    · refine (ht.trans (hw (atomicBytes q.op k (q.n / k) (placeBytes q pl s) q.payload) _ ?_)).trans (keeps_quiet
        (by simp))
      rw [atomicBytes_length]
      exact Nat.div_mul_le_self _ _
    · rename_i h1 h2 h3 h4
      refine (ht.trans (hw (leBytes (fetchingAtomic q.op (leNat (placeBytes q pl s)) (leNat (q.payload.take k))
          (leNat (q.payload.drop k))) k) _ ?_)).trans (keeps_quiet (by simp))
      rw [leBytes_length, hk]
      unfold badSpace at hb
      simp only [Bool.or_eq_false_iff, decide_eq_false_iff_not, Decidable.not_not] at hb
      by_cases hf : isFetching q.op = true
      · have := hb.1.1.2
        rw [hf] at this
        simp at this
        omega
      · have h0 : elemSize q.op = 0 := by
          simp only [isFetching, isPlainAtomic, Bool.and_eq_true, decide_eq_true_eq] at hf h4
          simp only [Bool.or_eq_true, decide_eq_true_eq] at h1
          unfold elemSize
          simp only [Bool.or_eq_true, Bool.and_eq_true, decide_eq_true_eq]
          repeat' split
          all_goals omega
        omega
  cases pl with
  | tally t n => exact keeps_quiet (by simp [applyRequest])
  | dram l => exact key _ rfl
  | sram t off => exact key _ rfl
  | yarler off => exact key _ rfl

theorem keeps_applyPiece (q : Request) (x : Nat × Nat × Nat × Nat) (s : State) (a d : List (Nat × Nat))
    (h : ∀ r ∈ pieceLines [x.2], r ∈ d) : KeepsOutside a d s (applyPiece q x s) := by
  have hp : ∀ m bs u, KeepsOutside a d u (piecesWrite m readerAnswer [x.2] bs u) := fun m bs u => keeps_piecesWrite
      m _ _ bs u a d h
  unfold applyPiece
  dsimp only
  split
  · exact (keeps_quiet (by simp)).trans (hp _ _ _)
  · exact (keeps_quiet (by simp)).trans (hp _ _ _)

theorem pieceOffsets_mem (k : Nat) (l : List (Nat × Nat × Nat)) : ∀ x ∈ pieceOffsets k l, x.2 ∈ l := by
  induction l generalizing k with
  | nil => intro x h; cases h
  | cons p l ih =>
    intro x h
    unfold pieceOffsets at h
    rcases List.mem_cons.mp h with h | h
    · subst h; simp
    · exact List.mem_cons_of_mem _ (ih _ x h)

theorem keeps_performPieces (p : Pkt) (q : Request) (l : List (Nat × Nat × Nat)) (left : List Nat) (at0 no : Nat) (s
    : State)
    (hb : badSpace q = false) : KeepsOutside (storedSram q.n (.dram l)) (storedDram (.dram l)) s (performPieces p q
        l left at0 no s) := by
  have hmem : ∀ x ∈ (left.filterMap (fun i => ((pieceOffsets 0 l)[i]?).map (fun x => (i, x)))).filter (fun x =>
      !pieceWaits x.2 s),
      ∀ r ∈ pieceLines [x.2.2], r ∈ storedDram (.dram l) := by
    intro x hx r hr
    rw [List.mem_filter, List.mem_filterMap] at hx
    obtain ⟨⟨i, -, hi⟩, -⟩ := hx
    rw [Option.map_eq_some_iff] at hi
    obtain ⟨y, hy, rfl⟩ := hi
    have := pieceOffsets_mem 0 l y (List.mem_of_getElem? hy)
    unfold storedDram pieceLines at *
    simp only [List.flatMap_cons, List.flatMap_nil, List.append_nil, List.mem_flatMap] at *
    exact ⟨_, this, hr⟩
  unfold performPieces
  dsimp only
  split
  · exact (keeps_quiet (by simp)).trans (keeps_applyRequest p q _ _ hb)
  split
  · exact keeps_quiet (by simp)
  · generalize hg : (left.filterMap (fun i => ((pieceOffsets 0 l)[i]?).map (fun x => (i, x)))).filter (fun x =>
      !pieceWaits x.2 s) = go at hmem
    generalize hu : forAll go (fun x => holdEnded (piecePage x.2) at0) s = u
    have h1 : KeepsOutside (storedSram q.n (.dram l)) (storedDram (.dram l)) s u := keeps_quiet (by rw [← hu]; simp)
    have h2 := keeps_forAll (a := storedSram q.n (.dram l)) (d := storedDram (.dram l)) (fun x => applyPiece q x.2) go
      (fun x hx u => keeps_applyPiece q x.2 u _ _ (hmem x hx)) u
    split
    · exact (h1.trans h2).trans (keeps_quiet (by simp))
    · exact (h1.trans h2).trans (keeps_quiet (by simp))

theorem keeps_holdRequest (p : Pkt) (q : Request) (pl : Place0) (s : State) (hb : badSpace q = false) :
    KeepsOutside (storedSram q.n pl) (storedDram pl) s (holdRequest p q pl s) := by
  cases pl with
  | dram l =>
    unfold holdRequest
    have h0 : KeepsOutside (storedSram q.n (.dram l)) (storedDram (.dram l)) s { s with bar2.writes := s.bar2.writes
        + 1 } :=
      ⟨fun _ _ => rfl, fun _ _ => rfl⟩
    exact h0.trans (keeps_performPieces _ _ l _ _ _ _ hb)
  | sram t off => exact .refl _ _ _
  | tally t n => exact .refl _ _ _
  | yarler off => exact .refl _ _ _

theorem keeps_serveRequest (p : Pkt) (q : Request) (hq : q = readRequest p.bytes) (s : State) :
    (∀ pl, boundPlace p q s = some pl → KeepsOutside (storedSram q.n pl) (storedDram pl) s (serveRequest p s)) ∧
    (boundPlace p q s = none → KeepsOutside [] [] s (serveRequest p s)) := by
  unfold serveRequest
  rw [← hq]
  dsimp only
  clear hq
  have hr : ∀ a d c, KeepsOutside a d s (refuse p q c s) := fun a d c => keeps_quiet (refuse_quiet _ _ _ _)
  refine ⟨fun pl h => ?_, fun h => ?_⟩
  · split
    · exact hr _ _ _
    split
    · exact hr _ _ _
    rename_i hb
    have hb : badSpace q = false := by simpa using hb
    rw [h]
    dsimp only
    split
    · exact keeps_holdRequest p q pl s hb
    · exact keeps_applyRequest p q pl s hb
  · split
    · exact hr _ _ _
    split
    · exact hr _ _ _
    · rw [h]
      exact hr _ _ _

theorem keeps_fenceAct (t bits line : Nat) (s : State) :
    KeepsOutside (if bits / 8 % 2 = 1 then tileRanges t [(64 * line, 64)] else []) [] s (fenceAct t bits line s) := by
  unfold fenceAct
  dsimp only
  by_cases h : bits / 8 % 2 = 1
  · rw [if_pos h, if_pos h]
    refine KeepsOutside.trans (keeps_sramWrite t (64 * line) 64 (leBytes (tileFlags (tileOf s t)) 64) _ _ _
        (Nat.le_of_eq (leBytes_length _ _)) (by simp [tileRanges])) (keeps_quiet ?_)
    split <;> simp
  · rw [if_neg h, if_neg h]
    refine keeps_quiet ?_
    split <;> simp

theorem keeps_stepWrite (t off : Nat) (ins : List (Nat × Nat)) (bs : List Byte) (n : Nat) (s : State) (a d : List
    (Nat × Nat))
    (hn : bs.length ≤ n) (h : (sramAddr t off, n) ∈ a) : KeepsOutside a d s (stepWrite t off ins bs s) :=
  keeps_sramWrite t off n _ s a d (by simpa using hn) h

theorem outRow_length (m : MatStep) (mult : Val) (l : List Word) (a : Arith) : (outRow m mult l a).1.length =
    l.length := by
  induction l generalizing a with
  | nil => rfl
  | cons x l ih => simp [outRow, ih]

theorem packBits_length (w : Nat) (l : List Nat) : (packBits w l).length = (l.length * w + 7) / 8 := leBytes_length
    _ _

theorem keeps_matRun (t : Nat) (m : MatStep) (p : MatPlaces) (s : State) :
    KeepsOutside (tileRanges t (matOuts m p)) [] s (matRun t m p s) := by
  have hfold : ∀ (ins : List (Nat × Nat)) (mult : Val) (f : Nat → List Word) (L : List Nat) (q : State × Arith),
      (∀ i, (f i).length = 128) →
      (∀ i ∈ L, (sramAddr t (p.o.toNat + i * m.oPitch), 16 * widthOf m.outFmt) ∈ tileRanges t (matOuts m p)) →
      KeepsOutside (tileRanges t (matOuts m p)) [] q.1 (L.foldl (fun (q : State × Arith) i =>
        let o := outRow m mult (f i) q.2
        (stepWrite t (p.o.toNat + i * m.oPitch) ins (packBits (widthOf m.outFmt) o.1) q.1, o.2)) q).1 := by
    intro ins mult f L q hf hL
    induction L generalizing q with
    | nil => exact .refl _ _ _
    | cons i L ih =>
      refine KeepsOutside.trans ?_ (ih _ (fun j hj => hL j (by simp [hj])))
      refine keeps_stepWrite t _ ins _ (16 * widthOf m.outFmt) _ _ _ ?_ (hL i (by simp))
      rw [packBits_length, outRow_length, hf]
      omega
  unfold matRun
  dsimp only
  split
  · rename_i he
    generalize matEntries m _ _ _ _ _ _ = e
    generalize hu : modTile t _ (stepTouch t (matIns m p) s) = u
    have h1 : KeepsOutside (tileRanges t (matOuts m p)) [] s u := keeps_quiet (by rw [← hu]; simp)
    refine (h1.trans (hfold _ _ (fun i => (List.range 128).map (fun n => (nth (0, 0) e.1 (128 * i + n)).2))
        (List.range m.M) (u, e.2) ?_ ?_)).trans (keeps_quiet (keepArith_quiet _ _ _))
    · intro i; simp
    · intro i hi
      unfold tileRanges matOuts
      rw [if_pos he, List.mem_map]
      exact ⟨(p.o.toNat + i * m.oPitch, 16 * widthOf m.outFmt), List.mem_map.mpr ⟨i, hi, rfl⟩, rfl⟩
  · exact keeps_quiet (by simp)

/-! VECTOR. -/

theorem convElems_length (fmt : Nat) (stoch : Bool) (l : List Val) (a : Arith) : (convElems fmt stoch l a).1.length
    = l.length := by
  induction l generalizing a with
  | nil => rfl
  | cons x l ih => simp [convElems, ih]

theorem quantMxBlock_length (fmt : Nat) (stoch : Bool) (l : List Word) (a : Arith) : (quantMxBlock fmt stoch l
    a).2.1.length = l.length := by
  unfold quantMxBlock
  dsimp only
  split
  · simp
  split
  · simp
  · simp [convElems_length]

theorem quantFineBlock_length (fmt : Nat) (stoch : Bool) (S : Word) (l : List Word) (a : Arith) : (quantFineBlock
    fmt stoch S l a).2.1.length = l.length := by
  unfold quantFineBlock
  dsimp only
  split
  · simp
  · simp [convElems_length]

theorem quantTernRow_length (tau : Word) (l : List Word) (a : Arith) : (quantTernRow tau l a).1.length = 32 := by
  unfold quantTernRow
  simp [leBytes_length]

theorem quantBlocks_length (f : List Word → Arith → Nat × List Nat × Arith) (hf : ∀ l a, (f l a).2.1.length =
    l.length)
    (L : List (List Word)) (a : Arith) :
    (quantBlocks f L a).1.length = L.length ∧ (quantBlocks f L a).2.1.length = (L.map List.length).sum := by
  induction L generalizing a with
  | nil => exact ⟨rfl, rfl⟩
  | cons b L ih =>
    unfold quantBlocks
    dsimp only
    refine ⟨by simp [(ih _).1], ?_⟩
    rw [List.length_append, hf, (ih _).2]
    simp

theorem quantRows_length (tau : Word) (L : List (List Word)) (a : Arith) : (quantRows tau L a).1.length = 32 *
    L.length := by
  induction L generalizing a with
  | nil => rfl
  | cons b L ih => simp [quantRows, ih, quantTernRow_length]; omega

theorem piecesOf_length {α : Type} (k : Nat) (l : List α) : (piecesOf k l).length = (l.length + k - 1) / k := by
    simp [piecesOf]

theorem piecesOf_sum {α : Type} (k : Nat) (hk : 0 < k) (l : List α) : ((piecesOf k l).map List.length).sum ≤
    l.length := by
  have key : ∀ m, ((List.range m).map (fun i => ((l.drop (k * i)).take k).length)).sum = min l.length (k * m) := by
    intro m
    induction m with
    | zero => simp
    | succ m ih =>
      rw [List.range_succ, List.map_append, List.sum_append, ih]
      simp [Nat.mul_succ]
      omega
  unfold piecesOf
  rw [List.map_map]
  have := key ((l.length + k - 1) / k)
  simp only [Function.comp_def]
  omega

theorem vecLoad_length (t : Nat) (v : VecStep) (param : List Word) (o : VecOperand) (s : State) : (vecLoad t v param
    o s).length = v.n := by
  unfold vecLoad
  split <;> simp

theorem wordsBytes_length (l : List Word) : (wordsBytes l).length = 4 * l.length := by
  induction l with
  | nil => rfl
  | cons w l ih =>
    unfold wordsBytes at *
    rw [List.flatMap_cons, List.length_append, ih]
    simp [wordBytes, leBytes_length]
    omega

theorem vecResult_length (v : VecStep) (param : List Word) (a b c : List Word) (ar : Arith) (hf : v.out.fmt = 11 ↔
    v.op = 0x29)
    (h0 : v.out.sel = 0) (ha : a.length = v.n) (hb : b.length = v.n) (hc : c.length = v.n) :
    (vecResult v param a b c ar).elems.length ≤ vecBytes v.out.fmt v.outs ∧
    (vecScalesOut v.op = true → (vecResult v param a b c ar).scales.length = (v.n + blockSize v.mode - 1) /
        blockSize v.mode) := by
  have hs : 0 < blockSize v.mode := by unfold blockSize; split <;> omega
  have hn : ∀ m, m ≤ v.outs → v.op ≠ 0x29 → (m * widthOf v.out.fmt + 7) / 8 ≤ vecBytes v.out.fmt v.outs := by
    intro m hm ho
    unfold vecBytes
    rw [if_neg (fun h => ho (hf.mp h))]
    exact Nat.div_le_div_right (Nat.add_le_add_right (Nat.mul_le_mul_right _ hm) _)
  unfold vecResult
  split
  · rename_i ho
    have hr : v.outs = v.n := by
      unfold VecStep.outs
      rw [if_neg]
      simp only [Bool.or_eq_true, decide_eq_true_eq] at ho
      unfold vecReduces
      simp only [Bool.and_eq_true, decide_eq_true_eq]
      omega
    have hq := quantBlocks_length (if v.op = 0x27 then quantMxBlock v.out.fmt v.stoch else quantFineBlock v.out.fmt
        v.stoch (nth 0 param 0))
      (by
        intro l a
        split
        · exact quantMxBlock_length _ _ _ _
        · exact quantFineBlock_length _ _ _ _ _) (piecesOf (blockSize v.mode) a) ar
    refine ⟨?_, fun _ => ?_⟩
    · dsimp only
      rw [packBits_length, hq.2]
      refine hn _ ?_ ?_
      · rw [hr, ← ha]; exact piecesOf_sum _ hs _
      · simp only [Bool.or_eq_true, decide_eq_true_eq] at ho; omega
    · dsimp only
      rw [List.length_map, hq.1, piecesOf_length, ha]
  · rename_i ho
    have hso : vecScalesOut v.op = false := by simpa [vecScalesOut] using ho
    refine ⟨?_, fun h => by rw [hso] at h; cases h⟩
    by_cases h29 : v.op = 0x29
    · rw [if_pos h29]
      dsimp only
      rw [quantRows_length, piecesOf_length, ha]
      unfold vecBytes VecStep.outs
      rw [if_pos (hf.mpr h29), if_neg (by rw [h29]; decide)]
      omega
    · rw [if_neg h29]
      dsimp only
      have hw : (if vecReduces v.op then [reduce v.op a] else (a.zip (b.zip c)).map (fun p => elementwise v.op p.1
          p.2.1 p.2.2)).length = v.outs := by
        unfold VecStep.outs
        split
        · rfl
        · simp [ha, hb, hc]
      split
      · rename_i hc0
        dsimp only
        rw [wordsBytes_length]
        have : (if vecRaw v.op then (if vecReduces v.op then [reduce v.op a] else (a.zip (b.zip c)).map (fun p =>
            elementwise v.op p.1 p.2.1 p.2.2)) else
          (if vecReduces v.op then [reduce v.op a] else (a.zip (b.zip c)).map (fun p => elementwise v.op p.1 p.2.1
              p.2.2)).map canonical).length = v.outs := by
          split
          · exact hw
          · rw [List.length_map]; exact hw
        rw [this]
        have h11 : v.out.fmt = 0 := by
          rw [h0] at hc0
          simpa using hc0
        unfold vecBytes
        rw [h11]
        simp [widthOf]
        omega
      · dsimp only
        rw [packBits_length, convElems_length, List.length_map, hw]
        exact hn _ (Nat.le_refl _) h29

theorem keeps_vecStore (t : Nat) (v : VecStep) (param : List Word) (r : VecResult) (s : State) (hsel : v.out.sel ≤ 1)
    (h1 : v.out.sel = 0 → r.elems.length ≤ vecBytes v.out.fmt v.outs)
    (h2 : v.out.sel = 0 → vecScalesOut v.op = true → r.scales.length = (v.n + blockSize v.mode - 1) / blockSize
        v.mode) :
    KeepsOutside (tileRanges t ((v.outSpans param).map spanRange)) [] s (vecStore t v param r s) := by
  unfold vecStore
  by_cases h : v.out.sel = 1
  · rw [if_pos h]
    exact keeps_quiet (by simp)
  · rw [if_neg h]
    have h0 : v.out.sel = 0 := by omega
    dsimp only
    have hs : v.outSpans param = (64 * v.out.off, vecBytes v.out.fmt v.outs) :: (if vecScalesOut v.op then
        (v.scaleSpan param).toList else []) := by
      unfold VecStep.outSpans VecOperand.span
      rw [if_pos h0]
      rfl
    have hm : ∀ p ∈ v.outSpans param, (sramAddr t p.1.toNat, p.2) ∈ tileRanges t ((v.outSpans param).map spanRange)
        := by
      intro p hp
      unfold tileRanges
      rw [List.mem_map]
      exact ⟨spanRange p, List.mem_map.mpr ⟨p, hp, rfl⟩, rfl⟩
    have k1 : ∀ ins, KeepsOutside (tileRanges t ((v.outSpans param).map spanRange)) [] s (stepWrite t (64 *
        v.out.off).toNat ins r.elems s) :=
      fun ins => keeps_stepWrite t _ ins r.elems (vecBytes v.out.fmt v.outs) s _ _ (h1 h0) (hm (64 * v.out.off,
          vecBytes v.out.fmt v.outs) (by rw [hs]; simp))
    generalize (if vecReduces v.op || vecQuant v.op then (v.insSpans param).map spanRange else ((v.insSpans
        param).map spanRange).filter (· ≠ ((64 * v.out.off).toNat, r.elems.length))) = ins
    cases hp : v.scaleSpan param with
    | none => exact k1 _
    | some p =>
      dsimp only
      split
      · rename_i hso
        refine (k1 ins).trans ?_
        refine keeps_stepWrite t _ ins r.scales p.2 _ _ _ ?_ (hm p (by rw [hs, hso, hp]; simp))
        rw [h2 h0 hso]
        unfold VecStep.scaleSpan at hp
        split at hp
        · cases hp
        · cases hp
          exact Nat.le_refl _
      · exact k1 _

/-! What a step decodes stays in its flags. -/

theorem foldl_tern {β : Type} (f : Word × Arith → β → Word × Arith) (h : ∀ p x, (f p x).2.ternInv = p.2.ternInv) (l
    : List β) (p : Word × Arith) :
    (l.foldl f p).2.ternInv = p.2.ternInv := by
  induction l generalizing p with
  | nil => rfl
  | cons x l ih => rw [List.foldl_cons, ih, h]

theorem chain_tern (m : MatStep) (a w sa sw : Nat) (p : Word × Arith) : (chain m a w sa sw p).2.ternInv =
    p.2.ternInv := by
  unfold chain
  refine foldl_tern _ (fun q x => ?_) _ _
  split
  · unfold chainAddInt
    dsimp only
    split
    · rfl
    split <;> rfl
  · rfl

theorem matEntries_tern (m : MatStep) (x : Tile) (acts wts sas sws : List Nat) (a : Arith) :
    (matEntries m x acts wts sas sws a).2.ternInv = a.ternInv := by
  unfold matEntries
  have : ∀ (L : List Nat) (p : List (Nat × Word) × Arith), (L.foldl (fun p i =>
      let r := chain m (nth 0 acts (i / 128)) (nth 0 wts (i % 128)) (nth 0 sas (i / 128)) (nth 0 sws (i % 128))
        (if m.clear then 0 else tget 0 x.acc i, p.2)
      (p.1 ++ [(i, r.1)], r.2)) p).2.ternInv = p.2.ternInv := by
    intro L
    induction L with
    | nil => intro p; rfl
    | cons i L ih => intro p; rw [List.foldl_cons, ih]; exact chain_tern _ _ _ _ _ _
  exact this _ _

theorem convElem_tern (fmt : Nat) (st : Bool) (v : Val) (a : Arith) : (convElem fmt st v a).2.ternInv = a.ternInv :=
    rfl

theorem convElems_tern (fmt : Nat) (st : Bool) (l : List Val) (a : Arith) : (convElems fmt st l a).2.ternInv =
    a.ternInv := by
  induction l generalizing a with
  | nil => rfl
  | cons x l ih => simp [convElems, ih, convElem_tern]

theorem outRow_tern (m : MatStep) (mult : Val) (l : List Word) (a : Arith) : (outRow m mult l a).2.ternInv =
    a.ternInv := by
  have h : ∀ x a, (outCode m mult x a).2.ternInv = a.ternInv := by
    intro x a
    unfold outCode
    split
    · rfl
    · dsimp only; rw [convElem_tern]
  induction l generalizing a with
  | nil => rfl
  | cons x l ih => simp [outRow, ih, h]

theorem quantBlocks_tern (f : List Word → Arith → Nat × List Nat × Arith) (hf : ∀ l a, (f l a).2.2.ternInv =
    a.ternInv)
    (L : List (List Word)) (a : Arith) : (quantBlocks f L a).2.2.ternInv = a.ternInv := by
  induction L generalizing a with
  | nil => rfl
  | cons b L ih => simp [quantBlocks, ih, hf]

theorem quantRows_tern (tau : Word) (L : List (List Word)) (a : Arith) : (quantRows tau L a).2.ternInv = a.ternInv
    := by
  induction L generalizing a with
  | nil => rfl
  | cons b L ih => simp [quantRows, ih, quantTernRow]

theorem vecResult_tern (v : VecStep) (param : List Word) (a b c : List Word) (ar : Arith) :
    (vecResult v param a b c ar).arith.ternInv = ar.ternInv := by
  unfold vecResult
  split
  · refine quantBlocks_tern _ ?_ _ _
    intro l a
    split
    · unfold quantMxBlock
      dsimp only
      split
      · rfl
      split
      · rfl
      · exact convElems_tern _ _ _ _
    · unfold quantFineBlock
      dsimp only
      split
      · rfl
      · exact convElems_tern _ _ _ _
  split
  · exact quantRows_tern _ _ _
  · dsimp only
    split
    · rfl
    · exact convElems_tern _ _ _ _

theorem keepArith_ternInv (t : Nat) (a : Arith) (s : State) (h : a.ternInv.isSome = true) : (tileOf (keepArith t a
    s) t).ternInv = true := by
  have hraise : ∀ (c : BitVec 16) (sv : Nat) (it : List Word) (u : State), (raise c sv it u).tiles = u.tiles :=
      fun c sv it u => (loud_raise c sv it u).same.2.2.2.1
  have htell : ∀ (b : Nat) (c : BitVec 16) (sv : Nat) (it : List Word) (v : State), (tileOf v t).ternInv = true →
      (tileOf (tellOnce t b (raise c sv it) v) t).ternInv = true := by
    intro b c sv it v hv
    unfold tellOnce
    split
    · exact hv
    · unfold tileOf
      first
      | (rw [hraise]; simpa [modTile, setTile, tileOf] using hv)
      | (simp [modTile, setTile, tileOf, hraise] at *; simp_all)
  obtain ⟨off, ho⟩ := Option.isSome_iff_exists.1 h
  unfold keepArith keepArithAt
  dsimp only
  generalize hv : modTile t (fun x => { x with lfsr := a.lfsr, nan := x.nan || a.nan, ovf := x.ovf || a.ovf, ternInv
      := x.ternInv || a.ternInv.isSome }) s = v
  have hv0 : (tileOf v t).ternInv = true := by
    subst hv
    simp [modTile, setTile, tileOf, tget_tset_same, h]
  rw [ho]
  dsimp only
  repeat' split
  all_goals (repeat (first | exact hv0 | apply htell))

/-! Lines that read clean. -/

theorem linePrepare_clean (c w a0 n line : Nat) (s : State) (h : lineClass c line s = .clean []) :
    (linePrepare c w a0 n line s).mem.dram = s.mem.dram ∧ ∀ k, k ≠ line → lineFrom c k s = k →
      lineFrom c k (linePrepare c w a0 n line s) = k ∧ lineClass c k (linePrepare c w a0 n line s) = lineClass c k s
          := by
  unfold linePrepare
  dsimp only
  rw [h]
  split
  · refine ⟨rfl, fun k hk hf => ⟨hf, ?_⟩⟩
    have hk2 : lineKey c k ≠ lineKey c line := by unfold lineKey; omega
    have hp : ∀ m : Tbl (List (BitVec 40)), tget [] (tset [] m (lineKey c line) []) (lineKey c k) = tget [] m
        (lineKey c k) :=
      fun m => tget_tset_other _ _ _ hk2
    have e : ∀ u : State, lineFrom c k u = k → linePattern c k u = tget [] u.mem.lineErr (lineKey c k) := by
      intro u hu
      unfold linePattern
      rw [hu]
      simp
    unfold lineClass
    rw [e s hf, e _ (by exact hf)]
    dsimp only
    rw [hp]
    rfl
  · exact ⟨rfl, fun k _ hf => ⟨hf, rfl⟩⟩

theorem linesOf_nodup (a n : Nat) : (linesOf a n).Nodup := by
  unfold linesOf
  split
  · exact List.nodup_nil
  · rw [List.nodup_iff_pairwise_ne, List.pairwise_map]
    exact List.Pairwise.imp (fun h => by omega) (List.nodup_iff_pairwise_ne.mp List.nodup_range)

theorem prepareAll_clean (c w a0 n : Nat) (L : List Nat) (s : State) (hn : L.Nodup)
    (h : ∀ k ∈ L, lineFrom c k s = k ∧ lineClass c k s = .clean []) :
    (forAll L (linePrepare c w a0 n) s).mem.dram = s.mem.dram := by
  induction L generalizing s with
  | nil => rfl
  | cons k L ih =>
    have hp := linePrepare_clean c w a0 n k s (h k (by simp)).2
    refine (ih (linePrepare c w a0 n k s) (List.nodup_cons.mp hn).2 (fun j hj => ?_)).trans hp.1
    have hne : j ≠ k := fun e => (List.nodup_cons.mp hn).1 (e ▸ hj)
    have hj2 := h j (by simp [hj])
    have := hp.2 j hne hj2.1
    exact ⟨this.1, this.2.trans hj2.2⟩

theorem dramWrite_clean (mark : Bool) (w c a0 : Nat) (bs : List Byte) (s : State) (x : Nat)
    (h : ∀ k ∈ linesOf a0 bs.length, lineFrom c k s = k ∧ lineClass c k s = .clean [])
    (hx : x < dramAddr c a0 ∨ dramAddr c a0 + bs.length ≤ x) :
    readByte (dramWrite mark w c a0 bs s).mem.dram x = readByte s.mem.dram x := by
  have h1 := prepareAll_clean c w a0 bs.length (linesOf a0 bs.length) s (linesOf_nodup _ _) h
  have h2 : ∀ u : State, (setDirty c a0 bs.length u).mem.dram = u.mem.dram := fun u => congrArg (·.2.1)
      (setDirty_quiet c a0 bs.length u)
  unfold dramWrite
  dsimp only
  split
  · rw [h2]
    dsimp only
    rw [readByte_writeBytes_other _ _ _ hx, h1]
  · dsimp only
    rw [readByte_writeBytes_other _ _ _ hx, h1]

end Sys2Proof
end

