-- ==== Sys2Proof/Laws/Mailbox.lean ====
section
/-! SUPPORT. Mailbox commands: the checks in order, what a command that passes them answers, and what completion
does. -/

namespace Sys2Proof.Machine

@[simp] theorem need_true (st : Status) : need true st = none := rfl

@[simp] theorem need_eq_none (b : Bool) (st : Status) : need b st = none ↔ b = true := by
  cases b <;> simp [need]

@[simp] theorem firstOf_nil : firstOf [] = none := rfl

@[simp] theorem firstOf_none (l : List (Option (Status × List Word))) : firstOf (none :: l) = firstOf l := rfl

@[simp] theorem firstOf_some (x : Status × List Word) (l : List (Option (Status × List Word))) :
    firstOf (some x :: l) = some x := rfl

/-- No check fails when none of the list does. -/
theorem firstOf_eq_none (l : List (Option (Status × List Word))) : firstOf l = none ↔ ∀ x ∈ l, x = none := by
  induction l with
  | nil => simp
  | cons a l ih => cases a <;> simp [ih]

/-- The checks of R30 all pass. -/
theorem verdict_none {c : Cmd} {r : Req} {s : State} {n : Nat} (hn : reqLength r = n) (h2 : 2 ≤ n) (h512 : n ≤ 512)
    (hl : c.len n = true) (hh : headerOk r = true) (ha : admits c.op s = true) (ho : c.object r s = none)
    (hg : c.args r s = none) : verdict c r s = none := by
  subst hn
  simp [verdict, headerLenOk, h2, h512, hl, hh, ha, ho, hg]

/-- A command whose checks pass answers what its run gives. -/
theorem runCmd_replies {c : Cmd} {r : Req} {s t : State} {n : Nat} {st : Status} {ws : List Word}
    {bulk : List (Nat × List Byte)} (hs : serving s = true) (hn : reqLength r = n) (h2 : 2 ≤ n) (h512 : n ≤ 512)
    (hl : c.len n = true) (hh : headerOk r = true) (ha : admits c.op s = true) (ho : c.object r s = none)
    (hg : c.args r s = none) (hr : c.run r s = .reply st ws bulk t) :
    runCmd c r s = complete r (c.op = 0x0110) st ws bulk t := by
  simp [runCmd, hs, answer, verdict_none hn h2 h512 hl hh ha ho hg, hr, deliver]

/-- A command whose checks pass and whose response is still to come is kept among the started ones. -/
theorem runCmd_starts {c : Cmd} {r : Req} {s t : State} {n : Nat} (hs : serving s = true) (hn : reqLength r = n)
    (h2 : 2 ≤ n) (h512 : n ≤ 512) (hl : c.len n = true) (hh : headerOk r = true) (ha : admits c.op s = true)
    (ho : c.object r s = none) (hg : c.args r s = none) (hr : c.run r s = .later t) :
    runCmd c r s = { t with mbx := { t.mbx with started := t.mbx.started ++ [⟨BitVec.ofNat 16 c.op, r, t.mbx.orders, 0⟩],
                                                orders := t.mbx.orders + 1 } } := by
  simp [runCmd, hs, answer, verdict_none hn h2 h512 hl hh ha ho hg, hr, deliver]

/-! What completion touches. -/

/-- Emitting adds outputs alone. -/
theorem forAll_emit_eq {β : Type} (l : List β) (f : β → Output) (s : State) :
    ∃ out, forAll l (fun x => emit (f x)) s = { s with out := out } := by
  induction l generalizing s with
  | nil => exact ⟨s.out, rfl⟩
  | cons a l ih =>
    obtain ⟨out, h⟩ := ih (emit (f a) s)
    exact ⟨out, by simpa [forAll, emit] using h⟩

/-- Sending a message changes the interrupt block and the outputs alone. -/
theorem sendMsix_eq (v : Nat) (s : State) : ∃ irq out, sendMsix v s = { s with irq := irq, out := out } := by
  unfold sendMsix
  split
  · exact ⟨_, s.out, rfl⟩
  · dsimp only
    split
    · exact ⟨_, s.out, rfl⟩
    · exact ⟨s.irq, _, rfl⟩

/-- The message of a done bit changes the interrupt block and the outputs alone. -/
theorem slotMessage_eq (n : Nat) (noIrq now : Bool) (s : State) :
    ∃ irq out, slotMessage n noIrq now s = { s with irq := irq, out := out } := by
  unfold slotMessage
  dsimp only
  split
  · exact ⟨s.irq, s.out, rfl⟩
  · split
    · exact ⟨_, s.out, rfl⟩
    · unfold sendSlotVector
      exact sendMsix_eq _ _

/-- Words below the index at which words are written stay. -/
theorem tget_putWords_below (t : Tbl Word) (i : Nat) (ws : List Word) {k : Nat} (h : k < i) :
    tget 0 (putWords t i ws) k = tget 0 t k := by
  induction ws generalizing t i with
  | nil => rfl
  | cons w ws ih => rw [putWords, ih _ _ (by omega), tget_tset_other 0 t w (by omega)]

/-- The words written read back. -/
theorem tget_putWords (t : Tbl Word) (i : Nat) (ws : List Word) {k : Nat} (h : k < ws.length) :
    tget 0 (putWords t i ws) (i + k) = nth 0 ws k := by
  induction ws generalizing t i k with
  | nil => simp at h
  | cons w ws ih =>
    cases k with
    | zero => rw [putWords, Nat.add_zero, tget_putWords_below _ _ _ (by omega)]; simp [nth]
    | succ k =>
      have := ih (tset 0 t i w) (i + 1) (k := k) (by simpa using h)
      simpa [putWords, nth, Nat.add_assoc, Nat.add_comm 1] using this

end Sys2Proof.Machine
end

