-- ==== Sys2Proof/Laws/Sitetime.lean ====
section
/-! SUPPORT. Sitetime: the counter after a tick and after a step, the flags of TMU_STATUS, and the entry that a search
finds. -/

namespace Sys2Proof.Machine

/-- No entry meets the test: none is found. -/
theorem firstEntry_none {p : Entry → Bool} {s : State} (h : ∀ e ∈ s.sched.entries, p e.2 = false) : firstEntry p s = none := by
  unfold firstEntry
  generalize s.sched.entries = l at h
  suffices ∀ b : Option (Nat × Entry), l.foldl (fun best x => if p x.2 then match best with | some b => if entBefore x.2 b.2 s then some x else some b | none => some x else best) b = b from this none
  induction l with
  | nil => intro b; rfl
  | cons x l ih =>
    intro b
    rw [List.foldl_cons, h x (by simp)]
    exact ih (fun e he => h e (by simp [he])) b

/-- An entry meets the test: one is found. -/
theorem firstEntry_some {p : Entry → Bool} {s : State} {k : Nat} {e : Entry} (hm : (k, e) ∈ s.sched.entries) (hp : p e = true) :
    ∃ x, firstEntry p s = some x := by
  unfold firstEntry
  generalize s.sched.entries = l at hm
  have keep : ∀ (l : List (Nat × Entry)) b, ∃ c, l.foldl (fun best x => if p x.2 then match best with | some b => if entBefore x.2 b.2 s then some x else some b | none => some x else best) (some b) = some c := by
    intro l
    induction l with
    | nil => intro b; exact ⟨b, rfl⟩
    | cons x l ih =>
      intro b
      rw [List.foldl_cons]
      split
      · simp only []
        split <;> exact ih _
      · exact ih _
  suffices ∀ b, ∃ c, l.foldl (fun best x => if p x.2 then match best with | some b => if entBefore x.2 b.2 s then some x else some b | none => some x else best) b = some c from this none
  induction l with
  | nil => cases hm
  | cons x l ih =>
    intro b
    rw [List.foldl_cons]
    rcases List.mem_cons.mp hm with h | h
    · subst h
      rw [if_pos hp]
      cases b with
      | none => exact keep l _
      | some b => simp only []; split <;> exact keep l _
    · exact ih h _

/-- Setting a flag of TMU_STATUS sets that bit alone (R353). -/
theorem tmuFlag_tmu (n : Nat) (s : State) (hn : n < 8) :
    (tmuFlag n s).tmu = { s.tmu with status := s.tmu.status ||| BitVec.ofNat 8 (2 ^ n) } := by
  unfold tmuFlag
  split
  · rename_i hb
    have : s.tmu.status ||| BitVec.ofNat 8 (2 ^ n) = s.tmu.status := by
      apply BitVec.eq_of_getLsbD_eq
      intro i hi
      simp only [bit] at hb
      have e : (BitVec.ofNat 8 (2 ^ n)).getLsbD i = decide (i = n) := by
        rw [BitVec.getLsbD_ofNat, Nat.testBit_two_pow]
        simp [hi, eq_comm]
      rw [BitVec.getLsbD_or, e]
      by_cases h : i = n
      · subst h; simp [hb]
      · simp [h]
    rw [this]
  · simp only []
    split
    · exact (loud_setCause 4 _).same.2.2.2.2.2.2.2.2.2.2.2.1
    · rfl

/-- Setting a flag of TMU_STATUS leaves the schedule. -/
theorem tmuFlag_sched (n : Nat) (s : State) : (tmuFlag n s).sched = s.sched := by
  unfold tmuFlag
  split
  · rfl
  · simp only []
    split
    · have h := loud_setCause 4 { s with tmu := { s.tmu with status := s.tmu.status ||| BitVec.ofNat 8 (2 ^ n) } }
      unfold Loud at h
      rw [h]
    · rfl

/-- Era and ns of an extended counter value. -/
theorem append_halves (z : BitVec 48) : ((z >>> 32).setWidth 16 ++ z.setWidth 32) = z := by
  apply BitVec.eq_of_toNat_eq
  refine (BitVec.toNat_append ((z >>> 32).setWidth 16) (z.setWidth 32)).trans ?_
  have := z.isLt
  rw [← Nat.shiftLeft_add_eq_or_of_lt (BitVec.isLt _)]
  simp [Nat.shiftRight_eq_div_pow, Nat.shiftLeft_eq]
  omega

/-- An event leaves the counter. -/
theorem siteNow_raise (c : BitVec 16) (sv : Nat) (it : List Word) (x : State) :
    siteNow (raise c sv it x) = siteNow x ∧ (raise c sv it x).tmu.frac = x.tmu.frac := by
  unfold siteNow
  rw [(loud_raise c sv it x).same.2.2.2.2.2.2.2.2.2.2.2.1]
  exact ⟨rfl, rfl⟩

/-- The boundaries that a step moves leave the counter (R368). -/
theorem siteNow_stepBoundary (w : Bool) (old : BitVec 48) (x : State) :
    siteNow (stepBoundary w old x) = siteNow x ∧ (stepBoundary w old x).tmu.frac = x.tmu.frac := by
  unfold stepBoundary
  split <;> exact ⟨rfl, rfl⟩

/-- A step adds its signed value to the extended counter and leaves frac (R357). -/
theorem siteNow_stepCounter (st : Int) (s : State) :
    siteNow (stepCounter st s) = siteNow s + BitVec.ofInt 48 st ∧ (stepCounter st s).tmu.frac = s.tmu.frac := by
  unfold stepCounter
  simp only []
  split
  · unfold siteNow
    rw [tmuFlag_tmu _ _ (by omega)]
    exact ⟨append_halves _, rfl⟩
  · exact ⟨append_halves _, rfl⟩

/-- One tick adds the addend to ns and frac (R351). -/
theorem tickCounter_counts (s : State) :
    (tickCounter s).tmu.ns = word ((s.tmu.ns.toNat * 2 ^ 32 + s.tmu.frac.toNat + s.tmu.addend.toNat * 16) / 2 ^ 32) ∧
    (tickCounter s).tmu.frac = word (s.tmu.frac.toNat + s.tmu.addend.toNat * 16) := by
  have key : (nextCount s.tmu).frac = word (s.tmu.frac.toNat + s.tmu.addend.toNat * 16) := by
    apply BitVec.eq_of_toNat_eq
    simp only [nextCount, tickSum, word, BitVec.toNat_ofNat]
    omega
  have key1 : (nextCount s.tmu).ns =
      word ((s.tmu.ns.toNat * 2 ^ 32 + s.tmu.frac.toNat + s.tmu.addend.toNat * 16) / 2 ^ 32) := by
    simp only [nextCount, tickSum]
  rw [← key, ← key1]
  cases h : wrapsAt s.tmu
  · unfold tickCounter
    simp only [h, if_neg Bool.false_ne_true]
    exact ⟨trivial, trivial⟩
  · unfold tickCounter
    simp only [h, if_true]
    rw [tmuFlag_tmu _ _ (by omega)]
    exact ⟨rfl, rfl⟩

end Sys2Proof.Machine
end

