-- ==== Sys2Proof/Laws/Sound.lean ====
section
/-! SUPPORT. What every operation keeps, also one that writes memory or ECLK: the canonical form of both memories,
the range and grid of ECLK, the queue of commands and the fused identity. -/

namespace Sys2Proof.Machine

/-- ECLK is one of the frequencies of R451. -/
def EclkOk (n : Nat) : Prop := 1400 ≤ n ∧ n ≤ 2200 ∧ n % 25 = 0

/-- The memories are canonical where `p` asks it, ECLK is legal where `e` asks it, and the rest is `k`. -/
def SoundQ (p e : Prop) (k : List Instr × DWord × Byte × Byte)
    (q : Tbl Byte × Tbl Byte × Nat × List Instr × DWord × Byte × Byte) : Prop :=
  (p → MemoryWf q.1 ∧ MemoryWf q.2.1) ∧ (e → EclkOk q.2.2.1) ∧ q.2.2.2 = k

variable {p0 e0 : Prop} {k0 : List Instr × DWord × Byte × Byte}

theorem foldl_sound {β : Type} (f : State → β → State)
    (h : ∀ s x, SoundQ p0 e0 k0 (quietOf s) → SoundQ p0 e0 k0 (quietOf (f s x))) (l : List β) {s : State}
    (h0 : SoundQ p0 e0 k0 (quietOf s)) : SoundQ p0 e0 k0 (quietOf (l.foldl f s)) := by
  induction l generalizing s with
  | nil => exact h0
  | cons a l ih => exact ih (h s a h0)

theorem forAll_sound {β : Type} (f : β → State → State)
    (h : ∀ x s, SoundQ p0 e0 k0 (quietOf s) → SoundQ p0 e0 k0 (quietOf (f x s))) (l : List β) {s : State}
    (h0 : SoundQ p0 e0 k0 (quietOf s)) : SoundQ p0 e0 k0 (quietOf (forAll l f s)) :=
  foldl_sound _ (fun s x => h x s) l h0

/-- New memories and a new ECLK. -/
theorem SoundQ.change {q : Tbl Byte × Tbl Byte × Nat × List Instr × DWord × Byte × Byte} {a b : Tbl Byte} {n : Nat}
    (h : SoundQ p0 e0 k0 q) (ha : MemoryWf q.1 → MemoryWf a) (hb : MemoryWf q.2.1 → MemoryWf b)
    (hn : EclkOk q.2.2.1 → EclkOk n) : SoundQ p0 e0 k0 (a, b, n, q.2.2.2) :=
  ⟨fun hp => ⟨ha (h.1 hp).1, hb (h.1 hp).2⟩, fun he => hn (h.2.1 he), h.2.2⟩

/-- The state in an answer. -/
def Ans.state : Ans → State
  | .reply _ _ _ s => s
  | .later s => s

@[simp] theorem Ans.state_reply (st : Status) (ws : List Word) (bulk : List (Nat × List Byte)) (s : State) :
    Ans.state (.reply st ws bulk s) = s := rfl

@[simp] theorem Ans.state_later (s : State) : Ans.state (.later s) = s := rfl

@[simp] theorem sramWrite_sound (t off : Nat) (bs : List Byte) (s : State) (h0 : SoundQ p0 e0 k0 (quietOf s)) :
    SoundQ p0 e0 k0 (quietOf (sramWrite t off bs s)) :=
  h0.change (fun h => writeBytes_wf h _ _) id id

@[simp] theorem sramZero_sound (t off n : Nat) (s : State) (h0 : SoundQ p0 e0 k0 (quietOf s)) :
    SoundQ p0 e0 k0 (quietOf (sramZero t off n s)) :=
  h0.change (fun h => zeroBytes_wf h _ _) id id

@[simp] theorem lineStore_sound (c line : Nat) (bs : List Byte) (s : State) (h0 : SoundQ p0 e0 k0 (quietOf s)) :
    SoundQ p0 e0 k0 (quietOf (lineStore c line bs s)) :=
  h0.change id (fun h => writeBytes_wf h _ _) id

@[simp] theorem lineRewrite_sound (c line : Nat) (s : State) (h0 : SoundQ p0 e0 k0 (quietOf s)) :
    SoundQ p0 e0 k0 (quietOf (lineRewrite c line s)) := by
  unfold lineRewrite
  split
  · exact lineStore_sound _ _ _ _ h0
  · exact h0

@[simp] theorem linePrepare_sound (c writer a n line : Nat) (s : State) (h0 : SoundQ p0 e0 k0 (quietOf s)) :
    SoundQ p0 e0 k0 (quietOf (linePrepare c writer a n line s)) := by
  unfold linePrepare
  repeat' (first
    | (simp (maxDischargeDepth := 40) +contextual [apply_ite quietOf, forAll_sound, foldl_sound, h0]; done)
    | split | dsimp only | (refine forAll_sound _ ?_ _ ?_)
    | (refine foldl_sound _ ?_ _ ?_) | intro _
    | simp (maxDischargeDepth := 40) +contextual [apply_ite quietOf, forAll_sound, foldl_sound, h0])

@[simp] theorem dramWrite_sound (mark : Bool) (writer c a : Nat) (bs : List Byte) (s : State)
    (h0 : SoundQ p0 e0 k0 (quietOf s)) : SoundQ p0 e0 k0 (quietOf (dramWrite mark writer c a bs s)) := by
  have h1 := forAll_sound (linePrepare c writer a bs.length) (fun x s h => linePrepare_sound c writer a bs.length x s h)
    (linesOf a bs.length) h0
  have h2 := h1.change id (fun h => writeBytes_wf h (dramAddr c a) bs) id
  unfold dramWrite
  dsimp only
  split
  · rw [setDirty_quiet]; exact h2
  · exact h2

@[simp] theorem dramZero_sound (c a n : Nat) (s : State) (h0 : SoundQ p0 e0 k0 (quietOf s)) :
    SoundQ p0 e0 k0 (quietOf (dramZero c a n s)) :=
  h0.change id (fun h => zeroBytes_wf h _ _) id

@[simp] theorem piecesWrite_sound (mark : Bool) (writer : Nat) (l : List (Nat × Nat × Nat)) (bs : List Byte) (s : State)
    (h0 : SoundQ p0 e0 k0 (quietOf s)) : SoundQ p0 e0 k0 (quietOf (piecesWrite mark writer l bs s)) := by
  induction l generalizing bs s with
  | nil => exact h0
  | cons a l ih => exact ih _ _ (dramWrite_sound _ _ _ _ _ _ h0)

theorem answer_sound (c : Cmd) (r : Req) (s : State) (h0 : SoundQ p0 e0 k0 (quietOf s))
    (hr : quietOf (c.refused r s) = quietOf s) (hc : SoundQ p0 e0 k0 (quietOf (c.run r s).state)) :
    SoundQ p0 e0 k0 (quietOf (answer c r s).state) := by
  unfold answer
  split
  · show SoundQ p0 e0 k0 (quietOf (if headerLenOk c r then c.refused r s else s))
    split
    · rw [hr]; exact h0
    · exact h0
  · exact hc

@[simp] theorem runCmd_sound (c : Cmd) (r : Req) (s : State) (h0 : SoundQ p0 e0 k0 (quietOf s))
    (hr : quietOf (c.refused r s) = quietOf s)
    (hc : SoundQ p0 e0 k0 (quietOf (c.run r s).state)) : SoundQ p0 e0 k0 (quietOf (runCmd c r s)) := by
  have ha := answer_sound c r s h0 hr hc
  unfold runCmd
  split
  · unfold deliver
    cases h : answer c r s with
    | reply st ws bulk u => rw [h] at ha; simpa using ha
    | later u => rw [h] at ha; exact ha
  · exact h0

@[simp] theorem dmaFailed_sound (op : Nat) (r : Req) (n : Nat) (ws : List Word) (s : State)
    (h0 : SoundQ p0 e0 k0 (quietOf s)) :
    SoundQ p0 e0 k0 (quietOf (dmaFailed op r n ws s).state) := by
  unfold dmaFailed
  simp (maxDischargeDepth := 40) +contextual [apply_ite quietOf, forAll_sound, foldl_sound, apply_ite Ans.state, h0]

@[simp] theorem ppsConfigCmd_refused (r : Req) (s : State) : quietOf (ppsConfigCmd.refused r s) = quietOf s := (rfl)

@[simp] theorem ppsConfigCmd_sound (r : Req) (s : State) (h0 : SoundQ p0 e0 k0 (quietOf s)) :
    SoundQ p0 e0 k0 (quietOf (ppsConfigCmd.run r s).state) := by
  unfold ppsConfigCmd
  simp (maxDischargeDepth := 40) +contextual [apply_ite quietOf, forAll_sound, foldl_sound, apply_ite Ans.state, h0]

theorem armWith_sound {action lead : Nat} {t : Word} {notify : Bool} {arg : Nat} {tag : Word} {s u : State} {i : Nat}
    (h0 : SoundQ p0 e0 k0 (quietOf s)) (h : armWith action lead t notify arg tag s = .ok (i, u)) :
    SoundQ p0 e0 k0 (quietOf u) := by
  unfold armWith at h
  split at h
  · cases h
  · split at h
    · cases h
    · cases h; rw [armAt_quiet]; exact h0

@[simp] theorem schedArmCmd_refused (r : Req) (s : State) : quietOf (schedArmCmd.refused r s) = quietOf s := (rfl)

@[simp] theorem schedArmCmd_sound (r : Req) (s : State) (h0 : SoundQ p0 e0 k0 (quietOf s)) :
    SoundQ p0 e0 k0 (quietOf (schedArmCmd.run r s).state) := by
  unfold schedArmCmd
  dsimp only
  split
  · exact h0
  · next h => exact armWith_sound h0 h

@[simp] theorem schedQueryCmd_refused (r : Req) (s : State) : quietOf (schedQueryCmd.refused r s) = quietOf s := (rfl)

@[simp] theorem schedQueryCmd_sound (r : Req) (s : State) (h0 : SoundQ p0 e0 k0 (quietOf s)) :
    SoundQ p0 e0 k0 (quietOf (schedQueryCmd.run r s).state) := by
  unfold schedQueryCmd; dsimp only; (repeat' split) <;>
    simp (maxDischargeDepth := 40) +contextual [apply_ite quietOf, forAll_sound, foldl_sound, apply_ite Ans.state, h0]

@[simp] theorem lacePlanCompileCmd_refused (r : Req)
    (s : State) : quietOf (lacePlanCompileCmd.refused r s) = quietOf s := (rfl)

@[simp] theorem lacePlanCompileCmd_sound (r : Req) (s : State) (h0 : SoundQ p0 e0 k0 (quietOf s)) :
    SoundQ p0 e0 k0 (quietOf (lacePlanCompileCmd.run r s).state) := by
  unfold lacePlanCompileCmd; dsimp only; (repeat' split) <;>
    simp (maxDischargeDepth := 40) +contextual [apply_ite quietOf, forAll_sound, foldl_sound, apply_ite Ans.state, h0]

@[simp] theorem laceBankQueryCmd_refused (r : Req)
    (s : State) : quietOf (laceBankQueryCmd.refused r s) = quietOf s := (rfl)

@[simp] theorem laceBankQueryCmd_sound (r : Req) (s : State) (h0 : SoundQ p0 e0 k0 (quietOf s)) :
    SoundQ p0 e0 k0 (quietOf (laceBankQueryCmd.run r s).state) := by
  unfold laceBankQueryCmd; dsimp only; (repeat' split) <;>
    simp (maxDischargeDepth := 40) +contextual [apply_ite quietOf, forAll_sound, foldl_sound, apply_ite Ans.state, h0]

@[simp] theorem laceStatusCmd_refused (r : Req) (s : State) : quietOf (laceStatusCmd.refused r s) = quietOf s := (rfl)

@[simp] theorem laceStatusCmd_sound (r : Req) (s : State) (h0 : SoundQ p0 e0 k0 (quietOf s)) :
    SoundQ p0 e0 k0 (quietOf (laceStatusCmd.run r s).state) := by
  unfold laceStatusCmd
  simp (maxDischargeDepth := 40) +contextual [apply_ite quietOf, forAll_sound, foldl_sound, apply_ite Ans.state, h0]

@[simp] theorem weltForceCmd_refused (r : Req) (s : State) : quietOf (weltForceCmd.refused r s) = quietOf s := (rfl)

@[simp] theorem weltForceCmd_sound (r : Req) (s : State) (h0 : SoundQ p0 e0 k0 (quietOf s)) :
    SoundQ p0 e0 k0 (quietOf (weltForceCmd.run r s).state) := by
  unfold weltForceCmd
  simp (maxDischargeDepth := 40) +contextual [apply_ite quietOf, forAll_sound, foldl_sound, apply_ite Ans.state, h0]

@[simp] theorem shankCoefLoadCmd_refused (r : Req)
    (s : State) : quietOf (shankCoefLoadCmd.refused r s) = quietOf s := (rfl)

@[simp] theorem shankCoefLoadCmd_sound (r : Req) (s : State) (h0 : SoundQ p0 e0 k0 (quietOf s)) :
    SoundQ p0 e0 k0 (quietOf (shankCoefLoadCmd.run r s).state) := by
  unfold shankCoefLoadCmd
  simp (maxDischargeDepth := 40) +contextual [apply_ite quietOf, forAll_sound, foldl_sound, apply_ite Ans.state, h0]

@[simp] theorem shankCoefSwapCmd_refused (r : Req)
    (s : State) : quietOf (shankCoefSwapCmd.refused r s) = quietOf s := (rfl)

@[simp] theorem shankCoefSwapCmd_sound (r : Req) (s : State) (h0 : SoundQ p0 e0 k0 (quietOf s)) :
    SoundQ p0 e0 k0 (quietOf (shankCoefSwapCmd.run r s).state) := by
  unfold shankCoefSwapCmd
  simp (maxDischargeDepth := 40) +contextual [apply_ite quietOf, forAll_sound, foldl_sound, apply_ite Ans.state, h0]

@[simp] theorem shankLimitsCmd_refused (r : Req) (s : State) : quietOf (shankLimitsCmd.refused r s) = quietOf s := (rfl)

@[simp] theorem shankLimitsCmd_sound (r : Req) (s : State) (h0 : SoundQ p0 e0 k0 (quietOf s)) :
    SoundQ p0 e0 k0 (quietOf (shankLimitsCmd.run r s).state) := by
  unfold shankLimitsCmd
  simp (maxDischargeDepth := 40) +contextual [apply_ite quietOf, forAll_sound, foldl_sound, apply_ite Ans.state, h0]

@[simp] theorem shankRateCmd_refused (r : Req) (s : State) : quietOf (shankRateCmd.refused r s) = quietOf s := (rfl)

@[simp] theorem shankRateCmd_sound (r : Req) (s : State) (h0 : SoundQ p0 e0 k0 (quietOf s)) :
    SoundQ p0 e0 k0 (quietOf (shankRateCmd.run r s).state) := by
  unfold shankRateCmd
  simp (maxDischargeDepth := 40) +contextual [apply_ite quietOf, forAll_sound, foldl_sound, apply_ite Ans.state, h0]

@[simp] theorem shankStatusCmd_refused (r : Req) (s : State) : quietOf (shankStatusCmd.refused r s) = quietOf s := (rfl)

@[simp] theorem shankStatusCmd_sound (r : Req) (s : State) (h0 : SoundQ p0 e0 k0 (quietOf s)) :
    SoundQ p0 e0 k0 (quietOf (shankStatusCmd.run r s).state) := by
  unfold shankStatusCmd
  simp (maxDischargeDepth := 40) +contextual [apply_ite quietOf, forAll_sound, foldl_sound, apply_ite Ans.state, h0]

@[simp] theorem weltPowerCmd_refused (r : Req) (s : State) : quietOf (weltPowerCmd.refused r s) = quietOf s := (rfl)

@[simp] theorem weltPowerCmd_sound (r : Req) (s : State) (h0 : SoundQ p0 e0 k0 (quietOf s)) :
    SoundQ p0 e0 k0 (quietOf (weltPowerCmd.run r s).state) := by
  unfold weltPowerCmd
  simp (maxDischargeDepth := 40) +contextual [apply_ite quietOf, forAll_sound, foldl_sound, apply_ite Ans.state, h0]

@[simp] theorem fwBeginCmd_refused (r : Req) (s : State) : quietOf (fwBeginCmd.refused r s) = quietOf s := (rfl)

@[simp] theorem fwBeginCmd_sound (r : Req) (s : State) (h0 : SoundQ p0 e0 k0 (quietOf s)) :
    SoundQ p0 e0 k0 (quietOf (fwBeginCmd.run r s).state) := by
  unfold fwBeginCmd; dsimp only; (repeat' split) <;>
    simp (maxDischargeDepth := 40) +contextual [apply_ite quietOf, forAll_sound, foldl_sound, apply_ite Ans.state, h0]

@[simp] theorem fwBlockCmd_refused (r : Req) (s : State) : quietOf (fwBlockCmd.refused r s) = quietOf s := (rfl)

@[simp] theorem fwBlockCmd_sound (r : Req) (s : State) (h0 : SoundQ p0 e0 k0 (quietOf s)) :
    SoundQ p0 e0 k0 (quietOf (fwBlockCmd.run r s).state) := by
  unfold fwBlockCmd; dsimp only; (repeat' split) <;>
    simp (maxDischargeDepth := 40) +contextual [apply_ite quietOf, forAll_sound, foldl_sound, apply_ite Ans.state, h0]

@[simp] theorem fwVerifyCmd_refused (r : Req) (s : State) : quietOf (fwVerifyCmd.refused r s) = quietOf s := (rfl)

@[simp] theorem fwVerifyCmd_sound (r : Req) (s : State) (h0 : SoundQ p0 e0 k0 (quietOf s)) :
    SoundQ p0 e0 k0 (quietOf (fwVerifyCmd.run r s).state) := by
  unfold fwVerifyCmd; dsimp only; (repeat' split) <;>
    simp (maxDischargeDepth := 40) +contextual [apply_ite quietOf, forAll_sound, foldl_sound, apply_ite Ans.state, h0]

@[simp] theorem fwArmCmd_refused (r : Req) (s : State) : quietOf (fwArmCmd.refused r s) = quietOf s := (rfl)

@[simp] theorem fwArmCmd_sound (r : Req) (s : State) (h0 : SoundQ p0 e0 k0 (quietOf s)) :
    SoundQ p0 e0 k0 (quietOf (fwArmCmd.run r s).state) := by
  unfold fwArmCmd
  dsimp only
  split
  · exact h0
  · next h => simpa using armWith_sound h0 h

@[simp] theorem fwAbortCmd_refused (r : Req) (s : State) : quietOf (fwAbortCmd.refused r s) = quietOf s := (rfl)

@[simp] theorem fwAbortCmd_sound (r : Req) (s : State) (h0 : SoundQ p0 e0 k0 (quietOf s)) :
    SoundQ p0 e0 k0 (quietOf (fwAbortCmd.run r s).state) := by
  unfold fwAbortCmd; dsimp only; (repeat' split) <;>
    simp (maxDischargeDepth := 40) +contextual [apply_ite quietOf, forAll_sound, foldl_sound, apply_ite Ans.state, h0]

@[simp] theorem fwStatusCmd_refused (r : Req) (s : State) : quietOf (fwStatusCmd.refused r s) = quietOf s := (rfl)

@[simp] theorem fwStatusCmd_sound (r : Req) (s : State) (h0 : SoundQ p0 e0 k0 (quietOf s)) :
    SoundQ p0 e0 k0 (quietOf (fwStatusCmd.run r s).state) := by
  unfold fwStatusCmd
  simp (maxDischargeDepth := 40) +contextual [apply_ite quietOf, forAll_sound, foldl_sound, apply_ite Ans.state, h0]

@[simp] theorem idCertReadCmd_refused (r : Req) (s : State) : quietOf (idCertReadCmd.refused r s) = quietOf s := (rfl)

@[simp] theorem idCertReadCmd_sound (r : Req) (s : State) (h0 : SoundQ p0 e0 k0 (quietOf s)) :
    SoundQ p0 e0 k0 (quietOf (idCertReadCmd.run r s).state) := by
  unfold idCertReadCmd; dsimp only; (repeat' split) <;>
    simp (maxDischargeDepth := 40) +contextual [apply_ite quietOf, forAll_sound, foldl_sound, apply_ite Ans.state, h0]

@[simp] theorem attestReportCmd_refused (r : Req)
    (s : State) : quietOf (attestReportCmd.refused r s) = quietOf s := (rfl)

@[simp] theorem attestReportCmd_sound (r : Req) (s : State) (h0 : SoundQ p0 e0 k0 (quietOf s)) :
    SoundQ p0 e0 k0 (quietOf (attestReportCmd.run r s).state) := by
  unfold attestReportCmd; dsimp only; (repeat' split) <;>
    simp (maxDischargeDepth := 40) +contextual [apply_ite quietOf, forAll_sound, foldl_sound, apply_ite Ans.state, h0]

@[simp] theorem svcTokenKeyCmd_refused (r : Req) (s : State) : quietOf (svcTokenKeyCmd.refused r s) = quietOf s := (rfl)

@[simp] theorem svcTokenKeyCmd_sound (r : Req) (s : State) (h0 : SoundQ p0 e0 k0 (quietOf s)) :
    SoundQ p0 e0 k0 (quietOf (svcTokenKeyCmd.run r s).state) := by
  unfold svcTokenKeyCmd; dsimp only; (repeat' split) <;>
    simp (maxDischargeDepth := 40) +contextual [apply_ite quietOf, forAll_sound, foldl_sound, apply_ite Ans.state, h0]

@[simp] theorem testUnlockCmd_refused (r : Req) (s : State) : quietOf (testUnlockCmd.refused r s) = quietOf s := (rfl)

@[simp] theorem testUnlockCmd_sound (r : Req) (s : State) (h0 : SoundQ p0 e0 k0 (quietOf s)) :
    SoundQ p0 e0 k0 (quietOf (testUnlockCmd.run r s).state) := by
  unfold testUnlockCmd; dsimp only; (repeat' split) <;>
    simp (maxDischargeDepth := 40) +contextual [apply_ite quietOf, forAll_sound, foldl_sound, apply_ite Ans.state, h0]

@[simp] theorem freeRanges_sound (t : Nat) (l : List (Nat × Nat)) (s : State) (h0 : SoundQ p0 e0 k0 (quietOf s)) :
    SoundQ p0 e0 k0 (quietOf (freeRanges t l s)) := by
  unfold freeRanges; simp (maxDischargeDepth := 40) +contextual [apply_ite quietOf, forAll_sound, foldl_sound, h0]

@[simp] theorem stopTile_sound (t : Nat) (s : State) (h0 : SoundQ p0 e0 k0 (quietOf s)) :
    SoundQ p0 e0 k0 (quietOf (stopTile t s)) := by
  unfold stopTile; simp (maxDischargeDepth := 40) +contextual [apply_ite quietOf, forAll_sound, foldl_sound, h0]

@[simp] theorem stopRoles_sound (j : Nat) (s : State) (h0 : SoundQ p0 e0 k0 (quietOf s)) :
    SoundQ p0 e0 k0 (quietOf (stopRoles j s)) := by
  unfold stopRoles; simp (maxDischargeDepth := 40) +contextual [apply_ite quietOf, forAll_sound, foldl_sound, h0]

@[simp] theorem faultJob_sound (j : Nat) (f : JobFault) (s : State) (h0 : SoundQ p0 e0 k0 (quietOf s)) :
    SoundQ p0 e0 k0 (quietOf (faultJob j f s)) := by
  unfold faultJob; simp (maxDischargeDepth := 40) +contextual [apply_ite quietOf, forAll_sound, foldl_sound, h0]

@[simp] theorem roleFault_sound (t code step : Nat) (s : State) (h0 : SoundQ p0 e0 k0 (quietOf s)) :
    SoundQ p0 e0 k0 (quietOf (roleFault t code step s)) := by
  unfold roleFault; (repeat' split) <;>
    simp (maxDischargeDepth := 40) +contextual [apply_ite quietOf, forAll_sound, foldl_sound, h0]

@[simp] theorem stepWrite_sound (t off : Nat) (ins : List (Nat × Nat)) (bs : List Byte) (s : State)
    (h0 : SoundQ p0 e0 k0 (quietOf s)) :
    SoundQ p0 e0 k0 (quietOf (stepWrite t off ins bs s)) := by
  unfold stepWrite; simp (maxDischargeDepth := 40) +contextual [apply_ite quietOf, forAll_sound, foldl_sound, h0]

@[simp] theorem issue_sound (kind t : Nat) (f : BitVec 256 → State → State) (s : State) (hf : ∀ a0 a1, SoundQ p0 e0 k0 (quietOf a1) → SoundQ p0 e0 k0 (quietOf (f a0 a1)))
    (h0 : SoundQ p0 e0 k0 (quietOf s)) :
    SoundQ p0 e0 k0 (quietOf (issue kind t f s)) := by
  unfold issue; (repeat' split) <;>
    simp (maxDischargeDepth := 40) +contextual [apply_ite quietOf, forAll_sound, foldl_sound, h0, hf]

@[simp] theorem stepFault_sound (t code : Nat) (s : State) (h0 : SoundQ p0 e0 k0 (quietOf s)) :
    SoundQ p0 e0 k0 (quietOf (stepFault t code s)) := by
  unfold stepFault; simp (maxDischargeDepth := 40) +contextual [apply_ite quietOf, forAll_sound, foldl_sound, h0]

@[simp] theorem spoilOp_sound (matrix : Bool) (t : Nat) (o : UnitOp) (s : State) (h0 : SoundQ p0 e0 k0 (quietOf s)) :
    SoundQ p0 e0 k0 (quietOf (spoilOp matrix t o s)) := by
  unfold spoilOp; simp (maxDischargeDepth := 40) +contextual [apply_ite quietOf, forAll_sound, foldl_sound, h0]

@[simp] theorem spoilUnits_sound (t : Nat) (d : Desc) (s : State) (h0 : SoundQ p0 e0 k0 (quietOf s)) :
    SoundQ p0 e0 k0 (quietOf (spoilUnits t d s)) := by
  unfold spoilUnits
  repeat' (first
    | (simp (maxDischargeDepth := 40) +contextual [apply_ite quietOf, forAll_sound, foldl_sound, h0]; done)
    | split | dsimp only | (refine forAll_sound _ ?_ _ ?_)
    | (refine foldl_sound _ ?_ _ ?_) | intro _
    | simp (maxDischargeDepth := 40) +contextual [apply_ite quietOf, forAll_sound, foldl_sound, h0])

@[simp] theorem matRun_sound (t : Nat) (m : MatStep) (p : MatPlaces) (s : State) (h0 : SoundQ p0 e0 k0 (quietOf s)) :
    SoundQ p0 e0 k0 (quietOf (matRun t m p s)) := by
  have hf : ∀ (f : State × Arith → Nat → State × Arith),
      (∀ q i, SoundQ p0 e0 k0 (quietOf q.1) → SoundQ p0 e0 k0 (quietOf (f q i).1)) →
      ∀ (l : List Nat) (q : State × Arith), SoundQ p0 e0 k0 (quietOf q.1) → SoundQ p0 e0 k0 (quietOf (l.foldl f q).1) := by
    intro f h l
    induction l with
    | nil => exact fun q hq => hq
    | cons a l ih => exact fun q hq => ih _ (h q a hq)
  unfold matRun
  dsimp only
  split
  · rw [keepArith_quiet]
    refine hf _ ?_ _ _ ?_
    · intro q i hq
      exact stepWrite_sound _ _ _ _ _ hq
    · simpa using h0
  · simpa using h0

@[simp] theorem matIssue_sound (t : Nat) (flaws : List Flaw) (st : BitVec 256) (s : State)
    (h0 : SoundQ p0 e0 k0 (quietOf s)) :
    SoundQ p0 e0 k0 (quietOf (matIssue t flaws st s)) := by
  unfold matIssue
  repeat' (first
    | (simp (maxDischargeDepth := 40) +contextual [apply_ite quietOf, forAll_sound, foldl_sound, h0]; done)
    | split | dsimp only | (refine forAll_sound _ ?_ _ ?_)
    | (refine foldl_sound _ ?_ _ ?_) | intro _
    | simp (maxDischargeDepth := 40) +contextual [apply_ite quietOf, forAll_sound, foldl_sound, h0])

@[simp] theorem vecStore_sound (t : Nat) (v : VecStep) (param : List Word) (r : VecResult) (s : State)
    (h0 : SoundQ p0 e0 k0 (quietOf s)) :
    SoundQ p0 e0 k0 (quietOf (vecStore t v param r s)) := by
  unfold vecStore; (repeat' split) <;>
    simp (maxDischargeDepth := 40) +contextual [apply_ite quietOf, forAll_sound, foldl_sound, h0]

@[simp] theorem vecIssue_sound (t : Nat) (flaws : List Flaw) (st : BitVec 256) (s : State)
    (h0 : SoundQ p0 e0 k0 (quietOf s)) :
    SoundQ p0 e0 k0 (quietOf (vecIssue t flaws st s)) := by
  unfold vecIssue
  repeat' (first
    | (simp (maxDischargeDepth := 40) +contextual [apply_ite quietOf, forAll_sound, foldl_sound, h0]; done)
    | split | dsimp only | (refine forAll_sound _ ?_ _ ?_)
    | (refine foldl_sound _ ?_ _ ?_) | intro _
    | simp (maxDischargeDepth := 40) +contextual [apply_ite quietOf, forAll_sound, foldl_sound, h0])

@[simp] theorem fabricPlanLoadCmd_refused (r : Req)
    (s : State) : quietOf (fabricPlanLoadCmd.refused r s) = quietOf s := (rfl)

@[simp] theorem fabricPlanLoadCmd_sound (r : Req) (s : State) (h0 : SoundQ p0 e0 k0 (quietOf s)) :
    SoundQ p0 e0 k0 (quietOf (fabricPlanLoadCmd.run r s).state) := by
  unfold fabricPlanLoadCmd
  simp (maxDischargeDepth := 40) +contextual [apply_ite quietOf, forAll_sound, foldl_sound, apply_ite Ans.state, h0]

@[simp] theorem routeLoadCmd_refused (r : Req) (s : State) : quietOf (routeLoadCmd.refused r s) = quietOf s := (rfl)

@[simp] theorem routeLoadCmd_sound (r : Req) (s : State) (h0 : SoundQ p0 e0 k0 (quietOf s)) :
    SoundQ p0 e0 k0 (quietOf (routeLoadCmd.run r s).state) := by
  unfold routeLoadCmd; dsimp only; (repeat' split) <;>
    simp (maxDischargeDepth := 40) +contextual [apply_ite quietOf, forAll_sound, foldl_sound, apply_ite Ans.state, h0]

@[simp] theorem eyeletDefineCmd_refused (r : Req)
    (s : State) : quietOf (eyeletDefineCmd.refused r s) = quietOf s := (rfl)

@[simp] theorem eyeletDefineCmd_sound (r : Req) (s : State) (h0 : SoundQ p0 e0 k0 (quietOf s)) :
    SoundQ p0 e0 k0 (quietOf (eyeletDefineCmd.run r s).state) := by
  unfold eyeletDefineCmd
  simp (maxDischargeDepth := 40) +contextual [apply_ite quietOf, forAll_sound, foldl_sound, apply_ite Ans.state, h0]

@[simp] theorem classWeightsCmd_refused (r : Req)
    (s : State) : quietOf (classWeightsCmd.refused r s) = quietOf s := (rfl)

@[simp] theorem classWeightsCmd_sound (r : Req) (s : State) (h0 : SoundQ p0 e0 k0 (quietOf s)) :
    SoundQ p0 e0 k0 (quietOf (classWeightsCmd.run r s).state) := by
  unfold classWeightsCmd
  simp (maxDischargeDepth := 40) +contextual [apply_ite quietOf, forAll_sound, foldl_sound, apply_ite Ans.state, h0]

@[simp] theorem fabricStatusCmd_refused (r : Req)
    (s : State) : quietOf (fabricStatusCmd.refused r s) = quietOf s := (rfl)

@[simp] theorem fabricStatusCmd_sound (r : Req) (s : State) (h0 : SoundQ p0 e0 k0 (quietOf s)) :
    SoundQ p0 e0 k0 (quietOf (fabricStatusCmd.run r s).state) := by
  unfold fabricStatusCmd
  simp (maxDischargeDepth := 40) +contextual [apply_ite quietOf, forAll_sound, foldl_sound, apply_ite Ans.state, h0]

@[simp] theorem fabricCountersCmd_refused (r : Req)
    (s : State) : quietOf (fabricCountersCmd.refused r s) = quietOf s := (rfl)

@[simp] theorem fabricCountersCmd_sound (r : Req) (s : State) (h0 : SoundQ p0 e0 k0 (quietOf s)) :
    SoundQ p0 e0 k0 (quietOf (fabricCountersCmd.run r s).state) := by
  unfold fabricCountersCmd
  simp (maxDischargeDepth := 40) +contextual [apply_ite quietOf, forAll_sound, foldl_sound, apply_ite Ans.state, h0]

@[simp] theorem placeWrite_sound (q : Request) (p : Place0) (bs : List Byte) (s : State)
    (h0 : SoundQ p0 e0 k0 (quietOf s)) :
    SoundQ p0 e0 k0 (quietOf (placeWrite q p bs s)) := by
  cases p with
  | dram l => exact piecesWrite_sound _ _ _ _ _ h0
  | sram t off => exact sramWrite_sound _ _ _ _ h0
  | _ => exact h0

@[simp] theorem applyRequest_sound (p : Pkt) (q : Request) (pl : Place0) (s : State)
    (h0 : SoundQ p0 e0 k0 (quietOf s)) :
    SoundQ p0 e0 k0 (quietOf (applyRequest p q pl s)) := by
  unfold applyRequest
  repeat' (first
    | (simp (maxDischargeDepth := 40) +contextual [apply_ite quietOf, forAll_sound, foldl_sound, h0]; done)
    | split | dsimp only | (refine forAll_sound _ ?_ _ ?_)
    | (refine foldl_sound _ ?_ _ ?_) | intro _
    | simp (maxDischargeDepth := 40) +contextual [apply_ite quietOf, forAll_sound, foldl_sound, h0])

@[simp] theorem applyPiece_sound (q : Request) (p : Nat × Nat × Nat × Nat) (s : State)
    (h0 : SoundQ p0 e0 k0 (quietOf s)) :
    SoundQ p0 e0 k0 (quietOf (applyPiece q p s)) := by
  unfold applyPiece; (repeat' split) <;>
    simp (maxDischargeDepth := 40) +contextual [apply_ite quietOf, forAll_sound, foldl_sound, h0]

@[simp] theorem performPieces_sound (p : Pkt) (q : Request) (l : List (Nat × Nat × Nat)) (left : List Nat) (at0 no : Nat)
    (s : State) (h0 : SoundQ p0 e0 k0 (quietOf s)) :
    SoundQ p0 e0 k0 (quietOf (performPieces p q l left at0 no s)) := by
  have h1 : ∀ go : List (Nat × Nat × Nat × Nat × Nat),
      SoundQ p0 e0 k0 (quietOf (forAll go (fun x => holdEnded (piecePage x.2) at0) s)) := by
    intro go
    rw [forAll_quiet _ (fun x s => holdEnded_quiet _ _ s)]
    exact h0
  unfold performPieces
  dsimp only
  split
  · exact applyRequest_sound _ _ _ _ (h1 _)
  · split
    · rw [refuse_quiet, piecesTouch_quiet]; exact h1 _
    · have h2 : ∀ go : List (Nat × Nat × Nat × Nat × Nat), SoundQ p0 e0 k0 (quietOf (forAll go
          (fun x => applyPiece q x.2) (forAll go (fun x => holdEnded (piecePage x.2) at0) s))) := fun go =>
        forAll_sound _ (fun x s h => applyPiece_sound _ _ _ h) _ (h1 go)
      split
      · rw [respond_quiet]; exact h2 _
      · rw [holdAt_quiet]; exact h2 _


@[simp] theorem holdRequest_sound (p : Pkt) (q : Request) (pl : Place0) (s : State) (h0 : SoundQ p0 e0 k0 (quietOf s)) :
    SoundQ p0 e0 k0 (quietOf (holdRequest p q pl s)) := by
  unfold holdRequest; (repeat' split) <;>
    simp (maxDischargeDepth := 40) +contextual [apply_ite quietOf, forAll_sound, foldl_sound, h0]

@[simp] theorem serveRequest_sound (p : Pkt) (s : State) (h0 : SoundQ p0 e0 k0 (quietOf s)) :
    SoundQ p0 e0 k0 (quietOf (serveRequest p s)) := by
  unfold serveRequest
  repeat' (first
    | (simp (maxDischargeDepth := 40) +contextual [apply_ite quietOf, forAll_sound, foldl_sound, h0]; done)
    | split | dsimp only | (refine forAll_sound _ ?_ _ ?_)
    | (refine foldl_sound _ ?_ _ ?_) | intro _
    | simp (maxDischargeDepth := 40) +contextual [apply_ite quietOf, forAll_sound, foldl_sound, h0])

@[simp] theorem requestReceive_sound (flaws : List Flaw) (s : State) (h0 : SoundQ p0 e0 k0 (quietOf s)) :
    SoundQ p0 e0 k0 (quietOf (requestReceive flaws s)) := by
  unfold requestReceive
  repeat' (first
    | (simp (maxDischargeDepth := 40) +contextual [apply_ite quietOf, forAll_sound, foldl_sound, h0]; done)
    | split | dsimp only | (refine forAll_sound _ ?_ _ ?_)
    | (refine foldl_sound _ ?_ _ ?_) | intro _
    | simp (maxDischargeDepth := 40) +contextual [apply_ite quietOf, forAll_sound, foldl_sound, h0])

@[simp] theorem releaseHit_sound (h : HeldWrite) (s : State) (h0 : SoundQ p0 e0 k0 (quietOf s)) :
    SoundQ p0 e0 k0 (quietOf (releaseHit h s)) := by
  unfold releaseHit
  repeat' (first
    | (simp (maxDischargeDepth := 40) +contextual [apply_ite quietOf, forAll_sound, foldl_sound, h0]; done)
    | split | dsimp only | (refine forAll_sound _ ?_ _ ?_)
    | (refine foldl_sound _ ?_ _ ?_) | intro _
    | simp (maxDischargeDepth := 40) +contextual [apply_ite quietOf, forAll_sound, foldl_sound, h0])

@[simp] theorem mapWindowCmd_refused (r : Req) (s : State) : quietOf (mapWindowCmd.refused r s) = quietOf s := (rfl)

@[simp] theorem mapWindowCmd_sound (r : Req) (s : State) (h0 : SoundQ p0 e0 k0 (quietOf s)) :
    SoundQ p0 e0 k0 (quietOf (mapWindowCmd.run r s).state) := by
  unfold mapWindowCmd
  simp (maxDischargeDepth := 40) +contextual [apply_ite quietOf, forAll_sound, foldl_sound, apply_ite Ans.state, h0]

@[simp] theorem hitWrite_sound (p : Place0) (bs : List Byte) (s : State) (h0 : SoundQ p0 e0 k0 (quietOf s)) :
    SoundQ p0 e0 k0 (quietOf (hitWrite p bs s)) := by
  cases p with
  | dram l => exact piecesWrite_sound _ _ _ _ _ (by simpa using h0)
  | sram t off => exact sramWrite_sound _ _ _ _ h0
  | _ => exact h0

@[simp] theorem winWrite_sound (w : HeldBar2) (s : State) (h0 : SoundQ p0 e0 k0 (quietOf s)) :
    SoundQ p0 e0 k0 (quietOf (winWrite w s)) := by
  unfold winWrite
  repeat' (first
    | (simp (maxDischargeDepth := 40) +contextual [apply_ite quietOf, forAll_sound, foldl_sound, h0]; done)
    | split | dsimp only | (refine forAll_sound _ ?_ _ ?_)
    | (refine foldl_sound _ ?_ _ ?_) | intro _
    | simp (maxDischargeDepth := 40) +contextual [apply_ite quietOf, forAll_sound, foldl_sound, h0])

@[simp] theorem retryWhere_sound (p : HeldBar2 → Bool) (s : State) (h0 : SoundQ p0 e0 k0 (quietOf s)) :
    SoundQ p0 e0 k0 (quietOf (retryWhere p s)) := by
  unfold retryWhere
  repeat' (first
    | (simp (maxDischargeDepth := 40) +contextual [apply_ite quietOf, forAll_sound, foldl_sound, h0]; done)
    | split | dsimp only | (refine forAll_sound _ ?_ _ ?_)
    | (refine foldl_sound _ ?_ _ ?_) | intro _
    | simp (maxDischargeDepth := 40) +contextual [apply_ite quietOf, forAll_sound, foldl_sound, h0])

@[simp] theorem retryWindows_sound (s : State) (h0 : SoundQ p0 e0 k0 (quietOf s)) :
    SoundQ p0 e0 k0 (quietOf (retryWindows s)) := by
  unfold retryWindows; simp (maxDischargeDepth := 40) +contextual [apply_ite quietOf, forAll_sound, foldl_sound, h0]

@[simp] theorem releasePage_sound (page : Nat) (s : State) (h0 : SoundQ p0 e0 k0 (quietOf s)) :
    SoundQ p0 e0 k0 (quietOf (releasePage page s)) := by
  unfold releasePage; simp (maxDischargeDepth := 40) +contextual [apply_ite quietOf, forAll_sound, foldl_sound, h0]

@[simp] theorem releaseHeld_sound (s : State) (h0 : SoundQ p0 e0 k0 (quietOf s)) :
    SoundQ p0 e0 k0 (quietOf (releaseHeld s)) := by
  unfold releaseHeld; simp (maxDischargeDepth := 40) +contextual [apply_ite quietOf, forAll_sound, foldl_sound, h0]

@[simp] theorem copyFail_sound (cause err : Nat) (s : State) (h0 : SoundQ p0 e0 k0 (quietOf s)) :
    SoundQ p0 e0 k0 (quietOf (copyFail cause err s)) := by
  unfold copyFail; (repeat' split) <;>
    simp (maxDischargeDepth := 40) +contextual [apply_ite quietOf, forAll_sound, foldl_sound, h0]

@[simp] theorem stagePage_sound (k : Nat) (s : State) (h0 : SoundQ p0 e0 k0 (quietOf s)) :
    SoundQ p0 e0 k0 (quietOf (stagePage k s)) := by
  unfold stagePage
  repeat' (first
    | (simp (maxDischargeDepth := 40) +contextual [apply_ite quietOf, forAll_sound, foldl_sound, h0]; done)
    | split | dsimp only | (refine forAll_sound _ ?_ _ ?_)
    | (refine foldl_sound _ ?_ _ ?_) | intro _
    | simp (maxDischargeDepth := 40) +contextual [apply_ite quietOf, forAll_sound, foldl_sound, h0])

@[simp] theorem freeUndelivered_sound (x : SEntry) (s : State) (h0 : SoundQ p0 e0 k0 (quietOf s)) :
    SoundQ p0 e0 k0 (quietOf (freeUndelivered x s)) := by
  unfold freeUndelivered
  repeat' (first
    | (simp (maxDischargeDepth := 40) +contextual [apply_ite quietOf, forAll_sound, foldl_sound, h0]; done)
    | split | dsimp only | (refine forAll_sound _ ?_ _ ?_)
    | (refine foldl_sound _ ?_ _ ?_) | intro _
    | simp (maxDischargeDepth := 40) +contextual [apply_ite quietOf, forAll_sound, foldl_sound, h0])

@[simp] theorem failOp_sound (e : Nat) (q : Option Nat) (s : State) (h0 : SoundQ p0 e0 k0 (quietOf s)) :
    SoundQ p0 e0 k0 (quietOf (failOp e q s)) := by
  unfold failOp
  repeat' (first
    | (simp (maxDischargeDepth := 40) +contextual [apply_ite quietOf, forAll_sound, foldl_sound, h0]; done)
    | split | dsimp only | (refine forAll_sound _ ?_ _ ?_)
    | (refine foldl_sound _ ?_ _ ?_) | intro _
    | simp (maxDischargeDepth := 40) +contextual [apply_ite quietOf, forAll_sound, foldl_sound, h0])

@[simp] theorem recordError_sound (e code : Nat) (s : State) (h0 : SoundQ p0 e0 k0 (quietOf s)) :
    SoundQ p0 e0 k0 (quietOf (recordError e code s)) := by
  unfold recordError
  repeat' (first
    | (simp (maxDischargeDepth := 40) +contextual [apply_ite quietOf, forAll_sound, foldl_sound, h0]; done)
    | split | dsimp only | (refine forAll_sound _ ?_ _ ?_)
    | (refine foldl_sound _ ?_ _ ?_) | intro _
    | simp (maxDischargeDepth := 40) +contextual [apply_ite quietOf, forAll_sound, foldl_sound, h0])

@[simp] theorem takeEntry_sound (e who step purpose : Nat) (d : Desc) (s : State) (h0 : SoundQ p0 e0 k0 (quietOf s)) :
    SoundQ p0 e0 k0 (quietOf (takeEntry e who step purpose d s)) := by
  unfold takeEntry
  repeat' (first
    | (simp (maxDischargeDepth := 40) +contextual [apply_ite quietOf, forAll_sound, foldl_sound, h0]; done)
    | split | dsimp only | (refine forAll_sound _ ?_ _ ?_)
    | (refine foldl_sound _ ?_ _ ?_) | intro _
    | simp (maxDischargeDepth := 40) +contextual [apply_ite quietOf, forAll_sound, foldl_sound, h0])

@[simp] theorem startOp_sound (e who step purpose : Nat) (d : Desc) (s : State) (h0 : SoundQ p0 e0 k0 (quietOf s)) :
    SoundQ p0 e0 k0 (quietOf (startOp e who step purpose d s)) := by
  unfold startOp
  repeat' (first
    | (simp (maxDischargeDepth := 40) +contextual [apply_ite quietOf, forAll_sound, foldl_sound, h0]; done)
    | split | dsimp only | (refine forAll_sound _ ?_ _ ?_)
    | (refine foldl_sound _ ?_ _ ?_) | intro _
    | simp (maxDischargeDepth := 40) +contextual [apply_ite quietOf, forAll_sound, foldl_sound, h0])

@[simp] theorem stitchIssue_sound (t : Nat) (st : BitVec 256) (s : State) (h0 : SoundQ p0 e0 k0 (quietOf s)) :
    SoundQ p0 e0 k0 (quietOf (stitchIssue t st s)) := by
  unfold stitchIssue
  repeat' (first
    | (simp (maxDischargeDepth := 40) +contextual [apply_ite quietOf, forAll_sound, foldl_sound, h0]; done)
    | split | dsimp only | (refine forAll_sound _ ?_ _ ?_)
    | (refine foldl_sound _ ?_ _ ?_) | intro _
    | simp (maxDischargeDepth := 40) +contextual [apply_ite quietOf, forAll_sound, foldl_sound, h0])

@[simp] theorem grantTo_sound (e : Nat) (w : Waiter) (s : State) (h0 : SoundQ p0 e0 k0 (quietOf s)) :
    SoundQ p0 e0 k0 (quietOf (grantTo e w s)) := by
  unfold grantTo; simp (maxDischargeDepth := 40) +contextual [apply_ite quietOf, forAll_sound, foldl_sound, h0]

@[simp] theorem poolGrant_sound (s : State) (h0 : SoundQ p0 e0 k0 (quietOf s)) :
    SoundQ p0 e0 k0 (quietOf (poolGrant s)) := by
  unfold poolGrant
  repeat' (first
    | (simp (maxDischargeDepth := 40) +contextual [apply_ite quietOf, forAll_sound, foldl_sound, h0]; done)
    | split | dsimp only | (refine forAll_sound _ ?_ _ ?_)
    | (refine foldl_sound _ ?_ _ ?_) | intro _
    | simp (maxDischargeDepth := 40) +contextual [apply_ite quietOf, forAll_sound, foldl_sound, h0])

@[simp] theorem entryGrant_sound (s : State) (h0 : SoundQ p0 e0 k0 (quietOf s)) :
    SoundQ p0 e0 k0 (quietOf (entryGrant s)) := by
  unfold entryGrant; (repeat' split) <;>
    simp (maxDischargeDepth := 40) +contextual [apply_ite quietOf, forAll_sound, foldl_sound, h0]

@[simp] theorem sendPart_sound (e part dest : Nat) (s : State) (h0 : SoundQ p0 e0 k0 (quietOf s)) :
    SoundQ p0 e0 k0 (quietOf (sendPart e part dest s)) := by
  unfold sendPart
  repeat' (first
    | (simp (maxDischargeDepth := 40) +contextual [apply_ite quietOf, forAll_sound, foldl_sound, h0]; done)
    | split | dsimp only | (refine forAll_sound _ ?_ _ ?_)
    | (refine foldl_sound _ ?_ _ ?_) | intro _
    | simp (maxDischargeDepth := 40) +contextual [apply_ite quietOf, forAll_sound, foldl_sound, h0])

@[simp] theorem segmentSend_sound (e part : Nat) (s : State) (h0 : SoundQ p0 e0 k0 (quietOf s)) :
    SoundQ p0 e0 k0 (quietOf (segmentSend e part s)) := by
  unfold segmentSend
  repeat' (first
    | (simp (maxDischargeDepth := 40) +contextual [apply_ite quietOf, forAll_sound, foldl_sound, h0]; done)
    | split | dsimp only | (refine forAll_sound _ ?_ _ ?_)
    | (refine foldl_sound _ ?_ _ ?_) | intro _
    | simp (maxDischargeDepth := 40) +contextual [apply_ite quietOf, forAll_sound, foldl_sound, h0])

@[simp] theorem readArrives_sound (x : SEntry) (part : Nat) (bs : List Byte) (s : State)
    (h0 : SoundQ p0 e0 k0 (quietOf s)) :
    SoundQ p0 e0 k0 (quietOf (readArrives x part bs s)) := by
  unfold readArrives; (repeat' split) <;>
    simp (maxDischargeDepth := 40) +contextual [apply_ite quietOf, forAll_sound, foldl_sound, h0]

@[simp] theorem acceptPart_sound (e part status : Nat) (payload : List Byte) (s : State)
    (h0 : SoundQ p0 e0 k0 (quietOf s)) : SoundQ p0 e0 k0 (quietOf (acceptPart e part status payload s)) := by
  have h1 : SoundQ p0 e0 k0 (quietOf (modEntry e (fun x => { x with done := x.done ++ [part] }) s)) := by
    rw [modEntry_quiet]; exact h0
  unfold acceptPart
  generalize modEntry e (fun x => { x with done := x.done ++ [part] }) s = u at h1
  dsimp only
  split
  · refine recordError_sound _ _ _ ?_
    split
    · exact freeRanges_sound _ _ _ h1
    · exact h1
  · have h2 : ∀ (b : Bool) (n : Nat), SoundQ p0 e0 k0 (quietOf
        (if b then sramWrite (entryOf u e).desc.tile ((entryOf u e).desc.localOff + 4096 * part) (payload.take n) u
         else if (entryOf u e).desc.op = 3 then readArrives (entryOf u e) part (payload.take n) u else u)) := by
      intro b n
      split
      · exact sramWrite_sound _ _ _ _ h1
      · split
        · exact readArrives_sound _ _ _ _ h1
        · exact h1
    have h3 : ∀ v : State, SoundQ p0 e0 k0 (quietOf v) → SoundQ p0 e0 k0 (quietOf
        (if (entryOf v e).error ≠ 0 then recordError e (entryOf v e).error v
         else if (partsOf (entryOf u e).desc).all (fun k => (entryOf v e).done.contains k) then completeOp e v
         else if (entryOf u e).desc.op = 2 then segmentSend e 16 v else v)) := by
      intro v hv
      split
      · exact recordError_sound _ _ _ hv
      · split
        · rw [completeOp_quiet]; exact hv
        · split
          · exact segmentSend_sound _ _ _ hv
          · exact hv
    exact h3 _ (h2 _ _)

@[simp] theorem responseReceive_sound (s : State) (h0 : SoundQ p0 e0 k0 (quietOf s)) :
    SoundQ p0 e0 k0 (quietOf (responseReceive s)) := by
  unfold responseReceive
  repeat' (first
    | (simp (maxDischargeDepth := 40) +contextual [apply_ite quietOf, forAll_sound, foldl_sound, h0]; done)
    | split | dsimp only | (refine forAll_sound _ ?_ _ ?_)
    | (refine foldl_sound _ ?_ _ ?_) | intro _
    | simp (maxDischargeDepth := 40) +contextual [apply_ite quietOf, forAll_sound, foldl_sound, h0])

@[simp] theorem stitchTimeout_sound (e : Nat) (s : State) (h0 : SoundQ p0 e0 k0 (quietOf s)) :
    SoundQ p0 e0 k0 (quietOf (stitchTimeout e s)) := by
  unfold stitchTimeout
  repeat' (first
    | (simp (maxDischargeDepth := 40) +contextual [apply_ite quietOf, forAll_sound, foldl_sound, h0]; done)
    | split | dsimp only | (refine forAll_sound _ ?_ _ ?_)
    | (refine foldl_sound _ ?_ _ ?_) | intro _
    | simp (maxDischargeDepth := 40) +contextual [apply_ite quietOf, forAll_sound, foldl_sound, h0])

@[simp] theorem waitTimeout_sound (t : Nat) (s : State) (h0 : SoundQ p0 e0 k0 (quietOf s)) :
    SoundQ p0 e0 k0 (quietOf (waitTimeout t s)) := by
  unfold waitTimeout; (repeat' split) <;>
    simp (maxDischargeDepth := 40) +contextual [apply_ite quietOf, forAll_sound, foldl_sound, h0]

@[simp] theorem timewaitIssue_sound (t : Nat) (st : BitVec 256) (s : State) (h0 : SoundQ p0 e0 k0 (quietOf s)) :
    SoundQ p0 e0 k0 (quietOf (timewaitIssue t st s)) := by
  unfold timewaitIssue
  repeat' (first
    | (simp (maxDischargeDepth := 40) +contextual [apply_ite quietOf, forAll_sound, foldl_sound, h0]; done)
    | split | dsimp only | (refine forAll_sound _ ?_ _ ?_)
    | (refine foldl_sound _ ?_ _ ?_) | intro _
    | simp (maxDischargeDepth := 40) +contextual [apply_ite quietOf, forAll_sound, foldl_sound, h0])

@[simp] theorem fenceAct_sound (t bits line : Nat) (s : State) (h0 : SoundQ p0 e0 k0 (quietOf s)) :
    SoundQ p0 e0 k0 (quietOf (fenceAct t bits line s)) := by
  unfold fenceAct; (repeat' split) <;>
    simp (maxDischargeDepth := 40) +contextual [apply_ite quietOf, forAll_sound, foldl_sound, h0]

@[simp] theorem fenceIssue_sound (t : Nat) (st : BitVec 256) (s : State) (h0 : SoundQ p0 e0 k0 (quietOf s)) :
    SoundQ p0 e0 k0 (quietOf (fenceIssue t st s)) := by
  unfold fenceIssue
  repeat' (first
    | (simp (maxDischargeDepth := 40) +contextual [apply_ite quietOf, forAll_sound, foldl_sound, h0]; done)
    | split | dsimp only | (refine forAll_sound _ ?_ _ ?_)
    | (refine foldl_sound _ ?_ _ ?_) | intro _
    | simp (maxDischargeDepth := 40) +contextual [apply_ite quietOf, forAll_sound, foldl_sound, h0])

@[simp] theorem fenceRelease_sound (t : Nat) (s : State) (h0 : SoundQ p0 e0 k0 (quietOf s)) :
    SoundQ p0 e0 k0 (quietOf (fenceRelease t s)) := by
  unfold fenceRelease; (repeat' split) <;>
    simp (maxDischargeDepth := 40) +contextual [apply_ite quietOf, forAll_sound, foldl_sound, h0]

@[simp] theorem prepareTile_sound (t : Nat) (seed ns : Word) (p : Pattern) (s : State)
    (h0 : SoundQ p0 e0 k0 (quietOf s)) :
    SoundQ p0 e0 k0 (quietOf (prepareTile t seed ns p s)) := by
  unfold prepareTile; (repeat' split) <;>
    simp (maxDischargeDepth := 40) +contextual [apply_ite quietOf, forAll_sound, foldl_sound, h0]

@[simp] theorem startJob_sound (j : Nat) (ns : Word) (s : State) (h0 : SoundQ p0 e0 k0 (quietOf s)) :
    SoundQ p0 e0 k0 (quietOf (startJob j ns s)) := by
  unfold startJob
  dsimp only
  rw [jobDone_quiet, reevaluate_quiet, raise_quiet, changeStatus_quiet, modJob_quiet]
  refine forAll_sound _ ?_ _ h0
  intro t u hu
  split
  · exact prepareTile_sound _ _ _ _ _ hu
  · exact hu

@[simp] theorem jobStartInstant_sound (j : Nat) (s : State) (h0 : SoundQ p0 e0 k0 (quietOf s)) :
    SoundQ p0 e0 k0 (quietOf (jobStartInstant j s)) := by
  unfold jobStartInstant
  repeat' (first
    | (simp (maxDischargeDepth := 40) +contextual [apply_ite quietOf, forAll_sound, foldl_sound, h0]; done)
    | split | dsimp only | (refine forAll_sound _ ?_ _ ?_)
    | (refine foldl_sound _ ?_ _ ?_) | intro _
    | simp (maxDischargeDepth := 40) +contextual [apply_ite quietOf, forAll_sound, foldl_sound, h0])

@[simp] theorem jobDefineCmd_refused (r : Req) (s : State) : quietOf (jobDefineCmd.refused r s) = quietOf s := (rfl)

@[simp] theorem jobDefineCmd_sound (r : Req) (s : State) (h0 : SoundQ p0 e0 k0 (quietOf s)) :
    SoundQ p0 e0 k0 (quietOf (jobDefineCmd.run r s).state) := by
  unfold jobDefineCmd
  simp (maxDischargeDepth := 40) +contextual [apply_ite quietOf, forAll_sound, foldl_sound, apply_ite Ans.state, h0]

@[simp] theorem jobLoadPatternCmd_refused (r : Req)
    (s : State) : quietOf (jobLoadPatternCmd.refused r s) = quietOf s := (rfl)

@[simp] theorem jobLoadPatternCmd_sound (r : Req) (s : State) (h0 : SoundQ p0 e0 k0 (quietOf s)) :
    SoundQ p0 e0 k0 (quietOf (jobLoadPatternCmd.run r s).state) := by
  unfold jobLoadPatternCmd; dsimp only; (repeat' split) <;>
    simp (maxDischargeDepth := 40) +contextual [apply_ite quietOf, forAll_sound, foldl_sound, apply_ite Ans.state, h0]

@[simp] theorem jobStartCmd_refused (r : Req) (s : State) : quietOf (jobStartCmd.refused r s) = quietOf s := (rfl)

@[simp] theorem jobStartCmd_sound (r : Req) (s : State) (h0 : SoundQ p0 e0 k0 (quietOf s)) :
    SoundQ p0 e0 k0 (quietOf (jobStartCmd.run r s).state) := by
  unfold jobStartCmd
  dsimp only
  split
  · split
    · exact h0
    · next h => simpa using armWith_sound h0 h
  · exact startJob_sound _ _ _ h0

@[simp] theorem jobStopCmd_refused (r : Req) (s : State) : quietOf (jobStopCmd.refused r s) = quietOf s := (rfl)

@[simp] theorem jobStopCmd_sound (r : Req) (s : State) (h0 : SoundQ p0 e0 k0 (quietOf s)) :
    SoundQ p0 e0 k0 (quietOf (jobStopCmd.run r s).state) := by
  unfold jobStopCmd; dsimp only; (repeat' split) <;>
    simp (maxDischargeDepth := 40) +contextual [apply_ite quietOf, forAll_sound, foldl_sound, apply_ite Ans.state, h0]

@[simp] theorem jobStatusCmd_refused (r : Req) (s : State) : quietOf (jobStatusCmd.refused r s) = quietOf s := (rfl)

@[simp] theorem jobStatusCmd_sound (r : Req) (s : State) (h0 : SoundQ p0 e0 k0 (quietOf s)) :
    SoundQ p0 e0 k0 (quietOf (jobStatusCmd.run r s).state) := by
  unfold jobStatusCmd
  simp (maxDischargeDepth := 40) +contextual [apply_ite quietOf, forAll_sound, foldl_sound, apply_ite Ans.state, h0]

@[simp] theorem jobTallyReadCmd_refused (r : Req)
    (s : State) : quietOf (jobTallyReadCmd.refused r s) = quietOf s := (rfl)

@[simp] theorem jobTallyReadCmd_sound (r : Req) (s : State) (h0 : SoundQ p0 e0 k0 (quietOf s)) :
    SoundQ p0 e0 k0 (quietOf (jobTallyReadCmd.run r s).state) := by
  unfold jobTallyReadCmd; dsimp only; (repeat' split) <;>
    simp (maxDischargeDepth := 40) +contextual [apply_ite quietOf, forAll_sound, foldl_sound, apply_ite Ans.state, h0]

@[simp] theorem monitorReadCmd_refused (r : Req) (s : State) : quietOf (monitorReadCmd.refused r s) = quietOf s := (rfl)

@[simp] theorem monitorReadCmd_sound (r : Req) (s : State) (h0 : SoundQ p0 e0 k0 (quietOf s)) :
    SoundQ p0 e0 k0 (quietOf (monitorReadCmd.run r s).state) := by
  unfold monitorReadCmd
  simp (maxDischargeDepth := 40) +contextual [apply_ite quietOf, forAll_sound, foldl_sound, apply_ite Ans.state, h0]

@[simp] theorem calRunCmd_refused (r : Req) (s : State) : quietOf (calRunCmd.refused r s) = quietOf s := (rfl)

@[simp] theorem calRunCmd_sound (r : Req) (s : State) (h0 : SoundQ p0 e0 k0 (quietOf s)) :
    SoundQ p0 e0 k0 (quietOf (calRunCmd.run r s).state) := by
  unfold calRunCmd
  simp (maxDischargeDepth := 40) +contextual [apply_ite quietOf, forAll_sound, foldl_sound, apply_ite Ans.state, h0]

@[simp] theorem calStatusCmd_refused (r : Req) (s : State) : quietOf (calStatusCmd.refused r s) = quietOf s := (rfl)

@[simp] theorem calStatusCmd_sound (r : Req) (s : State) (h0 : SoundQ p0 e0 k0 (quietOf s)) :
    SoundQ p0 e0 k0 (quietOf (calStatusCmd.run r s).state) := by
  unfold calStatusCmd
  simp (maxDischargeDepth := 40) +contextual [apply_ite quietOf, forAll_sound, foldl_sound, apply_ite Ans.state, h0]

@[simp] theorem regionDeclareCmd_refused (r : Req)
    (s : State) : quietOf (regionDeclareCmd.refused r s) = quietOf s := (rfl)

@[simp] theorem regionDeclareCmd_sound (r : Req) (s : State) (h0 : SoundQ p0 e0 k0 (quietOf s)) :
    SoundQ p0 e0 k0 (quietOf (regionDeclareCmd.run r s).state) := by
  unfold regionDeclareCmd
  simp (maxDischargeDepth := 40) +contextual [apply_ite quietOf, forAll_sound, foldl_sound, apply_ite Ans.state, h0]

@[simp] theorem roleDeclareCmd_refused (r : Req) (s : State) : quietOf (roleDeclareCmd.refused r s) = quietOf s := (rfl)

@[simp] theorem roleDeclareCmd_sound (r : Req) (s : State) (h0 : SoundQ p0 e0 k0 (quietOf s)) :
    SoundQ p0 e0 k0 (quietOf (roleDeclareCmd.run r s).state) := by
  unfold roleDeclareCmd
  simp (maxDischargeDepth := 40) +contextual [apply_ite quietOf, forAll_sound, foldl_sound, apply_ite Ans.state, h0]

@[simp] theorem regionPinCmd_refused (r : Req) (s : State) : quietOf (regionPinCmd.refused r s) = quietOf s := (rfl)

@[simp] theorem regionPinCmd_sound (r : Req) (s : State) (h0 : SoundQ p0 e0 k0 (quietOf s)) :
    SoundQ p0 e0 k0 (quietOf (regionPinCmd.run r s).state) := by
  unfold regionPinCmd; dsimp only; (repeat' split) <;>
    simp (maxDischargeDepth := 40) +contextual [apply_ite quietOf, forAll_sound, foldl_sound, apply_ite Ans.state, h0]

@[simp] theorem rolePinCmd_refused (r : Req) (s : State) : quietOf (rolePinCmd.refused r s) = quietOf s := (rfl)

@[simp] theorem rolePinCmd_sound (r : Req) (s : State) (h0 : SoundQ p0 e0 k0 (quietOf s)) :
    SoundQ p0 e0 k0 (quietOf (rolePinCmd.run r s).state) := by
  unfold rolePinCmd
  simp (maxDischargeDepth := 40) +contextual [apply_ite quietOf, forAll_sound, foldl_sound, apply_ite Ans.state, h0]

theorem tryAll_sound {β : Type} (f : β → State → Try)
    (hf : ∀ x s u, SoundQ p0 e0 k0 (quietOf s) → f x s = .ok u → SoundQ p0 e0 k0 (quietOf u)) (l : List β) {s u : State}
    (h0 : SoundQ p0 e0 k0 (quietOf s)) (h : tryAll l f s = .ok u) : SoundQ p0 e0 k0 (quietOf u) := by
  induction l generalizing s with
  | nil => cases h; exact h0
  | cons x l ih =>
    unfold tryAll at h
    split at h
    · next v hv => exact ih (hf _ _ _ h0 hv) h
    · cases h

theorem tryThen_sound {a : Try} {f : State → Try} {u : State} (ha : ∀ v, a = .ok v → SoundQ p0 e0 k0 (quietOf v))
    (hf : ∀ v w, SoundQ p0 e0 k0 (quietOf v) → f v = .ok w → SoundQ p0 e0 k0 (quietOf w)) (h : tryThen a f = .ok u) :
    SoundQ p0 e0 k0 (quietOf u) := by
  unfold tryThen at h
  split at h
  · next v => exact hf _ _ (ha v rfl) h
  · cases h

theorem reserveStorage_sound (j : Nat) (p : Nat × Nat) (s u : State) (h0 : SoundQ p0 e0 k0 (quietOf s))
    (h : reserveStorage j p s = .ok u) : SoundQ p0 e0 k0 (quietOf u) := by
  unfold reserveStorage at h
  dsimp only at h
  split at h
  · cases h; simpa using h0
  · split at h
    · cases h; exact h0
    · cases h

theorem bindPinned_sound (j role : Nat) (s u : State) (h0 : SoundQ p0 e0 k0 (quietOf s))
    (h : bindPinned j role s = .ok u) : SoundQ p0 e0 k0 (quietOf u) := by
  unfold bindPinned at h
  split at h
  · split at h
    · cases h; simpa using h0
    · cases h
  · cases h; exact h0

theorem bindFree_sound (j role : Nat) (s u : State) (h0 : SoundQ p0 e0 k0 (quietOf s))
    (h : bindFree j role s = .ok u) : SoundQ p0 e0 k0 (quietOf u) := by
  unfold bindFree at h
  split at h
  · cases h; simpa using h0
  · cases h

@[simp] theorem putRegion_sound (j k : Nat) (x : Region) (pa : Nat) (s : State) (h0 : SoundQ p0 e0 k0 (quietOf s)) :
    SoundQ p0 e0 k0 (quietOf (putRegion j k x pa s)) := by
  unfold putRegion; (repeat' split) <;>
    simp (maxDischargeDepth := 40) +contextual [apply_ite quietOf, forAll_sound, foldl_sound, h0]

theorem putInTile_sound {j k : Nat} {x : Region} {t off : Nat} {s u : State} (h0 : SoundQ p0 e0 k0 (quietOf s))
    (h : putInTile j k x t off s = .ok u) : SoundQ p0 e0 k0 (quietOf u) := by
  unfold putInTile at h
  split at h
  · cases h; exact putRegion_sound _ _ _ _ _ h0
  · cases h

theorem placePinned_sound (j : Nat) (e : Nat × Region) (s u : State) (h0 : SoundQ p0 e0 k0 (quietOf s))
    (h : placePinned j e s = .ok u) : SoundQ p0 e0 k0 (quietOf u) := by
  unfold placePinned at h
  dsimp only at h
  split at h
  · cases h; exact h0
  · split at h
    · exact putInTile_sound h0 h
    · cases h
  · exact putInTile_sound h0 h
  · split at h
    · cases h
    · split at h
      · cases h
      · cases h; exact putRegion_sound _ _ _ _ _ h0

theorem placeSram_sound (j : Nat) (e : Nat × Region) (s u : State) (h0 : SoundQ p0 e0 k0 (quietOf s))
    (h : placeSram j e s = .ok u) : SoundQ p0 e0 k0 (quietOf u) := by
  unfold placeSram at h
  dsimp only at h
  split at h
  · exact putInTile_sound h0 h
  · split at h
    · exact putInTile_sound (by simpa using h0) h
    · cases h

theorem placeDram_sound (j : Nat) (e : Nat × Region) (s u : State) (h0 : SoundQ p0 e0 k0 (quietOf s))
    (h : placeDram j e s = .ok u) : SoundQ p0 e0 k0 (quietOf u) := by
  unfold placeDram at h
  dsimp only at h
  split at h
  · cases h; exact putRegion_sound _ _ _ _ _ h0
  · cases h

theorem tileCheck_sound (j : Nat) (s u : State) (h0 : SoundQ p0 e0 k0 (quietOf s)) (h : tileCheck j s = .ok u) :
    SoundQ p0 e0 k0 (quietOf u) := by
  unfold tileCheck at h
  dsimp only at h
  split at h
  · cases h; exact h0
  · cases h

theorem formDirectory_sound (j : Nat) (s u : State) (h0 : SoundQ p0 e0 k0 (quietOf s)) (h : formDirectory j s = .ok u) :
    SoundQ p0 e0 k0 (quietOf u) := by
  unfold formDirectory at h
  dsimp only at h
  split at h
  · cases h
  · cases h
    rw [modJob_quiet]
    refine forAll_sound _ ?_ _ (forAll_sound _ ?_ _ h0)
    · intro e s hs; split <;> simpa using hs
    · intro e s hs; split <;> simpa using hs

theorem enterLedger_sound (tag : Word) (mods : List Nat) (s u : State) (h0 : SoundQ p0 e0 k0 (quietOf s))
    (h : enterLedger tag mods s = .ok u) : SoundQ p0 e0 k0 (quietOf u) := by
  unfold enterLedger at h
  dsimp only at h
  split at h
  · cases h
  · split at h
    · cases h
    · cases h; exact h0

theorem placeSteps_sound (j : Nat) (mods : List Nat) (s u : State) (h0 : SoundQ p0 e0 k0 (quietOf s))
    (h : placeSteps j mods s = .ok u) : SoundQ p0 e0 k0 (quietOf u) := by
  unfold placeSteps at h
  refine tryThen_sound (fun v hv => tryThen_sound (fun v hv => tryThen_sound (fun v hv => tryThen_sound (fun v hv =>
    tryThen_sound (fun v hv => tryThen_sound (fun v hv => tryThen_sound (fun v hv => tryThen_sound (fun v hv => ?_)
    ?_ hv) ?_ hv) ?_ hv) ?_ hv) ?_ hv) ?_ hv) ?_ hv) ?_ h
  · exact tryAll_sound _ (reserveStorage_sound j) _ h0 hv
  · exact fun v w hv h => tryAll_sound _ (bindPinned_sound j) _ hv h
  · exact fun v w hv h => tileCheck_sound j v w hv h
  · exact fun v w hv h => tryAll_sound _ (bindFree_sound j) _ hv h
  · exact fun v w hv h => tryAll_sound _ (placePinned_sound j) _ hv h
  · exact fun v w hv h => tryAll_sound _ (placeSram_sound j) _ hv h
  · exact fun v w hv h => tryAll_sound _ (placeDram_sound j) _ hv h
  · exact fun v w hv h => formDirectory_sound j v w hv h
  · exact fun v w hv h => enterLedger_sound _ _ v w hv h

@[simp] theorem placeLedger_sound (r : Req) (s : State) (h0 : SoundQ p0 e0 k0 (quietOf s)) :
    SoundQ p0 e0 k0 (quietOf (placeLedger r s).state) := by
  unfold placeLedger
  dsimp only
  split
  · simpa using h0
  · next u h =>
    have hu : SoundQ p0 e0 k0 (quietOf u) := by
      split at h
      · cases h; exact h0
      · exact enterLedger_sound _ _ _ _ h0 h
    simpa using hu

@[simp] theorem placeNormal_sound (r : Req) (s : State) (h0 : SoundQ p0 e0 k0 (quietOf s)) :
    SoundQ p0 e0 k0 (quietOf (placeNormal r s).state) := by
  unfold placeNormal
  dsimp only
  split
  · simpa using h0
  · split
    · simpa using h0
    · next h => simpa using placeSteps_sound _ _ _ _ h0 h

@[simp] theorem placeJobCmd_refused (r : Req) (s : State) : quietOf (placeJobCmd.refused r s) = quietOf s := by
  simp [placeJobCmd]

@[simp] theorem placeJobCmd_sound (r : Req) (s : State) (h0 : SoundQ p0 e0 k0 (quietOf s)) :
    SoundQ p0 e0 k0 (quietOf (placeJobCmd.run r s).state) := by
  unfold placeJobCmd; dsimp only; (repeat' split) <;>
    simp (maxDischargeDepth := 40) +contextual [apply_ite quietOf, forAll_sound, foldl_sound, apply_ite Ans.state, h0]

@[simp] theorem regionQueryCmd_refused (r : Req) (s : State) : quietOf (regionQueryCmd.refused r s) = quietOf s := (rfl)

@[simp] theorem regionQueryCmd_sound (r : Req) (s : State) (h0 : SoundQ p0 e0 k0 (quietOf s)) :
    SoundQ p0 e0 k0 (quietOf (regionQueryCmd.run r s).state) := by
  unfold regionQueryCmd; dsimp only; (repeat' split) <;>
    simp (maxDischargeDepth := 40) +contextual [apply_ite quietOf, forAll_sound, foldl_sound, apply_ite Ans.state, h0]

@[simp] theorem roleQueryCmd_refused (r : Req) (s : State) : quietOf (roleQueryCmd.refused r s) = quietOf s := (rfl)

@[simp] theorem roleQueryCmd_sound (r : Req) (s : State) (h0 : SoundQ p0 e0 k0 (quietOf s)) :
    SoundQ p0 e0 k0 (quietOf (roleQueryCmd.run r s).state) := by
  unfold roleQueryCmd
  simp (maxDischargeDepth := 40) +contextual [apply_ite quietOf, forAll_sound, foldl_sound, apply_ite Ans.state, h0]

@[simp] theorem moveAbort_sound (cause module : Nat) (s : State) (h0 : SoundQ p0 e0 k0 (quietOf s)) :
    SoundQ p0 e0 k0 (quietOf (moveAbort cause module s)) := by
  unfold moveAbort; (repeat' split) <;>
    simp (maxDischargeDepth := 40) +contextual [apply_ite quietOf, forAll_sound, foldl_sound, h0]

@[simp] theorem regionMoveCmd_refused (r : Req) (s : State) : quietOf (regionMoveCmd.refused r s) = quietOf s := (rfl)

@[simp] theorem regionMoveCmd_sound (r : Req) (s : State) (h0 : SoundQ p0 e0 k0 (quietOf s)) :
    SoundQ p0 e0 k0 (quietOf (regionMoveCmd.run r s).state) := by
  unfold regionMoveCmd; dsimp only; (repeat' split) <;>
    simp (maxDischargeDepth := 40) +contextual [apply_ite quietOf, forAll_sound, foldl_sound, apply_ite Ans.state, h0]

theorem copyReadFails_quiet {e part : Nat} {s u : State} (h : copyReadFails e part s = some u) : quietOf u = quietOf s := by
  unfold copyReadFails at h
  dsimp only at h
  split at h
  · split at h
    · cases h; rfl
    · split at h
      · cases h; exact copyTouch_quiet _ _ _
      · cases h
  · cases h

@[simp] theorem segmentSendRow_sound (e part : Nat) (s : State) (h0 : SoundQ p0 e0 k0 (quietOf s)) :
    SoundQ p0 e0 k0 (quietOf (segmentSendRow e part s)) := by
  unfold segmentSendRow
  split
  · next h => exact moveAbort_sound _ _ _ (by rw [copyReadFails_quiet h]; exact h0)
  · exact segmentSend_sound _ _ _ h0

@[simp] theorem moveFlip_sound (s : State) (h0 : SoundQ p0 e0 k0 (quietOf s)) :
    SoundQ p0 e0 k0 (quietOf (moveFlip s)) := by
  unfold moveFlip
  repeat' (first
    | (simp (maxDischargeDepth := 40) +contextual [apply_ite quietOf, forAll_sound, foldl_sound, h0]; done)
    | split | dsimp only | (refine forAll_sound _ ?_ _ ?_)
    | (refine foldl_sound _ ?_ _ ?_) | intro _
    | simp (maxDischargeDepth := 40) +contextual [apply_ite quietOf, forAll_sound, foldl_sound, h0])

@[simp] theorem moveDrainTimeout_sound (s : State) (h0 : SoundQ p0 e0 k0 (quietOf s)) :
    SoundQ p0 e0 k0 (quietOf (moveDrainTimeout s)) := by
  unfold moveDrainTimeout; (repeat' split) <;>
    simp (maxDischargeDepth := 40) +contextual [apply_ite quietOf, forAll_sound, foldl_sound, h0]

@[simp] theorem releaseJob_sound (j : Nat) (s : State) (h0 : SoundQ p0 e0 k0 (quietOf s)) :
    SoundQ p0 e0 k0 (quietOf (releaseJob j s)) := by
  unfold releaseJob
  repeat' (first
    | (simp (maxDischargeDepth := 40) +contextual [apply_ite quietOf, forAll_sound, foldl_sound, h0]; done)
    | split | dsimp only | (refine forAll_sound _ ?_ _ ?_)
    | (refine foldl_sound _ ?_ _ ?_) | intro _
    | simp (maxDischargeDepth := 40) +contextual [apply_ite quietOf, forAll_sound, foldl_sound, h0])

@[simp] theorem jobReleaseCmd_refused (r : Req) (s : State) : quietOf (jobReleaseCmd.refused r s) = quietOf s := (rfl)

@[simp] theorem jobReleaseCmd_sound (r : Req) (s : State) (h0 : SoundQ p0 e0 k0 (quietOf s)) :
    SoundQ p0 e0 k0 (quietOf (jobReleaseCmd.run r s).state) := by
  unfold jobReleaseCmd
  simp (maxDischargeDepth := 40) +contextual [apply_ite quietOf, forAll_sound, foldl_sound, apply_ite Ans.state, h0]

@[simp] theorem leaveService_sound (c cause : Nat) (s : State) (h0 : SoundQ p0 e0 k0 (quietOf s)) :
    SoundQ p0 e0 k0 (quietOf (leaveService c cause s)) := by
  unfold leaveService
  repeat' (first
    | (simp (maxDischargeDepth := 40) +contextual [apply_ite quietOf, forAll_sound, foldl_sound, h0]; done)
    | split | dsimp only | (refine forAll_sound _ ?_ _ ?_)
    | (refine foldl_sound _ ?_ _ ?_) | intro _
    | simp (maxDischargeDepth := 40) +contextual [apply_ite quietOf, forAll_sound, foldl_sound, h0])

@[simp] theorem mrdimmRewrite_sound (c line : Nat) (s : State) (h0 : SoundQ p0 e0 k0 (quietOf s)) :
    SoundQ p0 e0 k0 (quietOf (mrdimmRewrite c line s)) := by
  unfold mrdimmRewrite; (repeat' split) <;>
    simp (maxDischargeDepth := 40) +contextual [apply_ite quietOf, forAll_sound, foldl_sound, h0]

@[simp] theorem dimmTemp_sound (c : Nat) (temp : Int) (s : State) (h0 : SoundQ p0 e0 k0 (quietOf s)) :
    SoundQ p0 e0 k0 (quietOf (dimmTemp c temp s)) := by
  unfold dimmTemp
  repeat' (first
    | (simp (maxDischargeDepth := 40) +contextual [apply_ite quietOf, forAll_sound, foldl_sound, h0]; done)
    | split | dsimp only | (refine forAll_sound _ ?_ _ ?_)
    | (refine foldl_sound _ ?_ _ ?_) | intro _
    | simp (maxDischargeDepth := 40) +contextual [apply_ite quietOf, forAll_sound, foldl_sound, h0])

@[simp] theorem caParityError_sound (c fails : Nat) (s : State) (h0 : SoundQ p0 e0 k0 (quietOf s)) :
    SoundQ p0 e0 k0 (quietOf (caParityError c fails s)) := by
  unfold caParityError
  repeat' (first
    | (simp (maxDischargeDepth := 40) +contextual [apply_ite quietOf, forAll_sound, foldl_sound, h0]; done)
    | split | dsimp only | (refine forAll_sound _ ?_ _ ?_)
    | (refine foldl_sound _ ?_ _ ?_) | intro _
    | simp (maxDischargeDepth := 40) +contextual [apply_ite quietOf, forAll_sound, foldl_sound, h0])

@[simp] theorem memoryRetrainComplete_sound (c : Nat) (ok : Bool) (s : State) (h0 : SoundQ p0 e0 k0 (quietOf s)) :
    SoundQ p0 e0 k0 (quietOf (memoryRetrainComplete c ok s)) := by
  unfold memoryRetrainComplete; (repeat' split) <;>
    simp (maxDischargeDepth := 40) +contextual [apply_ite quietOf, forAll_sound, foldl_sound, h0]

@[simp] theorem channelZero_sound (c : Nat) (s : State) (h0 : SoundQ p0 e0 k0 (quietOf s)) :
    SoundQ p0 e0 k0 (quietOf (channelZero c s)) := by
  unfold channelZero
  repeat' (first
    | (simp (maxDischargeDepth := 40) +contextual [apply_ite quietOf, forAll_sound, foldl_sound, h0]; done)
    | split | dsimp only | (refine forAll_sound _ ?_ _ ?_)
    | (refine foldl_sound _ ?_ _ ?_) | intro _
    | simp (maxDischargeDepth := 40) +contextual [apply_ite quietOf, forAll_sound, foldl_sound, h0])

@[simp] theorem haltJob_sound (j : Nat) (s : State) (h0 : SoundQ p0 e0 k0 (quietOf s)) :
    SoundQ p0 e0 k0 (quietOf (haltJob j s)) := by
  unfold haltJob; (repeat' split) <;>
    simp (maxDischargeDepth := 40) +contextual [apply_ite quietOf, forAll_sound, foldl_sound, h0]

@[simp] theorem halt_sound (code : BitVec 16) (s : State) (h0 : SoundQ p0 e0 k0 (quietOf s)) :
    SoundQ p0 e0 k0 (quietOf (halt code s)) := by
  unfold halt
  repeat' (first
    | (simp (maxDischargeDepth := 40) +contextual [apply_ite quietOf, forAll_sound, foldl_sound, h0]; done)
    | split | dsimp only | (refine forAll_sound _ ?_ _ ?_)
    | (refine foldl_sound _ ?_ _ ?_) | intro _
    | simp (maxDischargeDepth := 40) +contextual [apply_ite quietOf, forAll_sound, foldl_sound, h0])

@[simp] theorem fatal_sound (code : BitVec 16) (items : List Word) (s : State) (h0 : SoundQ p0 e0 k0 (quietOf s)) :
    SoundQ p0 e0 k0 (quietOf (fatal code items s)) := by
  unfold fatal; simp (maxDischargeDepth := 40) +contextual [apply_ite quietOf, forAll_sound, foldl_sound, h0]

@[simp] theorem eventRaise_sound (e : Ev) (s : State) (h0 : SoundQ p0 e0 k0 (quietOf s)) :
    SoundQ p0 e0 k0 (quietOf (eventRaise e s)) := by
  unfold eventRaise; (repeat' split) <;>
    simp (maxDischargeDepth := 40) +contextual [apply_ite quietOf, forAll_sound, foldl_sound, h0]

@[simp] theorem powerSample_sound (r : PowerReading) (s : State) (h0 : SoundQ p0 e0 k0 (quietOf s)) :
    SoundQ p0 e0 k0 (quietOf (powerSample r s)) := by
  have h1 := h0.change id id (n := if (overLimits r (dieTemp s)).any (·) && eclkMin < s.power.eclk then s.power.eclk - 25 else s.power.eclk)
    (fun h => by
      have h' : EclkOk s.power.eclk := h
      show EclkOk _
      split
      · next hc =>
        rw [Bool.and_eq_true, decide_eq_true_eq] at hc
        have := hc.2
        unfold EclkOk at *
        unfold eclkMin at this
        omega
      · exact h')
  unfold powerSample
  dsimp only
  rw [limitedEvent_quiet]
  split
  · rw [raiseLimited_quiet]; exact h1
  · exact h1

@[simp] theorem eclkStepUp_sound (s : State) (h0 : SoundQ p0 e0 k0 (quietOf s)) :
    SoundQ p0 e0 k0 (quietOf (eclkStepUp s)) := by
  unfold eclkStepUp
  split
  · next hc =>
    rw [limitedEvent_quiet]
    refine h0.change id id (n := s.power.eclk + 25) (fun h => ?_)
    have h' : EclkOk s.power.eclk := h
    rw [Bool.and_eq_true, decide_eq_true_eq] at hc
    have := hc.2
    unfold EclkOk at *
    unfold eclkMax at this
    omega
  · exact h0

@[simp] theorem powerLimitTrip_sound (s : State) (h0 : SoundQ p0 e0 k0 (quietOf s)) :
    SoundQ p0 e0 k0 (quietOf (powerLimitTrip s)) := by
  unfold powerLimitTrip
  repeat' (first
    | (simp (maxDischargeDepth := 40) +contextual [apply_ite quietOf, forAll_sound, foldl_sound, h0]; done)
    | split | dsimp only | (refine forAll_sound _ ?_ _ ?_)
    | (refine foldl_sound _ ?_ _ ?_) | intro _
    | simp (maxDischargeDepth := 40) +contextual [apply_ite quietOf, forAll_sound, foldl_sound, h0])

@[simp] theorem dieOvertempTrip_sound (sensor : Nat) (s : State) (h0 : SoundQ p0 e0 k0 (quietOf s)) :
    SoundQ p0 e0 k0 (quietOf (dieOvertempTrip sensor s)) := by
  unfold dieOvertempTrip; (repeat' split) <;>
    simp (maxDischargeDepth := 40) +contextual [apply_ite quietOf, forAll_sound, foldl_sound, h0]

@[simp] theorem shankThermalTrip_sound (p : Nat) (s : State) (h0 : SoundQ p0 e0 k0 (quietOf s)) :
    SoundQ p0 e0 k0 (quietOf (shankThermalTrip p s)) := by
  unfold shankThermalTrip
  repeat' (first
    | (simp (maxDischargeDepth := 40) +contextual [apply_ite quietOf, forAll_sound, foldl_sound, h0]; done)
    | split | dsimp only | (refine forAll_sound _ ?_ _ ?_)
    | (refine foldl_sound _ ?_ _ ?_) | intro _
    | simp (maxDischargeDepth := 40) +contextual [apply_ite quietOf, forAll_sound, foldl_sound, h0])

@[simp] theorem sysPowerStatusCmd_refused (r : Req)
    (s : State) : quietOf (sysPowerStatusCmd.refused r s) = quietOf s := (rfl)

@[simp] theorem sysPowerStatusCmd_sound (r : Req) (s : State) (h0 : SoundQ p0 e0 k0 (quietOf s)) :
    SoundQ p0 e0 k0 (quietOf (sysPowerStatusCmd.run r s).state) := by
  unfold sysPowerStatusCmd
  simp (maxDischargeDepth := 40) +contextual [apply_ite quietOf, forAll_sound, foldl_sound, apply_ite Ans.state, h0]

@[simp] theorem logReadCmd_refused (r : Req) (s : State) : quietOf (logReadCmd.refused r s) = quietOf s := (rfl)

@[simp] theorem logReadCmd_sound (r : Req) (s : State) (h0 : SoundQ p0 e0 k0 (quietOf s)) :
    SoundQ p0 e0 k0 (quietOf (logReadCmd.run r s).state) := by
  unfold logReadCmd; dsimp only; (repeat' split) <;>
    simp (maxDischargeDepth := 40) +contextual [apply_ite quietOf, forAll_sound, foldl_sound, apply_ite Ans.state, h0]

@[simp] theorem logFreezeCmd_refused (r : Req) (s : State) : quietOf (logFreezeCmd.refused r s) = quietOf s := (rfl)

@[simp] theorem logFreezeCmd_sound (r : Req) (s : State) (h0 : SoundQ p0 e0 k0 (quietOf s)) :
    SoundQ p0 e0 k0 (quietOf (logFreezeCmd.run r s).state) := by
  unfold logFreezeCmd; dsimp only; (repeat' split) <;>
    simp (maxDischargeDepth := 40) +contextual [apply_ite quietOf, forAll_sound, foldl_sound, apply_ite Ans.state, h0]

@[simp] theorem logLastgaspCmd_refused (r : Req) (s : State) : quietOf (logLastgaspCmd.refused r s) = quietOf s := (rfl)

@[simp] theorem logLastgaspCmd_sound (r : Req) (s : State) (h0 : SoundQ p0 e0 k0 (quietOf s)) :
    SoundQ p0 e0 k0 (quietOf (logLastgaspCmd.run r s).state) := by
  unfold logLastgaspCmd; dsimp only; (repeat' split) <;>
    simp (maxDischargeDepth := 40) +contextual [apply_ite quietOf, forAll_sound, foldl_sound, apply_ite Ans.state, h0]

@[simp] theorem logFilterCmd_refused (r : Req) (s : State) : quietOf (logFilterCmd.refused r s) = quietOf s := (rfl)

@[simp] theorem logFilterCmd_sound (r : Req) (s : State) (h0 : SoundQ p0 e0 k0 (quietOf s)) :
    SoundQ p0 e0 k0 (quietOf (logFilterCmd.run r s).state) := by
  unfold logFilterCmd
  simp (maxDischargeDepth := 40) +contextual [apply_ite quietOf, forAll_sound, foldl_sound, apply_ite Ans.state, h0]

@[simp] theorem restart_sound (s : State) (h0 : SoundQ p0 e0 k0 (quietOf s)) :
    SoundQ p0 e0 k0 (quietOf (restart s)) :=
  h0.change (a := []) (b := []) (n := 2200) (fun _ => by decide) (fun _ => by decide) (fun _ => by unfold EclkOk; decide)

@[simp] theorem moduleReset_sound (kind : ResetKind) (held : Bool) (s : State) (h0 : SoundQ p0 e0 k0 (quietOf s)) :
    SoundQ p0 e0 k0 (quietOf (moduleReset kind held s)) := by
  have h1 : SoundQ p0 e0 k0 (quietOf (releaseForces (weltDark 3 s))) := by
    rw [releaseForces_quiet, weltDark_quiet]; exact h0
  exact h1.change (a := []) (b := []) (n := 2200) (fun _ => by decide) (fun _ => by decide) (fun _ => by unfold EclkOk; decide)

@[simp] theorem sysResetCmd_refused (r : Req) (s : State) : quietOf (sysResetCmd.refused r s) = quietOf s := (rfl)

@[simp] theorem sysResetCmd_sound (r : Req) (s : State) (h0 : SoundQ p0 e0 k0 (quietOf s)) :
    SoundQ p0 e0 k0 (quietOf (sysResetCmd.run r s).state) := by
  unfold sysResetCmd
  simp (maxDischargeDepth := 40) +contextual [apply_ite quietOf, forAll_sound, foldl_sound, apply_ite Ans.state, h0]

@[simp] theorem resetDelayExpiry_sound (s : State) (h0 : SoundQ p0 e0 k0 (quietOf s)) :
    SoundQ p0 e0 k0 (quietOf (resetDelayExpiry s)) := by
  unfold resetDelayExpiry
  repeat' (first
    | (simp (maxDischargeDepth := 40) +contextual [apply_ite quietOf, forAll_sound, foldl_sound, h0]; done)
    | split | dsimp only | (refine forAll_sound _ ?_ _ ?_)
    | (refine foldl_sound _ ?_ _ ?_) | intro _
    | simp (maxDischargeDepth := 40) +contextual [apply_ite quietOf, forAll_sound, foldl_sound, h0])

@[simp] theorem powerOnReset_sound (s : State) (h0 : SoundQ p0 e0 k0 (quietOf s)) :
    SoundQ p0 e0 k0 (quietOf (powerOnReset s)) := by
  unfold powerOnReset
  dsimp only
  rw [reportSlots_quiet]
  exact h0.change (a := []) (b := []) (n := 2200) (fun _ => by decide) (fun _ => by decide)
    (fun _ => by unfold EclkOk; decide)

@[simp] theorem shedDomains_sound (s : State) (h0 : SoundQ p0 e0 k0 (quietOf s)) :
    SoundQ p0 e0 k0 (quietOf (shedDomains s)) :=
  h0.change (a := []) (b := []) (fun _ => by decide) (fun _ => by decide) id

@[simp] theorem powerFail_sound (vin10mV : Nat) (s : State) (h0 : SoundQ p0 e0 k0 (quietOf s)) :
    SoundQ p0 e0 k0 (quietOf (powerFail vin10mV s)) := by
  unfold powerFail
  repeat' (first
    | (simp (maxDischargeDepth := 40) +contextual [apply_ite quietOf, forAll_sound, foldl_sound, h0]; done)
    | split | dsimp only | (refine forAll_sound _ ?_ _ ?_)
    | (refine foldl_sound _ ?_ _ ?_) | intro _
    | simp (maxDischargeDepth := 40) +contextual [apply_ite quietOf, forAll_sound, foldl_sound, h0])

@[simp] theorem holdupEnd_sound (inputPresent : Bool) (s : State) (h0 : SoundQ p0 e0 k0 (quietOf s)) :
    SoundQ p0 e0 k0 (quietOf (holdupEnd inputPresent s)) := by
  unfold holdupEnd
  repeat' (first
    | (simp (maxDischargeDepth := 40) +contextual [apply_ite quietOf, forAll_sound, foldl_sound, h0]; done)
    | split | dsimp only | (refine forAll_sound _ ?_ _ ?_)
    | (refine foldl_sound _ ?_ _ ?_) | intro _
    | simp (maxDischargeDepth := 40) +contextual [apply_ite quietOf, forAll_sound, foldl_sound, h0])

@[simp] theorem takeBoundary_sound (n : Word) (i : Nat) (s : State) (h0 : SoundQ p0 e0 k0 (quietOf s)) :
    SoundQ p0 e0 k0 (quietOf (takeBoundary n i s)) := by
  unfold takeBoundary
  repeat' (first
    | (simp (maxDischargeDepth := 40) +contextual [apply_ite quietOf, forAll_sound, foldl_sound, h0]; done)
    | split | dsimp only | (refine forAll_sound _ ?_ _ ?_)
    | (refine foldl_sound _ ?_ _ ?_) | intro _
    | simp (maxDischargeDepth := 40) +contextual [apply_ite quietOf, forAll_sound, foldl_sound, h0])

@[simp] theorem boundaryAct_sound (n : Word) (t : BitVec 48) (i : Nat) (s : State) (h0 : SoundQ p0 e0 k0 (quietOf s)) :
    SoundQ p0 e0 k0 (quietOf (boundaryAct n t i s)) := by
  unfold boundaryAct; (repeat' split) <;>
    simp (maxDischargeDepth := 40) +contextual [apply_ite quietOf, forAll_sound, foldl_sound, h0]

@[simp] theorem boundaryFire_sound (i : Nat) (s : State) (h0 : SoundQ p0 e0 k0 (quietOf s)) :
    SoundQ p0 e0 k0 (quietOf (boundaryFire i s)) := by
  unfold boundaryFire; (repeat' split) <;>
    simp (maxDischargeDepth := 40) +contextual [apply_ite quietOf, forAll_sound, foldl_sound, h0]

@[simp] theorem epochConfigCmd_refused (r : Req) (s : State) : quietOf (epochConfigCmd.refused r s) = quietOf s := (rfl)

@[simp] theorem epochConfigCmd_sound (r : Req) (s : State) (h0 : SoundQ p0 e0 k0 (quietOf s)) :
    SoundQ p0 e0 k0 (quietOf (epochConfigCmd.run r s).state) := by
  have h1 : SoundQ p0 e0 k0 (quietOf (disarmBoundary s)) := by rw [disarmBoundary_quiet]; exact h0
  unfold epochConfigCmd
  dsimp only
  split
  · simpa using h0
  · split
    · exact h0
    · next h => simpa using armWith_sound h1 h

@[simp] theorem heartbeatConfigCmd_refused (r : Req)
    (s : State) : quietOf (heartbeatConfigCmd.refused r s) = quietOf s := (rfl)

@[simp] theorem heartbeatConfigCmd_sound (r : Req) (s : State) (h0 : SoundQ p0 e0 k0 (quietOf s)) :
    SoundQ p0 e0 k0 (quietOf (heartbeatConfigCmd.run r s).state) := by
  unfold heartbeatConfigCmd; dsimp only; (repeat' split) <;>
    simp (maxDischargeDepth := 40) +contextual [apply_ite quietOf, forAll_sound, foldl_sound, apply_ite Ans.state, h0]

@[simp] theorem peerCheck_sound (i : Nat) (s : State) (h0 : SoundQ p0 e0 k0 (quietOf s)) :
    SoundQ p0 e0 k0 (quietOf (peerCheck i s)) := by
  unfold peerCheck
  repeat' (first
    | (simp (maxDischargeDepth := 40) +contextual [apply_ite quietOf, forAll_sound, foldl_sound, h0]; done)
    | split | dsimp only | (refine forAll_sound _ ?_ _ ?_)
    | (refine foldl_sound _ ?_ _ ?_) | intro _
    | simp (maxDischargeDepth := 40) +contextual [apply_ite quietOf, forAll_sound, foldl_sound, h0])

@[simp] theorem sendPage_sound (key : Nat) (bs : List Byte) (s : State) (h0 : SoundQ p0 e0 k0 (quietOf s)) :
    SoundQ p0 e0 k0 (quietOf (sendPage key bs s)) := by
  unfold sendPage
  repeat' (first
    | (simp (maxDischargeDepth := 40) +contextual [apply_ite quietOf, forAll_sound, foldl_sound, h0]; done)
    | split | dsimp only | (refine forAll_sound _ ?_ _ ?_)
    | (refine foldl_sound _ ?_ _ ?_) | intro _
    | simp (maxDischargeDepth := 40) +contextual [apply_ite quietOf, forAll_sound, foldl_sound, h0])

@[simp] theorem mirrorCopyStart_sound (s : State) (h0 : SoundQ p0 e0 k0 (quietOf s)) :
    SoundQ p0 e0 k0 (quietOf (mirrorCopyStart s)) := by
  unfold mirrorCopyStart; (repeat' split) <;>
    simp (maxDischargeDepth := 40) +contextual [apply_ite quietOf, forAll_sound, foldl_sound, h0]

@[simp] theorem mirrorPageRead_sound (s : State) (h0 : SoundQ p0 e0 k0 (quietOf s)) :
    SoundQ p0 e0 k0 (quietOf (mirrorPageRead s)) := by
  unfold mirrorPageRead
  repeat' (first
    | (simp (maxDischargeDepth := 40) +contextual [apply_ite quietOf, forAll_sound, foldl_sound, h0]; done)
    | split | dsimp only | (refine forAll_sound _ ?_ _ ?_)
    | (refine foldl_sound _ ?_ _ ?_) | intro _
    | simp (maxDischargeDepth := 40) +contextual [apply_ite quietOf, forAll_sound, foldl_sound, h0])

@[simp] theorem storePut_sound (dirty : Bool) (x : Store) (off : Nat) (bs : List Byte) (s : State)
    (h0 : SoundQ p0 e0 k0 (quietOf s)) : SoundQ p0 e0 k0 (quietOf (storePut dirty x off bs s)) := by
  unfold storePut
  split
  · exact piecesWrite_sound _ _ _ _ _ (by simpa using h0)
  · exact h0

@[simp] theorem hdrPut_sound (x : Store) (i : Nat) (ws : List Word) (s : State) (h0 : SoundQ p0 e0 k0 (quietOf s)) :
    SoundQ p0 e0 k0 (quietOf (hdrPut x i ws s)) := by
  unfold hdrPut; (repeat' split) <;>
    simp (maxDischargeDepth := 40) +contextual [apply_ite quietOf, forAll_sound, foldl_sound, h0]

theorem applyHalf_sound (x : Store) (h : Nat) (n : Word) (k : Nat) {a : Nat × State}
    (h0 : SoundQ p0 e0 k0 (quietOf a.2)) :
    (∀ c u, applyHalf x h n k a = .ok (c, u) → SoundQ p0 e0 k0 (quietOf u)) ∧
      (∀ u, applyHalf x h n k a = .error u → SoundQ p0 e0 k0 (quietOf u)) := by
  induction k with
  | zero => exact ⟨fun c u hu => by cases hu; exact h0, fun u hu => (nomatch hu)⟩
  | succ k ih =>
    unfold applyHalf
    split
    · next v hv => exact ⟨fun c u hu => (nomatch hu), fun u hu => by cases hu; exact ih.2 _ hv⟩
    · next c v hv =>
      have hs := ih.1 _ _ hv
      dsimp only
      split
      · exact ⟨fun c u hu => (nomatch hu), fun u hu => by cases hu; simpa using hs⟩
      · split
        · exact ⟨fun c u hu => by cases hu; simpa using hs, fun u hu => (nomatch hu)⟩
        · split
          · exact ⟨fun c u hu => (nomatch hu), fun u hu => by cases hu; simpa using hs⟩
          · exact ⟨fun c u hu => by cases hu; exact storePut_sound _ _ _ _ _ (by simpa using hs), fun u hu => (nomatch hu)⟩

theorem applyIndex_sound (x : Store) (h : Nat) (n : Word) {s : State} (h0 : SoundQ p0 e0 k0 (quietOf s)) :
    (∀ c u, applyIndex x h n s = .ok (c, u) → SoundQ p0 e0 k0 (quietOf u)) ∧
      (∀ u, applyIndex x h n s = .error u → SoundQ p0 e0 k0 (quietOf u)) := by
  have ha := applyHalf_sound x h n x.journal (a := (0, hdrPut x 10 [noIndex] s)) (hdrPut_sound _ _ _ _ h0)
  unfold applyIndex
  split
  · next v hv => exact ⟨fun c u hu => (nomatch hu), fun u hu => by cases hu; exact ha.2 _ hv⟩
  · next c v hv => exact ⟨fun c u hu => by cases hu; exact hdrPut_sound _ _ _ _ (ha.1 _ _ hv), fun u hu => (nomatch hu)⟩

theorem applyOld_sound (x : Store) {s : State} (h0 : SoundQ p0 e0 k0 (quietOf s)) :
    (∀ c u, applyOld x s = .ok (c, u) → SoundQ p0 e0 k0 (quietOf u)) ∧
      (∀ u, applyOld x s = .error u → SoundQ p0 e0 k0 (quietOf u)) := by
  unfold applyOld
  dsimp only
  split
  · exact ⟨fun c u hu => by cases hu; exact h0, fun u hu => (nomatch hu)⟩
  · exact applyIndex_sound _ _ _ h0

theorem applySeal_sound (x : Store) {s : State} (h0 : SoundQ p0 e0 k0 (quietOf s)) :
    (∀ c u, applySeal x s = .ok (c, u) → SoundQ p0 e0 k0 (quietOf u)) ∧
      (∀ u, applySeal x s = .error u → SoundQ p0 e0 k0 (quietOf u)) := by
  unfold applySeal
  dsimp only
  split
  · exact applyIndex_sound _ _ _ (by simpa using h0)
  · exact applyOld_sound _ (by simpa using h0)

@[simp] theorem storeApply_sound (k : Nat) (s : State) (h0 : SoundQ p0 e0 k0 (quietOf s)) :
    SoundQ p0 e0 k0 (quietOf (storeApply k s)) := by
  unfold storeApply
  split
  · exact h0
  · next x hx =>
    split
    · exact h0
    · have h1 : SoundQ p0 e0 k0 (quietOf { s with resil := { s.resil with stores := tset none s.resil.stores k (some { x with sealAt := none }) } }) := h0
      dsimp only
      split
      · next v hv => exact (applySeal_sound x h1).2 _ hv
      · next c v hv => exact (applySeal_sound x h1).1 _ _ hv

@[simp] theorem setBuddy_sound (m : Nat) (h : List Byte) (addr : Nat) (s : State) (h0 : SoundQ p0 e0 k0 (quietOf s)) :
    SoundQ p0 e0 k0 (quietOf (setBuddy m h addr s)) := by
  unfold setBuddy; simp (maxDischargeDepth := 40) +contextual [apply_ite quietOf, forAll_sound, foldl_sound, h0]

@[simp] theorem reserveStore_sound (r : Req) (s : State) (h0 : SoundQ p0 e0 k0 (quietOf s)) :
    SoundQ p0 e0 k0 (quietOf (reserveStore r s).state) := by
  unfold reserveStore; dsimp only; (repeat' split) <;>
    simp (maxDischargeDepth := 40) +contextual [apply_ite quietOf, forAll_sound, foldl_sound, apply_ite Ans.state, h0]

@[simp] theorem buddySetCmd_refused (r : Req) (s : State) : quietOf (buddySetCmd.refused r s) = quietOf s := (rfl)

@[simp] theorem buddySetCmd_sound (r : Req) (s : State) (h0 : SoundQ p0 e0 k0 (quietOf s)) :
    SoundQ p0 e0 k0 (quietOf (buddySetCmd.run r s).state) := by
  unfold buddySetCmd; dsimp only; (repeat' split) <;>
    simp (maxDischargeDepth := 40) +contextual [apply_ite quietOf, forAll_sound, foldl_sound, apply_ite Ans.state, h0]

theorem bringTo_sound (x : Store) (n : Word) {s : State} (h0 : SoundQ p0 e0 k0 (quietOf s)) :
    (∀ c u, bringTo x n s = .ok (c, u) → SoundQ p0 e0 k0 (quietOf u)) ∧
      (∀ u, bringTo x n s = .error u → SoundQ p0 e0 k0 (quietOf u)) := by
  unfold bringTo
  dsimp only
  split
  · next v hv => exact ⟨fun c u hu => (nomatch hu), fun u hu => by cases hu; exact (applyOld_sound x h0).2 _ hv⟩
  · next c v hv =>
    have h1 := (applyOld_sound x h0).1 _ _ hv
    split
    · exact ⟨fun c u hu => by cases hu; exact hdrPut_sound _ _ _ _ (hdrPut_sound _ _ _ _ h1), fun u hu => (nomatch hu)⟩
    · have ha := applyHalf_sound x (field (hdrGet x 7 v) 0 1) n x.journal (a := (c, hdrPut x 10 [noIndex] v))
        (hdrPut_sound _ _ _ _ h1)
      split
      · next w hw => exact ⟨fun c u hu => (nomatch hu), fun u hu => by cases hu; exact ha.2 _ hw⟩
      · next w hw =>
        exact ⟨fun c u hu => by cases hu; exact hdrPut_sound _ _ _ _ (hdrPut_sound _ _ _ _ (ha.1 _ _ hw)), fun u hu => (nomatch hu)⟩

@[simp] theorem promoteRegion_sound (k j : Nat) (x : Store) (e : TableRow) (s : State)
    (h0 : SoundQ p0 e0 k0 (quietOf s)) :
    SoundQ p0 e0 k0 (quietOf (promoteRegion k j x e s)) := by
  unfold promoteRegion; (repeat' split) <;>
    simp (maxDischargeDepth := 40) +contextual [apply_ite quietOf, forAll_sound, foldl_sound, h0]

@[simp] theorem recoverFailed_sound (r : Req) (s : State) (h0 : SoundQ p0 e0 k0 (quietOf s)) :
    SoundQ p0 e0 k0 (quietOf (recoverFailed r s).state) := by
  unfold recoverFailed
  simp (maxDischargeDepth := 40) +contextual [apply_ite quietOf, forAll_sound, foldl_sound, apply_ite Ans.state, h0]

@[simp] theorem promote_sound (r : Req) (s : State) (h0 : SoundQ p0 e0 k0 (quietOf s)) :
    SoundQ p0 e0 k0 (quietOf (promote r s).state) := by
  have h9 : ∀ x off n, SoundQ p0 e0 k0 (quietOf (storeRead x off n s)) := fun x off n => by simpa using h0
  unfold promote
  dsimp only
  split
  · exact h0
  · split
    · exact h0
    · split
      · exact recoverFailed_sound _ _ (h9 _ _ _)
      · split
        · exact h9 _ _ _
        · split
          · exact h9 _ _ _
          · split
            · next h => exact recoverFailed_sound _ _ ((bringTo_sound _ _ (h9 _ _ _)).2 _ h)
            · next h =>
              have h1 := (bringTo_sound _ _ (h9 _ _ _)).1 _ _ h
              split
              · exact h9 _ _ _
              · next hd =>
                have h2 := formDirectory_sound _ _ _ (forAll_sound _ (fun e s hs => promoteRegion_sound _ _ _ e s hs) _ h1) hd
                simpa using h2

@[simp] theorem restoreStart_sound (s : State) (h0 : SoundQ p0 e0 k0 (quietOf s)) :
    SoundQ p0 e0 k0 (quietOf (restoreStart s)) := by
  unfold restoreStart; (repeat' split) <;>
    simp (maxDischargeDepth := 40) +contextual [apply_ite quietOf, forAll_sound, foldl_sound, h0]

@[simp] theorem restore_sound (r : Req) (s : State) (h0 : SoundQ p0 e0 k0 (quietOf s)) :
    SoundQ p0 e0 k0 (quietOf (restore r s).state) := by
  unfold restore
  simp (maxDischargeDepth := 40) +contextual [apply_ite quietOf, forAll_sound, foldl_sound, apply_ite Ans.state, h0]

@[simp] theorem recoverPromoteCmd_refused (r : Req)
    (s : State) : quietOf (recoverPromoteCmd.refused r s) = quietOf s := (rfl)

@[simp] theorem recoverPromoteCmd_sound (r : Req) (s : State) (h0 : SoundQ p0 e0 k0 (quietOf s)) :
    SoundQ p0 e0 k0 (quietOf (recoverPromoteCmd.run r s).state) := by
  unfold recoverPromoteCmd; dsimp only; (repeat' split) <;>
    simp (maxDischargeDepth := 40) +contextual [apply_ite quietOf, forAll_sound, foldl_sound, apply_ite Ans.state, h0]

@[simp] theorem resilienceStatusCmd_refused (r : Req)
    (s : State) : quietOf (resilienceStatusCmd.refused r s) = quietOf s := (rfl)

@[simp] theorem resilienceStatusCmd_sound (r : Req) (s : State) (h0 : SoundQ p0 e0 k0 (quietOf s)) :
    SoundQ p0 e0 k0 (quietOf (resilienceStatusCmd.run r s).state) := by
  unfold resilienceStatusCmd
  simp (maxDischargeDepth := 40) +contextual [apply_ite quietOf, forAll_sound, foldl_sound, apply_ite Ans.state, h0]

@[simp] theorem stopAllJobs_sound (s : State) (h0 : SoundQ p0 e0 k0 (quietOf s)) :
    SoundQ p0 e0 k0 (quietOf (stopAllJobs s)) := by
  have h1 : ∀ j u, SoundQ p0 e0 k0 (quietOf u) → SoundQ p0 e0 k0 (quietOf (match (jobOf u j).status with
      | .armed => unarmJob j u
      | .running => modJob j (fun x => { x with stopping := x.stopping.or (some (runningTiles j u).length) }) (stopRoles j u)
      | _ => u)) := by
    intro j u hu
    split
    · rw [unarmJob_quiet]; exact hu
    · rw [modJob_quiet]; exact stopRoles_sound _ _ hu
    · exact hu
  have h2 := forAll_sound _ h1 jobNos (s := discardStarts s) (by rw [discardStarts_quiet]; exact h0)
  unfold stopAllJobs
  dsimp only
  rw [settleStops_quiet, quietOf_mk, quietOf_eta]
  exact h2

@[simp] theorem activate_sound (e : Entry) (s : State) (h0 : SoundQ p0 e0 k0 (quietOf s)) :
    SoundQ p0 e0 k0 (quietOf (activate e s)) := by
  unfold activate; (repeat' split) <;>
    simp (maxDischargeDepth := 40) +contextual [apply_ite quietOf, forAll_sound, foldl_sound, h0]

@[simp] theorem activationRestart_sound (s : State) (h0 : SoundQ p0 e0 k0 (quietOf s)) :
    SoundQ p0 e0 k0 (quietOf (activationRestart s)) := by
  unfold activationRestart; (repeat' split) <;>
    simp (maxDischargeDepth := 40) +contextual [apply_ite quietOf, forAll_sound, foldl_sound, h0]

@[simp] theorem fireEntry_sound (i : Nat) (e : Entry) (s : State) (h0 : SoundQ p0 e0 k0 (quietOf s)) :
    SoundQ p0 e0 k0 (quietOf (fireEntry i e s)) := by
  unfold fireEntry; (repeat' split) <;>
    simp (maxDischargeDepth := 40) +contextual [apply_ite quietOf, forAll_sound, foldl_sound, h0]

@[simp] theorem scheduleEntryFire_sound (s : State) (h0 : SoundQ p0 e0 k0 (quietOf s)) :
    SoundQ p0 e0 k0 (quietOf (scheduleEntryFire s)) := by
  unfold scheduleEntryFire; (repeat' split) <;>
    simp (maxDischargeDepth := 40) +contextual [apply_ite quietOf, forAll_sound, foldl_sound, h0]

@[simp] theorem schedDisarmCmd_refused (r : Req) (s : State) : quietOf (schedDisarmCmd.refused r s) = quietOf s := (rfl)

@[simp] theorem schedDisarmCmd_sound (r : Req) (s : State) (h0 : SoundQ p0 e0 k0 (quietOf s)) :
    SoundQ p0 e0 k0 (quietOf (schedDisarmCmd.run r s).state) := by
  unfold schedDisarmCmd; dsimp only; (repeat' split) <;>
    simp (maxDischargeDepth := 40) +contextual [apply_ite quietOf, forAll_sound, foldl_sound, apply_ite Ans.state, h0]

@[simp] theorem clock_sound (s : State) (h0 : SoundQ p0 e0 k0 (quietOf s)) :
    SoundQ p0 e0 k0 (quietOf (clock s)) := by
  unfold clock; simp (maxDischargeDepth := 40) +contextual [apply_ite quietOf, forAll_sound, foldl_sound, h0]

@[simp] theorem timePortConfigCmd_refused (r : Req)
    (s : State) : quietOf (timePortConfigCmd.refused r s) = quietOf s := (rfl)

@[simp] theorem timePortConfigCmd_sound (r : Req) (s : State) (h0 : SoundQ p0 e0 k0 (quietOf s)) :
    SoundQ p0 e0 k0 (quietOf (timePortConfigCmd.run r s).state) := by
  unfold timePortConfigCmd
  simp (maxDischargeDepth := 40) +contextual [apply_ite quietOf, forAll_sound, foldl_sound, apply_ite Ans.state, h0]

@[simp] theorem sysInfoCmd_refused (r : Req) (s : State) : quietOf (sysInfoCmd.refused r s) = quietOf s := (rfl)

@[simp] theorem sysInfoCmd_sound (r : Req) (s : State) (h0 : SoundQ p0 e0 k0 (quietOf s)) :
    SoundQ p0 e0 k0 (quietOf (sysInfoCmd.run r s).state) := by
  unfold sysInfoCmd
  simp (maxDischargeDepth := 40) +contextual [apply_ite quietOf, forAll_sound, foldl_sound, apply_ite Ans.state, h0]

@[simp] theorem sysCommitConfigCmd_refused (r : Req)
    (s : State) : quietOf (sysCommitConfigCmd.refused r s) = quietOf s := (rfl)

@[simp] theorem sysCommitConfigCmd_sound (r : Req) (s : State) (h0 : SoundQ p0 e0 k0 (quietOf s)) :
    SoundQ p0 e0 k0 (quietOf (sysCommitConfigCmd.run r s).state) := by
  unfold sysCommitConfigCmd
  simp (maxDischargeDepth := 40) +contextual [apply_ite quietOf, forAll_sound, foldl_sound, apply_ite Ans.state, h0]

@[simp] theorem sysDeconfigCmd_refused (r : Req) (s : State) : quietOf (sysDeconfigCmd.refused r s) = quietOf s := (rfl)

@[simp] theorem sysDeconfigCmd_sound (r : Req) (s : State) (h0 : SoundQ p0 e0 k0 (quietOf s)) :
    SoundQ p0 e0 k0 (quietOf (sysDeconfigCmd.run r s).state) := by
  unfold sysDeconfigCmd
  simp (maxDischargeDepth := 40) +contextual [apply_ite quietOf, forAll_sound, foldl_sound, apply_ite Ans.state, h0]

@[simp] theorem sysMaintenanceCmd_refused (r : Req)
    (s : State) : quietOf (sysMaintenanceCmd.refused r s) = quietOf s := (rfl)

@[simp] theorem sysMaintenanceCmd_sound (r : Req) (s : State) (h0 : SoundQ p0 e0 k0 (quietOf s)) :
    SoundQ p0 e0 k0 (quietOf (sysMaintenanceCmd.run r s).state) := by
  unfold sysMaintenanceCmd
  simp (maxDischargeDepth := 40) +contextual [apply_ite quietOf, forAll_sound, foldl_sound, apply_ite Ans.state, h0]

theorem commands_refused (c : Cmd) (hc : c ∈ commands) (r : Req) (s : State) :
    quietOf (c.refused r s) = quietOf s := by
  simp only [commands, List.mem_append, List.mem_cons, List.not_mem_nil, or_false, or_assoc] at hc
  rcases hc with rfl | rfl | rfl | rfl | rfl | rfl | rfl | rfl | rfl | rfl | rfl | rfl | rfl | rfl | rfl | rfl | rfl | rfl | rfl | rfl | rfl | rfl | rfl | rfl | rfl | rfl | rfl | rfl | rfl | rfl | rfl | rfl | rfl | rfl | rfl | rfl | rfl | rfl | rfl | rfl | rfl | rfl | rfl | rfl | rfl | rfl | rfl | rfl | rfl | rfl | rfl | rfl | rfl | rfl | rfl | rfl | rfl | rfl | rfl | rfl | rfl | rfl | rfl | rfl | rfl <;>
    simp

theorem commands_sound (c : Cmd) (hc : c ∈ commands) (r : Req) (s : State) (h0 : SoundQ p0 e0 k0 (quietOf s)) :
    SoundQ p0 e0 k0 (quietOf (c.run r s).state) := by
  simp only [commands, List.mem_append, List.mem_cons, List.not_mem_nil, or_false, or_assoc] at hc
  rcases hc with rfl | rfl | rfl | rfl | rfl | rfl | rfl | rfl | rfl | rfl | rfl | rfl | rfl | rfl | rfl | rfl | rfl | rfl | rfl | rfl | rfl | rfl | rfl | rfl | rfl | rfl | rfl | rfl | rfl | rfl | rfl | rfl | rfl | rfl | rfl | rfl | rfl | rfl | rfl | rfl | rfl | rfl | rfl | rfl | rfl | rfl | rfl | rfl | rfl | rfl | rfl | rfl | rfl | rfl | rfl | rfl | rfl | rfl | rfl | rfl | rfl | rfl | rfl | rfl | rfl <;>
    simp [h0]

@[simp] theorem runTaken_sound (t : Taken) (s : State) (h0 : SoundQ p0 e0 k0 (quietOf s)) :
    SoundQ p0 e0 k0 (quietOf (runTaken t s)) := by
  unfold runTaken
  split
  · next c hc =>
    have hm := List.mem_of_find?_eq_some hc
    have ha := answer_sound c t.req s h0 (commands_refused c hm _ _) (commands_sound c hm _ _ h0)
    cases h : answer c t.req s with
    | reply st ws bulk u => rw [h] at ha; simpa using ha
    | later u => rw [h] at ha; exact ha
  · simpa using h0

@[simp] theorem startWaiting_sound (s : State) (h0 : SoundQ p0 e0 k0 (quietOf s)) :
    SoundQ p0 e0 k0 (quietOf (startWaiting s)) := by
  unfold startWaiting; (repeat' split) <;>
    simp (maxDischargeDepth := 40) +contextual [apply_ite quietOf, forAll_sound, foldl_sound, h0]

@[simp] theorem slotTake_sound (env : Env) (s : State) (h0 : SoundQ p0 e0 k0 (quietOf s)) :
    SoundQ p0 e0 k0 (quietOf (slotTake env s)) := by
  unfold slotTake
  repeat' (first
    | (simp (maxDischargeDepth := 40) +contextual [apply_ite quietOf, forAll_sound, foldl_sound, h0]; done)
    | split | dsimp only | (refine forAll_sound _ ?_ _ ?_)
    | (refine foldl_sound _ ?_ _ ?_) | intro _
    | simp (maxDischargeDepth := 40) +contextual [apply_ite quietOf, forAll_sound, foldl_sound, h0])

@[simp] theorem svcMessage_sound (words : List Word) (env : Env) (s : State) (h0 : SoundQ p0 e0 k0 (quietOf s)) :
    SoundQ p0 e0 k0 (quietOf (svcMessage words env s)) := by
  unfold svcMessage
  repeat' (first
    | (simp (maxDischargeDepth := 40) +contextual [apply_ite quietOf, forAll_sound, foldl_sound, h0]; done)
    | split | dsimp only | (refine forAll_sound _ ?_ _ ?_)
    | (refine foldl_sound _ ?_ _ ?_) | intro _
    | simp (maxDischargeDepth := 40) +contextual [apply_ite quietOf, forAll_sound, foldl_sound, h0])

theorem live_sound {f : State → State} {s t : State} (h0 : SoundQ p0 e0 k0 (quietOf s))
    (hf : SoundQ p0 e0 k0 (quietOf (f s))) (h : live f s = .next t) : SoundQ p0 e0 k0 (quietOf t) := by
  injection h with h
  subst h
  split
  · exact hf
  · exact h0

theorem fed_sound {f : State → State} {s t : State} (h0 : SoundQ p0 e0 k0 (quietOf s))
    (hf : SoundQ p0 e0 k0 (quietOf (f s))) (h : fed f s = .next t) : SoundQ p0 e0 k0 (quietOf t) := by
  injection h with h
  subst h
  split
  · exact hf
  · exact h0

theorem sends_sound {f : State → State} {s t : State} (h0 : SoundQ p0 e0 k0 (quietOf s))
    (hf : SoundQ p0 e0 k0 (quietOf (f s))) (h : sends f s = .next t) : SoundQ p0 e0 k0 (quietOf t) := by
  refine fed_sound (f := fun s => if s.fw.restartAt.isSome then s else f s) h0 ?_ h
  split
  · exact h0
  · exact hf

theorem powered_sound {f : State → State} {s t : State} (h0 : SoundQ p0 e0 k0 (quietOf s))
    (hf : SoundQ p0 e0 k0 (quietOf (f s))) (h : powered f s = .next t) : SoundQ p0 e0 k0 (quietOf t) := by
  injection h with h
  subst h
  split
  · exact hf
  · exact h0

theorem onWrite_sound {f : State → State} {s t : State} (h0 : SoundQ p0 e0 k0 (quietOf s))
    (hf : SoundQ p0 e0 k0 (quietOf (f s))) (h : onWrite f s = .next t) : SoundQ p0 e0 k0 (quietOf t) := by
  injection h with h
  subst h
  split
  · exact hf
  · exact h0

theorem onRead_sound {off : Nat} {f : State → State} {s t : State} (h0 : SoundQ p0 e0 k0 (quietOf s))
    (hf : SoundQ p0 e0 k0 (quietOf (f s))) (h : onRead off f s = .next t) : SoundQ p0 e0 k0 (quietOf t) := by
  injection h with h
  subst h
  split
  · exact hf
  · split
    · rw [emit_quiet]; exact h0
    · exact h0

end Sys2Proof.Machine
end

