-- ==== Sys2Proof/WellFormed.lean ====
section
/-! DEFINITION. Which commands the interfaces of the block can carry: lengths of requests, accesses,
frames and error patterns. -/

namespace Sys2Proof

/-- The request words after the header are as many as word 0 gives (R29). -/
def Req.wf (r : Req) : Bool := r.args.length = (r.flags.toNat / 16) % 1024 - 2

/-- An error pattern covers the sixteen beats of a line (R216) or one or two bits of a word (R202); a
misdirected read names two lines of the channel (R215). -/
def Flaw.wf : Flaw → Bool
  | .dram _ _ beats => beats.length = 16
  | .sram _ word bits => word < 786432 && (bits = 1 || bits = 2)
  | .misread _ line other => line < 2 ^ 32 && other < 2 ^ 32

/-- Every error pattern of a list is well formed. -/
def flawsWf (l : List Flaw) : Bool := l.all Flaw.wf

/-- A frame is 505 bytes of body (R261). -/
def Codeword.wf (c : Codeword) : Bool := c.body.length = 505

/-- A frame of the timing port holds at least its addresses and type (R363). -/
def EthFrame.wf (f : EthFrame) : Bool := 14 ≤ f.bytes.length

/-- A mailbox request row carries a well-formed request. -/
def Instr.reqOf : Instr → Option Req
  | .sysInfo r | .sysCommitConfig r | .sysDeconfig r | .sysMaintenance r | .sysReset r
  | .sysPowerStatus r | .mapWindow r | .jobDefine r | .jobLoadPattern r | .jobStart r
  | .jobStop r | .jobStatus r | .jobRelease r | .jobTallyRead r | .regionDeclare r
  | .roleDeclare r | .regionPin r | .rolePin r | .placeJob r | .regionQuery r | .roleQuery r
  | .regionMove r | .fabricPlanLoad r | .fabricStatus r | .routeLoad r | .eyeletDefine r
  | .classWeights r | .fabricCounters r | .lacePlanCompile r | .laceBankQuery r | .laceStatus r
  | .weltPower r | .weltForce r | .shankCoefLoad r | .shankCoefSwap r | .shankLimits r
  | .shankRate r | .shankStatus r | .calRun r | .calStatus r | .monitorRead r | .schedArm r
  | .schedDisarm r | .schedQuery r | .timePortConfig r | .ppsConfig r | .epochConfig r
  | .buddySet r | .heartbeatConfig r | .recoverPromote r | .resilienceStatus r | .logRead r
  | .logFreeze r | .logLastgaspRead r | .logFilter r | .fwBegin r | .fwBlock r | .fwVerify r
  | .fwArm r | .fwStatus r | .fwAbort r | .idCertRead r | .attestReport r | .svcTokenKey r
  | .testUnlock r => some r
  | _ => none

/-- A command that the interfaces can carry. -/
def Instr.wf (i : Instr) : Bool :=
  match i.reqOf with
  | some r => r.wf
  | none => match i with
    | .bar2Read a n fl => 1 ≤ n && a.toNat % 4096 + n ≤ 4096 && flawsWf fl
    | .bar2Write a bs fl => 1 ≤ bs.length && a.toNat % 4096 + bs.length ≤ 4096 && flawsWf fl
    | .frameReceive u l cw => cw.wf && (if u.val < 6 then l.val < 8 else l.val < 32)
    | .helloReceive u l b => b.length = 505 && (if u.val < 6 then l.val < 8 else l.val < 32)
    | .tpmFrameReceive f _ => f.wf
    | .mirrorCopyStart h => h = []
    | .moveCopyComplete fl => flawsWf fl
    | .moveDrainAck _ fl => flawsWf fl
    | .matrix _ fl => flawsWf fl
    | .vector _ fl => flawsWf fl
    | .stitch _ fl => flawsWf fl
    | .stitchSegmentSend _ _ fl => flawsWf fl
    | .stitchRequestReceive fl => flawsWf fl
    | .sramBankScrub _ _ fl => flawsWf fl
    | .patrolScrubRead _ _ fl => flawsWf fl
    | .mirrorPageRead fl => flawsWf fl
    | _ => true

end Sys2Proof
end

