-- ==== Sys2Proof/Tests/Slice0.lean ====
section
/-! SUPPORT. Tests of single commands on small states, and for each statement with hypotheses a state and operands that
meet them. -/

namespace Sys2Proof.Tests

set_option Elab.async false
set_option linter.unusedVariables false

open Machine

/-- The value of a result, or another. -/
def okOr {ε α : Type} (x : Except ε α) (d : α) : α :=
  match x with
  | .ok a => a
  | .error _ => d

theorem eq_okOr {ε α : Type} (x : Except ε α) (d : α) (h : x.isOk = true) : x = .ok (okOr x d) := by
  cases x with
  | ok a => rfl
  | error e => cases h

/-- The error of a result, or another. -/
def errOr {ε α : Type} (x : Except ε α) (d : ε) : ε :=
  match x with
  | .ok _ => d
  | .error e => e

theorem eq_errOr {ε α : Type} (x : Except ε α) (d : ε) (h : x.isOk = false) : x = .error (errOr x d) := by
  cases x with
  | ok a => cases h
  | error e => rfl

theorem eq_okPair {ε α : Type} (x : Except ε (Nat × α)) (d : Nat × α) (n : Nat) (h : x.isOk = true)
    (hn : (okOr x d).1 = n) : x = .ok (n, (okOr x d).2) := by
  rw [eq_okOr x d h, ← hn]
  rfl

/-- A request of a length from slot 3, with its words from word 2 on. -/
def ask (len : Nat) (args : List Word) : Req :=
  { via := .slot 3, flags := BitVec.ofNat 16 (16 * len), tag := 7, args := args, env := ⟨[], true⟩ }

/-- The same, with what the DMA of its descriptors answers. -/
def askWith (len : Nat) (args : List Word) (dma : Dma) : Req := { ask len args with env := ⟨dma, true⟩ }

/-- A module that serves, in Ready. -/
def up : State := { State.reset with glb := { state := .ready, yarlerUp := true } }

/-- A coefficient set. -/
def coef : Coef :=
  { kpA := 1, kiA := 1, ktA := 1, iaLo := 0, iaHi := 0, uLo := 0, uHi := 65536, lockTol := 1, lockN := 1, kpB := 1,
    kiB := 1, ktB := 1, kpD := 1, kiD := 1, ktD := 1, setTag := 5 }

/-- A module in Configurable that misses nothing. -/
def configured : State :=
  { up with
    glb := { state := .configurable, yarlerUp := true }
    fabric := { planLoaded := true }
    shank := { planes := [(0, { active := some coef, limits := some ⟨65536, 65536, 65536 * 20⟩ }),
      (1, { active := some coef, limits := some ⟨65536, 65536, 65536 * 20⟩ })] }
    tmu := { addendWritten := true } }

/-- A module with job 1 and tiles. -/
def withJob (x : Job) (tiles : Tbl Tile) : State := { up with jobs := [(1, x)], tiles := tiles }

/-- A module whose job 0 has region 0 of 64 KiB in MRDIMM, bound here. -/
def mappable : State :=
  { up with
    jobs := [(0, { status := .defined, dirBase := 0, dirLen := 1, regions := [(0, some { size := 65536, kind := 1 })] })]
    place := { rmap := [(0, { valid := true, size := 65536 })] } }

def definedJob : State := withJob { status := .defined, nRoles := 1 } []

/-- One END step as bytes. -/
def endStep : List Byte := List.replicate 32 0

def loadRequest : Req :=
  askWith 16 [1, 1, 0, 0, 0, 0x1000, 0, 32, 0, 0, 0, 0, 0, 0] [some endStep]

/-- A Pattern of one step for role 0. -/
def onePattern : Pattern := { steps := [0], group := 1 }

def placedJob : State :=
  withJob { status := .defined, nRoles := 1, placed := true, homes := [(0, 0, 0)],
            patterns := [(0, some onePattern)] } [(3, { job := some 1, role := some 0 })]

def armedJob : State :=
  { withJob { status := .armed, nRoles := 1, entry := some 0 } [] with
    sched := { entries := [(0, { st := .armed, action := 2, arg := 1 })] } }

def doneJob : State := withJob { status := .done, nRoles := 1 } []

def runningJob : State :=
  withJob { status := .running, nRoles := 1, homes := [(0, 0, 0)] } [(3, { job := some 1, role := some 0, run := .running, prog := [0] })]

/-- The same with a Stitch operation that waits for its completion. -/
def busyJob : State :=
  { runningJob with stitch := { table := [(4, { cond := .waiting, owner := 3 })] } }

/-- Regions declared: 0 of 64 bytes in tile SRAM, 1 at module 5. -/
def declaredJob : State :=
  withJob { status := .defined, nRoles := 1, homes := [(0, 0, 0)],
            regions := [(0, some { size := 64, kind := 0 }), (1, some { size := 64, kind := 3, home := 5 })] } []

/-- A job of one role with home here, which PLACE_JOB can place. -/
def roledJob : State := withJob { status := .defined, nRoles := 1, tag := 9, homes := [(0, 0, 0)] } []

def placeRequest : Req := askWith 12 [0x41, 0, 0x1000, 0, 4, 0, 0, 0, 0, 0] [some [0, 0, 0, 0]]

def placedState : State := okOr (placeSteps 1 [0] roledJob) roledJob

def placedMarked : State := modJob 1 (fun x => { x with placed := true, modules := [0] }) placedState

def ledgerAdd : Req := askWith 12 [0x50, 9, 0x1000, 0, 4, 0, 0, 0, 0, 0] [some [0, 0, 0, 0]]

def ledgerRequest : Req := askWith 12 [0x70, 9, 0x1000, 0, 4, 0, 0, 0, 0, 0] [some [0, 0, 0, 0]]

/-- Job 1 with region 0 of 64 bytes placed in MRDIMM, and memory for a move. -/
def boundJob : State :=
  { withJob { status := .defined, nRoles := 1, dirLen := 1,
              regions := [(0, some { size := 64, kind := 1, view := 7, base := some (ownPga 0 0 up) })] } [] with
    place := { rmap := [(0, { valid := true, place := 0, job := 1, size := 64, base := ownPga 0 0 up })]
               owned := [{ chan := 0, lo := 0, hi := 1, job := 1 }] }
    mem := { chans := [(0, { trained := true, spdGiB := 64, tried := true, inService := true })] } }

def planRequest : Req := ask 9 [5, 0, 0, 0, 0, 0, 0]

def planned : State := { up with fabric := { planLoaded := true } }

def routeRequest : Req := askWith 7 [0x1000, 0x1000, 0, 8, 0] [some [0, 0, 0, 0, 0, 0, 0, 0]]

def eyed : State := { up with fabric := { planLoaded := true, eyelets := [(2, some { lanes := 3, farModule := 7, farEyelet := 1 })] } }

def planCompile : Req :=
  askWith 12 [0, 1, 0x1000, 0, 8, 0, 0x2000, 0, 5120, 0] [some [0, 0, 0, 0, 0, 0, 0, 0], some []]

def planRead : List PlanLace := []

def planBank : Tbl (Option Lace) := []

def maintained : State := { up with glb := { state := .ready, yarlerUp := true, maint := true }, welt := { powered := true } }

def coefRequest : Req :=
  ask 19 [0, 0x10000, 0x10000, 0x10000, 0, 0x10000, 0, 0x20000, 0x100, 1, 0x10000, 0x10000, 0x10000, 0x10000, 0x10000, 0x10000, 5]

def coefPending : State := setPlane 0 { planeOf up 0 with pending := some (coefOf coefRequest) } up

def swappable : State := { up with shank := { planes := [(0, { active := some coef, pending := some coef })] } }

def swapPowered : State := { swappable with welt := { powered := true } }

def limited : State := setPlane 0 { planeOf up 0 with limitsDue := some (limitsOf (ask 6 [0, 0x280000, 0x200000, 0x320000])) } up

def armedUp : State := armAt 0 1 2000000 false 0 7 up

def buddied : State := { up with resil := { buddy := some 9 } }

/-- A buddy's header for this module. -/
def buddyHead : List Byte := leBytes 0x53544F52 8 ++ List.replicate 56 0

def buddyRequest : Req := askWith 7 [0, 9, 0, 0, 0] [some buddyHead, some []]

/-- One channel in service. -/
def memoried : State := { up with mem := { chans := [(0, { trained := true, spdGiB := 64, tried := true, inService := true })] } }

def reserveTotal : Nat := storeBytes (defaultView memoried) 1024 65536

def reserveStoreX : Store := { source := 9, base := 0, view := defaultView memoried, image := 65536, journal := 1024 }

def reserveT : State := (extentOf 0 reserveTotal memoried).own (storeOwner 0) memoried

def reserveU : State :=
  hdrPut reserveStoreX 0 [0x53544F52, word (9 + 65536 * defaultView memoried), 1024, 65536, 0, noIndex, noIndex, 0, 0, 0, noIndex]
    (storePut true reserveStoreX 0 emptyTable
      { reserveT with resil := { reserveT.resil with stores := [(0, some reserveStoreX)] } })

def stored : State := { up with resil := { stores := [(0, some { source := 9, base := 0, view := 1, image := 65536, journal := 1024 })] } }

/-- A job of the mask, a buddy and a sealed boundary 5, with nothing of the job in the image. -/
def restorable : State :=
  { withJob { status := .stopped } [] with resil := { buddy := some 9, jobMask := 2, sealedNew := 5 } }

def fwBeginRequest : Req := askWith 6 [0x1000, 0, 4096, 0] [some []]

/-- A delivery of one block. -/
def receiving : State :=
  { up with fw := { staging := .receiving, staged := { header := List.replicate 20 0 ++ 1 :: List.replicate 40 0 } } }

def fwBlockRequest : Req := askWith 11 [0, 0, 0, 0, 0, 0x1000, 0, 65536, 0] [some []]

def stagedAll : State := { receiving with fw := { receiving.fw with stored := List.range 512 } }

/-- A store of module 9 with boundary 5 sealed and one region of job_tag 7 in its table. -/
def promotable : State :=
  { withJob { status := .stopped, nRoles := 1, tag := 7 } [] with
    mem := { chans := [(0, { trained := true, spdGiB := 64, tried := true, inService := true })]
             dram := [(20, 5), (64, 7), (68, 1), (73, 1)] }
    resil := { stores := [(0, some { source := 9, base := 0, view := 1, image := 65536, journal := 1024 })] } }

def promoteRequest : Req := ask 6 [34, 9, 5, 7]

def promotedStore : Store := { source := 9, base := 0, view := 1, image := 65536, journal := 1024 }


def busySlot : State := { up with mbx := { slots := [(4, { cond := .busy })] } }

def doneSlot : State := { up with mbx := { slots := [(4, { cond := .done })] } }

/-- Slot 4 has been rung. -/
def rungUp : State := { up with mbx := { slots := [(4, { cond := .pending })], rung := [4] } }

/-- Slot 4 holds an ordered request behind a started command. -/
def rungBehind : State :=
  { up with mbx := { slots := [(4, { cond := .pending, req := [(0, 0x10000)] })], rung := [4], orders := 5,
                     started := [⟨0x0701, ask 3 [1], 0, 0⟩] } }

def gapOwed : State := { up with irq := { gaps := [(32, { isOpen := true, owed := true })] } }

def gapIdle : State := { up with irq := { gaps := [(32, { isOpen := true })] } }

/-- A module in Dead. -/
def deadUp : State := { State.reset with glb := { state := .dead } }

/-- A window on region 0 of job 0, of 64 KiB in MRDIMM of channel 0. -/
def windowed : State :=
  { memoried with
    jobs := [(0, { status := .defined, dirBase := 0, dirLen := 1 })]
    place := { rmap := [(0, { valid := true, size := 65536 })], owned := [{ chan := 0, lo := 0, hi := 1, job := 0 }] }
    bar2 := { pages := [(0, { cond := .mapped, rd := true, wr := true })] } }

def windowDrain : State :=
  { windowed with place := { windowed.place with rmap := [(0, { valid := true, size := 65536, move := 2 })] } }

/-- Its page waits for the mirror engine. -/
def windowCopied : State := { windowed with resil := { copy := some { index := 5, startAt := 0, half := 0, todo := [0] } } }

def windowHalted : State := { windowed with glb := { state := .halted, yarlerUp := true } }

/-- Its first line is poisoned. -/
def windowedBad : State :=
  { windowed with mem := { windowed.mem with lineErr := [(0, poisoned)] } }

/-- A window that may only be written. -/
def windowedW : State := { windowed with bar2 := { pages := [(0, { cond := .mapped, wr := true })] } }

/-- Yarler has just started an image that is newer than the stored log. -/
def migrating : State :=
  { State.reset with
    glb := { yarlerUp := true }
    fw := { area := { header := List.replicate 26 0 ++ [9, 0] }, logVersion := 2, migrateDue := true } }

/-- The module is in Migrate and has not converted yet. -/
def converting : State := { migrating with glb := { state := .migrate, yarlerUp := true } }

/-- Start-up has nothing left to wait for. -/
def starting : State :=
  { State.reset with
    glb := { yarlerUp := true }
    mem := { chans := (List.range 12).map (fun c => (c, { tried := true })) }
    log := { scanDone := true }
    mon := { lastMask := 63, atStart := true }
    power := { charged := true } }

/-- The timing port at 100 Mb/s with a receive ring of 16 and two descriptors. -/
def porty : State := { up with tpm := { speed := 1, linkUp := true, rx := { size := 16, tail := 2 } } }

/-- The same with a transmit ring. -/
def portyT : State := { up with tpm := { speed := 1, linkUp := true, tx := { size := 16, tail := 2 } } }

/-- One record of 4,096 bytes waits, and nothing is being written. -/
def fullLog : State :=
  { up with log := { up.log with scanDone := true, buf := [{ code := 0x2001, body := List.replicate 1020 0 }] } }

/-- The same at the last chunk of the Heel. -/
def heelFull : State := { fullLog with log := { fullLog.log with heelNext := 895 } }

/-- The same in the Toe, whose sector is not erased. -/
def toeStuck : State :=
  { fullLog with log := { fullLog.log with heelNext := 896, toeNext := 1024, halfErased := [64] } }

def scannedLog : State := { up with log := { up.log with scanDone := true } }

/-- A chunk is being programmed. -/
def writingLog : State := { up with log := { up.log with scanDone := true, inFlight := some (0, []) } }

/-- The queue of check unit 3 is full. -/
def cvuFull : State :=
  { up with cvus := [(2, { queue := List.replicate 16 { off := 0x14, value := 7 } }),
                     (3, { queue := List.replicate 16 { off := 0x14, value := 7 } })] }

/-- A session with the right to read. -/
def sess : Session := { rights := 1, tokenId := 0, lastMsg := 0 }

def serviced : State := { up with fw := { session := some sess } }

/-- A token of module 0 that nobody signed. -/
def tokenOf : List Byte := leBytes 0x544B4E31 4 ++ List.replicate 3337 0

/-- A copy that has just begun. -/
def page5 : Copy := { index := 5, startAt := 0, half := 0 }

def copying : State := { up with resil := { copy := some page5 } }

/-- The header of the store has come, and shows the half free. -/
def page5H : Copy := { page5 with header := some (List.replicate 64 0) }

def copyingH : State := { up with resil := { copy := some page5H } }

/-- It shows no free half. -/
def copyingB : State :=
  { up with resil := { copy := some { page5 with header := some (List.replicate 24 0 ++ [1] ++ List.replicate 39 0) } } }

/-- A page stands in the staging buffer of a copy that has started. -/
def stagedOn : State := { up with resil := { copy := some { page5 with started := true, staged := [(5, [])] } } }

def pageless : State := { up with resil := { copy := some { page5 with todo := [5] } } }

def paged : State := { memoried with resil := { copy := some { page5 with todo := [5] } } }

/-- Its first line is poisoned. -/
def pagedBad : State :=
  { paged with mem := { paged.mem with lineErr := [(5 * 1024, poisoned)] } }

/-- The copy has started. -/
def pagedOn : State := { memoried with resil := { copy := some { page5 with todo := [5], started := true } } }

/-- Staging is full. -/
def pagedFull : State :=
  { memoried with resil := { copy := some { page5 with todo := [5], staged := List.replicate 256 (1, []) } } }

/-- A store whose source has sealed nothing yet. -/
def sealedStore : State :=
  { memoried with
    mem := { memoried.mem with dram := [(24, 255), (25, 255), (26, 255), (27, 255)] }
    resil := { stores := [(0, some { source := 9, base := 0, view := 1, image := 65536, journal := 1024, sealAt := some 5 })] } }

/-- A module that sends heartbeats to module 9. -/
def peered : State := { up with resil := { peers := [{ id := 9, lastAt := 0 }] } }

/-- The last heartbeat of the peer said that it is Halted. -/
def peeredHalted : State := { up with resil := { peers := [{ id := 9, lastAt := 0, hb := [0x70000] }] } }

/-- Tile 3 runs a Pattern of one step of a kind, with words 2 to 4. -/
def stepped (kind w2 w3 w4 : Nat) : State :=
  withJob { status := .running, nRoles := 1, homes := [(0, 0, 0)] }
    [(3, { job := some 1, role := some 0, run := .running,
           prog := [BitVec.ofNat 256 (kind + 2 ^ 64 * w2 + 2 ^ 96 * w3 + 2 ^ 128 * w4)] })]

/-- Tile 3 is held. -/
def held3 (h : Hold) : State :=
  withJob { status := .running, nRoles := 1, homes := [(0, 0, 0)] }
    [(3, { job := some 1, role := some 0, run := .running, prog := [0], hold := h })]

/-- A TIMEWAIT for 0 that comes 9 ns late. -/
def lateWait (w2 : Nat) : State := { stepped 7 w2 0 0 with tmu := { ns := 9 } }

/-- Tile 3 is held by a FENCE for the matrix unit. -/
def heldBusy : State :=
  withJob { status := .running, nRoles := 1 }
    [(3, { job := some 1, role := some 0, run := .running, matrixOp := some {}, prog := [0], hold := .fence 2 0 })]

/-- The same with the matrix unit busy. -/
def busyUnit (kind w2 : Nat) : State :=
  withJob { status := .running, nRoles := 1, homes := [(0, 0, 0)] }
    [(3, { job := some 1, role := some 0, run := .running, matrixOp := some {}, prog := [BitVec.ofNat 256 (kind + 2 ^ 64 * w2)] })]

def vecBusy : State :=
  withJob { status := .running, nRoles := 1 } [(3, { job := some 1, role := some 0, run := .running, vectorOp := some {} })]

/-- Tile 3 is to issue a VECTOR step with its unit busy. -/
def vecWaits : State :=
  withJob { status := .running, nRoles := 1, homes := [(0, 0, 0)] }
    [(3, { job := some 1, role := some 0, run := .running, vectorOp := some {}, prog := [2] })]

def vecState : State := stepped 2 0 0 0

def vecStep0 : VecStep := vecStep (tileOf vecState 3) 2

def vecParam : List Word :=
  if vecStep0.readsParam && inSram vecStep0.param 64 then bytesWords (stepBytes 3 vecStep0.param 64 vecState) else []

def vecRes : VecResult :=
  vecResult vecStep0 vecParam (vecLoad 3 vecStep0 vecParam vecStep0.a vecState) (vecLoad 3 vecStep0 vecParam vecStep0.b vecState)
    (vecLoad 3 vecStep0 vecParam vecStep0.c vecState)
    { lfsr := (tileOf vecState 3).lfsr, ternInv := vecStep0.operands.findSome? (fun o => vecInvalid 3 vecStep0.n o vecState) }

def vecDone : State :=
  keepArith 3 vecRes.arith (vecStore 3 vecStep0 vecParam vecRes (stepTouch 3 ((vecStep0.insSpans vecParam).map spanRange) vecState))

/-- A STITCH step of a SIGNAL to role 0. -/
def stitchy : State := stepped 3 5 0 0

/-- The same with every entry of the tile's own in use. -/
def stitchFull : State :=
  { stitchy with stitch := { table := (List.range 128).map (fun i => (384 + i, { cond := .waiting })) } }

/-- A physical PUT of 64 bytes to module 5 has its entry. -/
def waitingOp : State :=
  { up with stitch := { table := [(4, { cond := .waiting, desc := { op := 1, phys := true, len := 64, target := pga 5 3 64 } })] } }

/-- An operation of a copy has its entry, and no move is in progress. -/
def copyLost : State :=
  { up with stitch := { table := [(4, { cond := .waiting, purpose := 5, desc := { op := 1, source := 2, len := 64 } })] } }

def timedOut : State :=
  { up with clk := 1000000000, stitch := { table := [(4, { cond := .waiting, sent := [(0, some (0, false))] })] } }

def answerPkt : Pkt := { bytes := withCheck (foldPrefix 0 4 1) (leBytes 0 4 ++ leBytes 4 4 ++ leBytes 0 8) }

def answered : State :=
  { up with
    stitch := { table := [(4, { cond := .waiting, desc := { op := 1, len := 64 }, sent := [(0, some (0, false))] })] }
    fabric := { inResp := [answerPkt] } }

/-- A SIGNAL from tile 3 to tally 2 of tile 3. -/
def requestPkt : Pkt :=
  { bytes := withCheck (foldPrefix 0 0 (pga 0 2 194))
      (leBytes 5 4 ++ leBytes 0 4 ++ leBytes (3 * 65536) 4 ++ leBytes 3 4 ++ leBytes (pga 0 2 194) 8) }

def requested : State := { runningJob with fabric := { inReq := [requestPkt] } }

def requestedHalted : State := { requested with glb := { state := .halted, yarlerUp := true } }

/-- The job is not bound to the tile. -/
def requestedGone : State := { up with fabric := { inReq := [requestPkt] } }

/-- A PUT to a tally, which takes SIGNALs only. -/
def badPkt : Pkt :=
  { bytes := withCheck (foldPrefix 0 0 (pga 0 2 194))
      (leBytes 1 4 ++ leBytes 0 4 ++ leBytes (3 * 65536) 4 ++ leBytes 3 4 ++ leBytes (pga 0 2 194) 8) }

def requestedBad : State := { runningJob with fabric := { inReq := [badPkt] } }

/-- A PUT of Management class to a line of MRDIMM. -/
def pagePkt : Pkt :=
  { bytes := withCheck (foldPrefix 0 0 (pga 0 0 0))
      (leBytes (1 + 3 * 64) 4 ++ leBytes 0 4 ++ leBytes (2 * 2 ^ 22) 4 ++ leBytes 0 4 ++ leBytes (pga 0 0 0) 8
        ++ [0]) }

theorem nextRequest_ready (s : State) (h : s.fabric.inReq.isEmpty = false) : s = nextRequest s := by
  unfold nextRequest
  rw [h]
  rfl

def requestedPage : State := { windowCopied with fabric := { inReq := [pagePkt] } }

/-- A PUT to a region that drains has its entry, and nothing of it has been sent. -/
def mustWait : State :=
  { windowDrain with stitch := { table := [(4, { cond := .waiting, desc := { op := 1, len := 64 } })] } }

/-- Channel 0 has met 1,025 corrected errors within an hour. -/
def noisy : State :=
  { up with mem := { chans := [(0, { trained := true, spdGiB := 64, tried := true, inService := true, ceTimes := List.replicate 1025 0 })] } }

/-- Channel 0 has been quiet for a day. -/
def quieted : State :=
  { up with clk := 43200000000000,
            mem := { chans := [(0, { trained := true, spdGiB := 64, tried := true, inService := true, fast := true })] } }

/-- Both subchannels have read their last line. -/
def passDone : State :=
  { up with mem := { chans := [(0, { inService := true, spdGiB := 64, scrub := 64 * 2 ^ 23, scrub1 := 64 * 2 ^ 23 })] } }

/-- Every socket has been tried, and channel 0 has trained. -/
def trainedAll : State :=
  { up with mem := { chans := (List.range 12).map (fun c => (c, { tried := true, trained := c = 0, spdGiB := 64 })) } }

/-- Entry `i` of the Region Map. -/
def rmEntry (s : State) (i : Nat) : RmEntry := tget {} s.place.rmap i

/-- Region 0 of job 1 is being copied 64 bytes further on. -/
def movingJob : State :=
  { boundJob with
    place := { boundJob.place with move := some { job := 1, oldBase := ownPga 0 0 up, newBase := ownPga 0 64 up } } }

/-- The same from a place that is gone. -/
def movingGone : State :=
  { boundJob with
    place := { boundJob.place with move := some { job := 1, oldBase := ownPga 0 (2 ^ 44) up, newBase := ownPga 0 64 up } } }

/-- The same in drain, with module 5 to acknowledge. -/
def drainingJob : State :=
  { boundJob with
    place := { boundJob.place with
      move := some { job := 1, oldBase := ownPga 0 0 up, newBase := ownPga 0 64 up, phase := 2, waiting := [5] } } }

def flipMove : Move := { job := 1, oldBase := ownPga 0 0 up, newBase := ownPga 0 64 up, phase := 3 }

def flippingJob : State := { boundJob with place := { boundJob.place with move := some flipMove } }

def flipRegion : Region := { size := 64, kind := 1, view := 7, base := some (ownPga 0 0 up) }

def flipW : State :=
  rmMod 1 0 (fun e => { e with
    move := 0, base := ownPga 0 64 up, newBase := 0, place := if pgaSpace (ownPga 0 64 up) = 1 then 1 else 2, lost := false }) flippingJob

def flipU : State :=
  setRegion 1 0 (some { flipRegion with base := some (ownPga 0 64 up), pin := repin flipRegion.pin (ownPga 0 64 up) }) flipW

/-- Module 5 has not acknowledged a flip for 50 ms. -/
def lateFlip : State :=
  { up with clk := 25000000, place := { settling := [{ job := 1, flipAt := 0, waiting := [5], lastAck := 0 }] } }

def flipV : State :=
  { flipU with
    place := { flipU.place with
      move := none
      settling := flipU.place.settling ++ [{ job := 1, oldBase := ownPga 0 0 up, size := 64, flipAt := flipU.clk,
                                             waiting := otherModules 1 flipU, lastAck := flipU.clk }] } }

/-- Job 1 of job_tag 9 imports region 0 of module 5. -/
def importing : State :=
  { withJob { status := .defined, nRoles := 1, tag := 9, dirLen := 1 } [] with
    place := { rmap := [(0, { valid := true, remote := true, job := 1, size := 64, base := pga 5 0 0 })] } }

/-- Torus port 2 has trained. -/
def trained2 : State := { up with fabric := { units := [(2, { trained := true })] } }

/-- The same with lane 3 so. -/
def lanesWith (l : Lane) : State := { up with fabric := { units := [(2, { trained := true })], lanes := [(19, l)] } }

/-- Torus port 2 retrains. -/
def retraining2 : State := { up with clk := 5000, fabric := { units := [(2, { trained := true, retrainAt := some 0 })] } }

/-- Eyelet 2 has lane 0, which is laced both ways. -/
def lacedEye : State :=
  { up with
    fabric := { eyelets := [(2, some { lanes := 1, farModule := 7, farEyelet := 1 })] }
    welt := { powered := true, active := [(0, some {}), (160, some {})] } }

/-- Its lane has lost its lock. -/
def lacedLost : State := { lacedEye with fabric := { lacedEye.fabric with lanes := [(48, { locked := true })] } }

/-- Torus port 2 is up with one lane, and has a packet to send. -/
def sendPkt : Pkt := { cls := 1, dest := 9, tx := 1 }

def sending : State :=
  { up with fabric := { units := [(2, { trained := true, state := 4, txq := [sendPkt] })],
                        lanes := [(19, { svc := .inService, heard := true, lock := true })] } }

/-- Torus port 2 holds a packet for a module one step on along x, and port 0 is up. -/
def forwarding : State :=
  { up with fabric := { size := (4, 4, 2), units := [(0, { state := 4 }), (2, { trained := true, state := 4, rxq := [(1, [sendPkt])] })] } }

/-- An Eyelet holds a response for this module. -/
def arrived : State := { up with fabric := { units := [(8, { rxq := [(1, [{ cls := 1 }])] })] } }

/-- An entry of action 5 is due. -/
def dueUp : State := { up with sched := { entries := [(2, { st := .armed, action := 5, arg := 0, instant := 0, seq := 1, passed := true })] } }

/-- A relace of no lace, whose first sample has had its time. -/
def relaced : State :=
  { up with clk := 1000000, welt := { powered := true, relace := some { t := 5, tick := 0, touched := [], failed := [], entry := 3 } } }

/-- Lace 7 stands so, with the taps of its inlet at the given power. -/
def laced (x : LaceRun) (q : Q) : State :=
  { up with clk := 600000000, welt := { powered := true, laces := [(7, x)] }, mon := { values := [(rdKey 5 7, some q)] } }

/-- The band-gaps have differed for a second. -/
def apart : State := { up with clk := 600000000, mon := { bg1 := 3000, bgSince := some 0 } }

/-- Sensor 0 has drifted by 20 degrees. -/
def driftedUp : State := { up with mon := { lastTemp := [(0, some (65536 * 20))] } }

/-- A run of REF is in progress. -/
def calibrating : State := { up with mon := { running := 1 } }

/-- The buffer of the recorder holds 229,376 bytes, which is 224 KiB. -/
def fullUp : State :=
  { up with log := { up.log with scanDone := true, buf := List.replicate 56 { code := 0x2001, body := List.replicate 1020 0 } } }

/-- A module in Boot that is powered. -/
def booting : State := { State.reset with glb := { yarlerUp := true } }

/-- A deferred run, with a relace still incomplete. -/
def deferredUp : State := { relaced with mon := { deferred := some 900000 } }

/-- A TERN step of kind 1 or 2 with an invalid code at byte 0 of tile 3's SRAM. -/
def ternBits (kind w3 w6 : Nat) : BitVec 256 := BitVec.ofNat 256 (kind + 2 ^ 96 * w3 + 2 ^ 192 * w6)

def ternState (kind w3 w6 : Nat) : State :=
  let s := withJob { status := .running, nRoles := 1, homes := [(0, 0, 0)] }
    [(3, { job := some 1, role := some 0, run := .running, prog := [ternBits kind w3 w6] })]
  { s with mem := { s.mem with sram := [(sramAddr 3 0, 243)] } }

/-- Tile 3 is to issue a MATRIX step with per-tensor scales. -/
def fineTile : State :=
  withJob { status := .running, nRoles := 1, homes := [(0, 0, 0)] }
    [(3, { job := some 1, role := some 0, run := .running, prog := [1 + 2 ^ 160 * 2 ^ 26] })]

/-- An error of a code. -/
def errIs {α : Type} (x : Except Nat α) (c : Nat) : Bool :=
  match x with
  | .ok _ => false
  | .error d => d = c

theorem eq_errIs {α : Type} (x : Except Nat α) (c : Nat) (h : errIs x c = true) : x = .error c := by
  cases x with
  | ok a => cases h
  | error d => exact congrArg _ (of_decide_eq_true h)

/-! Ill-formed terms are refused, one for each check of WellFormed. -/

/-- A line error pattern of one beat. -/
def shortFlaw : Flaw := .dram 0 0 [0]

theorem test_wf_request : Instr.wf (.sysInfo { ask 2 [] with args := [] }) = true := by decide
theorem test_wf_request_length : Instr.wf (.sysInfo (ask 2 [0])) = false := by decide
theorem test_wf_dram_beats : Flaw.wf shortFlaw = false := by decide
theorem test_wf_sram_word : Flaw.wf (.sram 0 786432 1) = false := by decide
theorem test_wf_sram_bits : Flaw.wf (.sram 0 0 3) = false := by decide
theorem test_wf_bar2_read_empty : Instr.wf (.bar2Read 0 0 []) = false := by decide
theorem test_wf_bar2_read_crossing : Instr.wf (.bar2Read 4095 2 []) = false := by decide
theorem test_wf_bar2_write_empty : Instr.wf (.bar2Write 0 [] []) = false := by decide
theorem test_wf_bar2_write_crossing : Instr.wf (.bar2Write 4095 [0, 0] []) = false := by decide
theorem test_wf_frame_body :
    Instr.wf (.frameReceive 0 0 { symErrs := 0, header := 0, body := [] }) = false := by decide
theorem test_wf_hello_body : Instr.wf (.helloReceive 0 0 []) = false := by decide
theorem test_wf_port_frame : EthFrame.wf { bytes := [], fcsOk := true } = false := by decide
theorem test_wf_header : Instr.wf (.mirrorCopyStart [1]) = false := by decide
theorem test_wf_flaw_lists :
    [Instr.wf (.matrix 0 [shortFlaw]), Instr.wf (.vector 0 [shortFlaw]), Instr.wf (.stitch 0 [shortFlaw]),
     Instr.wf (.stitchSegmentSend 0 0 [shortFlaw]), Instr.wf (.stitchRequestReceive [shortFlaw]),
     Instr.wf (.moveCopyComplete [shortFlaw]), Instr.wf (.mirrorPageRead [shortFlaw])]
      = [false, false, false, false, false, false, false] := by decide

/-- No row of the table gives bits, so no word spells a command. -/
theorem test_no_word : decodeTableWord 32 0x00600120 = none := by decide

/-! The spec's worked examples. -/

/-- The state that an outcome goes on with, or another. -/
def nextOr (o : Host.Outcome State Fault Refusal) (d : State) : State :=
  match o with
  | .next s => s
  | _ => d

/-- 02 Worked exchange: request word 0 is 0x00600120; pages, words 0 and 1 of the response and done bit 5. -/
def windowRequest : Req :=
  { via := .slot 5, flags := 0x0060, tag := 0xA7, args := [0x00030003, 0x12, 0x00400000, 0], env := ⟨[], true⟩ }

def windowBefore : State :=
  { up with
    jobs := [(0, { status := .defined, dirBase := 0, dirLen := 256,
                   regions := [(0x12, some { size := 0x10000000, kind := 1 })] })]
    place := { rmap := [(0x12, { valid := true, size := 0x10000000 })] }
    mbx := { slots := [(5, { cond := .busy })] } }

def windowAfter : State := nextOr (exec (.mapWindow windowRequest) windowBefore) windowBefore

theorem test_map_window_page :
    ((pageOf windowAfter 3).cond, (pageOf windowAfter 3).region, (pageOf windowAfter 3).offset) = (.mapped, 0x12, 0x400000) := by
  decide +kernel

theorem test_map_window_answer :
    ((slotOf windowAfter 5).cond, tget 0 (slotOf windowAfter 5).resp 0, tget 0 (slotOf windowAfter 5).resp 1)
      = (.done, 0x00200000, 0xA7) := by
  decide +kernel

/-- 03 Worked example, a TERN row: bytes 227 and 45. -/
theorem test_trits_227 : trits 227 = [1, -1, 0, 1, 1] := by decide +kernel
theorem test_trits_45 : trits 45 = [-1, -1, 1, 0, -1] := by decide +kernel
theorem test_trit_code : tritCode [1, -1, 0, 1, 1] = 227 := by decide +kernel

/-- 03 Worked example, one fine-block FP4 dot product. -/
def fineStep : MatStep :=
  { af := 7, wf := 7, outFmt := 1, mode := 2, K := 16, M := 1, aPitch := 64, wPitch := 64, oPitch := 64, sPitch := 64,
    stoch := false, clear := true, emit := true, param := 0 }

def fineA : Nat := leNat [0x12, 0x5C, 0x30, 0xA7, 0x44, 0x69, 0x02, 0x1D]
def fineW : Nat := leNat [0x24, 0x92, 0x46, 0x51, 0x3A, 0x14, 0xE7, 0x42]

theorem test_fine_group : (chain fineStep fineA fineW 0x34 0x3A (0, { lfsr := 1 })).1 = 0x40F00000 := by decide +kernel
theorem test_fine_output :
    (outCode fineStep (effMult true 0x3F800000 0x3F000000 0x3D800000) 0x40F00000 { lfsr := 1 }).1 = 0x3E70 := by
  decide +kernel

/-- 04 Worked Pattern, step 7: the fields of its MATRIX step. -/
def workedStep : BitVec 256 := BitVec.ofNat 256
  (leNat ([0x00000011, 0, 0x30808400, 0x30800000, 0x1020C600, 0x3204C400, 0x1FFE8000, 0x01FED600].flatMap
    (fun w => leBytes w 4)))

theorem test_worked_step : ((matStep workedStep).af, (matStep workedStep).aPitch, (matStep workedStep).outFmt,
    (matStep workedStep).oPitch) = (3, 4096, 1, 1024) := by decide +kernel
theorem test_worked_step_scales : ((matStep workedStep).mode, (matStep workedStep).sPitch, (matStep workedStep).K,
    (matStep workedStep).M, (matStep workedStep).param) = (1, 128, 4096, 256, 0x358000) := by decide +kernel

/-- 06 Worked example, one address through view 5. -/
def twelveDimms : State :=
  { up with
    mem := { chans := (List.range 12).map (fun c => (c, { tried := true, trained := true, inService := true, spdGiB := 256 })) } }

theorem test_view_decode : viewDecode 5 0xC000135A40 twelveDimms = (9, 0x1000019A40) := by decide +kernel

/-- 08 Worked example, a ring on a 4×4 torus: module 0x0200 and job W. -/
def ringModule : State :=
  { up with
    glb := { state := .ready, yarlerUp := true, moduleId := 0x0200 }
    fabric := { planLoaded := true, size := (4, 4, 1), coords := (0, 0, 0), planned := 0xF
                routes := (List.range 4).map (fun x => (x, BitVec.ofNat 64 (0x30200 + x + x * 2 ^ 18)))
                units := (List.range 4).map (fun p => (p, { state := 4 })) } }

theorem test_ring_transit : (pathSet [0x0200, 0x0201, 0x0202] ringModule).others = [0x0203, 0x0201] ∨
    (pathSet [0x0200, 0x0201, 0x0202] ringModule).others = [0x0201, 0x0203] := by decide +kernel

/-- 08 Worked example: the bypass entry for module 0x0200. -/
theorem test_bypass_entry :
    (reCoords 0x00000145_00030200, reGateway 0x00000145_00030200, reEyelet 0x00000145_00030200) = ((0, 0, 0), (2, 0, 0), 5) := by
  decide +kernel

/-- 09 Worked example, a relace: words 0 of the two new entries of module 0x0041. -/
theorem test_plan_outbound : planLace 0x00018021 7 = { index := 8, outlet := 96, tag := 7 } := by decide +kernel
theorem test_plan_inbound : planLace 0x00002183 7 = { index := 256, outlet := 8, tag := 7 } := by decide +kernel

/-- 10 Worked example, a swap while saturated: set S1 and set S2, in 2^-16. -/
def setS1 : Coef :=
  { kpA := qi 40, kiA := qi 20, ktA := qi 1, iaLo := qi (-8), iaHi := qi 8, uLo := 0, uHi := qi 30, lockTol := 0,
    lockN := 1, kpB := 0, kiB := qi 10, ktB := qi 1, kpD := 0, kiD := 0, ktD := 0, setTag := 1 }

def setS2 : Coef :=
  { setS1 with kpA := qi 24, kiA := qi 10, iaLo := qi (-6), iaHi := qi 6, uHi := qi 28 }

def sampleOf (c : Coef) (swap : Bool) : SampleCtx :=
  { c := c, lim := ⟨qi 32, qi 100000, qi 90⟩, ts := 50000, h := qi 1000, vd := qi 1000, swap := swap }

/-- The cell before k0, and after k0 and k1. -/
def swapCell : Cell := { inUse := true, target := true, uff := qi 22, ia := qi 2, ib := qi 30, u := qi 30 }
def swapK0 : Cell := cellLaw (sampleOf setS1 false) 32768 (qi 2) true false none swapCell
def swapK1 : Cell :=
  cellLaw (sampleOf setS2 true) 24576 (qi 2) true false none (reinitCell (sampleOf setS2 true) 24576 (qi 2) swapK0).1
def swapK2 : Cell := cellLaw (sampleOf setS2 false) 16384 (qi 4) true false none swapK1

theorem test_swap_k0 : (swapK0.va, swapK0.vb, swapK0.u, swapK0.ia, swapK0.sat) = (2916352, 2031616, 1966080, -524288, true) := by
  decide +kernel
theorem test_swap_k1 : (swapK1.va, swapK1.u, swapK1.ia, swapK1.count) = (1966080, 1835008, -196608, 0) := by
  decide +kernel
theorem test_swap_k2 : (swapK2.va, swapK2.vb, swapK2.u, swapK2.ia, swapK2.count) = (1646592, 1966080, 1646592, -188416, 1) := by
  decide +kernel

/-- 10 Worked example, hand-over between loops: k0 and k4. -/
def handK0 : Cell :=
  cellLaw (sampleOf setS2 false) (qi 1) 1605632 true false none { uff := qi 22, ia := 0, ib := 98304, u := 98304 }
def handK4 : Cell :=
  cellLaw (sampleOf setS2 false) 12288 100352 true false none { uff := qi 22, ia := qi (-6), ib := 1603584, u := 1603584 }

theorem test_hand_over_k0 : (handK0.va, handK0.vb, handK0.u, handK0.winner, handK0.ia, handK0.ib)
    = (3047424, 901120, 901120, 1, -393216, 901120) := by decide +kernel
theorem test_hand_over_k4 : (handK4.va, handK4.vb, handK4.u, handK4.winner, handK4.ia, handK4.ib)
    = (1349632, 1653760, 1349632, 0, -387072, 1349632) := by decide +kernel

/-- 12 Worked example, master time moves back: the refused and the accepted step. -/
def stepsAt (ns : Word) (first : EntState) : State :=
  { up with
    tmu := { up.tmu with ns := ns, addendWritten := true }
    sched := { entries := [(0, { st := first, action := 3, instant := 0x60000000, seq := 0x412 }),
                           (1, { st := .armed, action := 1, instant := 0x7DCD6500, seq := 0x413 }),
                           (2, { st := .armed, action := 3, instant := 0x6BEBC200, seq := 0x414 })] } }

theorem test_step_refused :
    (nextOr (exec (.tmuStepWrite 0xD34BE880) (stepsAt 0x60009C40 .firing)) up).tmu.ns = 0x60009C40 := by decide +kernel
theorem test_step_back :
    (nextOr (exec (.tmuStepWrite 0xD34BE880) (stepsAt 0x600F4240 .spent)) up).tmu.ns = 0x335B2AC0 := by decide +kernel

/-- 15 Worked examples: CRC-32C and a 16-bit CRC of "123456789". -/
def nineDigits : List Byte := [0x31, 0x32, 0x33, 0x34, 0x35, 0x36, 0x37, 0x38, 0x39]

theorem test_crc32c : cvuResult (cvuFeed nineDigits (cvuStartOp {})) = 0xE3069283 := by decide +kernel
theorem test_crc16 : cvuResult (cvuFeed nineDigits (cvuStartOp
    { width := 16, refin := false, refout := false, poly := 0x1021, init := 0xFFFF, xorout := 0 })) = 0x29B1 := by
  decide +kernel

/-- 15 Worked examples: the control word of CVU0, and the sequence word of R179 that it checks. -/
theorem test_cvu_ctrl : ((cvuCtrl 0x1320 {}).width, (cvuCtrl 0x1320 {}).prefixWords) = (32, 4) := by decide +kernel
theorem test_seq_word : seqWord 2700 3 5 = 0x0014CA8C := by decide +kernel
theorem test_cvu_prefix : foldPrefix 0x0107 0x0014CA8C 0x0107200008865000
    = leBytes 0x107 4 ++ leBytes 0x0014CA8C 4 ++ leBytes 0x0107200008865000 8 := by decide +kernel

/-! Witnesses. -/

theorem holds_systemCommands_1 : ∃ (r : Req) (s : State),
    (Asked 0x0101 2 r s) ∧
    (s.glb.state ≠ .migrate) :=
  ⟨ask 2 [], up, by
    (repeat' apply And.intro) <;> first | decide +kernel | rfl | exact fun _ _ => rfl⟩

theorem holds_systemCommands_2 : ∃ (r : Req) (s : State),
    (Asked 0x0102 2 r s) ∧
    (s.glb.state = .configurable) ∧
    (s.fabric.planLoaded = true) ∧
    ((∀ p, p < 2 → (planeOf s p).active.isSome ∧ ((planeOf s p).limits.isSome ∨ (planeOf s p).limitsDue.isSome))) ∧
    (s.tmu.addendWritten = true) :=
  ⟨ask 2 [], configured, by
    (repeat' apply And.intro) <;> first | decide +kernel | rfl | exact fun _ _ => rfl⟩

theorem holds_systemCommands_3 : ∃ (r : Req) (s : State),
    (Asked 0x0103 2 r s) ∧
    ((s.glb.state = .ready ∨ s.glb.state = .degraded)) ∧
    (jobsDefined s = 0) :=
  ⟨ask 2 [], up, by
    (repeat' apply And.intro) <;> first | decide +kernel | rfl | exact fun _ _ => rfl⟩

theorem holds_systemCommands_4 : ∃ (r : Req) (s : State),
    (Asked 0x0104 3 r s) ∧
    (zeroFrom r 2 1 = true) ∧
    (rb r 2 0 = true) ∧
    (anyRunning s = false) :=
  ⟨ask 3 [1], up, by
    (repeat' apply And.intro) <;> first | decide +kernel | rfl | exact fun _ _ => rfl⟩

theorem holds_systemCommands_5 : ∃ (r : Req) (s : State),
    (Asked 0x0104 3 r s) ∧
    (zeroFrom r 2 1 = true) ∧
    (rb r 2 0 = false) :=
  ⟨ask 3 [0], up, by
    (repeat' apply And.intro) <;> first | decide +kernel | rfl | exact fun _ _ => rfl⟩

theorem holds_systemCommands_6 : ∃ (r : Req) (s : State),
    (Asked 0x0110 4 r s) ∧
    (zeroFrom r 2 2 = true) ∧
    (rw r 3 = 0x2460) ∧
    ((rb r 2 0 = true ∨ rb r 2 1 = true ∨ resetUnsafe s = false)) ∧
    (activationFiring s = false) :=
  ⟨ask 4 [2, 0x2460], up, by
    (repeat' apply And.intro) <;> first | decide +kernel | rfl | exact fun _ _ => rfl⟩

theorem holds_systemCommands_7 : ∃ (r : Req) (s : State),
    (Asked 0x0111 2 r s) :=
  ⟨ask 2 [], up, by
    (repeat' apply And.intro) <;> first | decide +kernel | rfl | exact fun _ _ => rfl⟩

theorem holds_systemCommands_8 : ∃ (r : Req) (s : State),
    (Asked 0x0120 6 r s) ∧
    (rf r 2 10 6 = 0) ∧
    (zeroFrom r 2 18 = true) ∧
    (winUnmaps r = true) ∧
    (zeroWords r 3 5 = true) :=
  ⟨ask 6 [5, 0, 0, 0], up, by
    (repeat' apply And.intro) <;> first | decide +kernel | rfl | exact fun _ _ => rfl⟩

theorem holds_systemCommands_9 : ∃ (r : Req) (s : State),
    (Asked 0x0120 6 r s) ∧
    (rf r 2 10 6 = 0) ∧
    (zeroFrom r 2 18 = true) ∧
    (winUnmaps r = false) ∧
    (operating s = true) ∧
    (winOk r s = true) :=
  ⟨ask 6 [0x30005, 0, 0, 0], mappable, by
    (repeat' apply And.intro) <;> first | decide +kernel | rfl | exact fun _ _ => rfl⟩

theorem holds_jobCommands_1 : ∃ (r : Req) (s : State),
    (Asked 0x0201 6 r s) ∧
    (jobIs [.free] r s = true) ∧
    (zeroFrom r 2 4 = true) ∧
    (zeroFrom r 3 18 = true) ∧
    ((∀ j ∈ jobNos, j = reqJob r ∨ (jobOf s j).status = .free ∨ (jobOf s j).tag ≠ rw r 5)) :=
  ⟨ask 6 [1, 0, 5, 9], up, by
    (repeat' apply And.intro) <;> first | decide +kernel | rfl | exact fun _ _ => rfl⟩

theorem holds_jobCommands_2 : ∃ (r : Req) (s : State),
    (Asked 0x0202 16 r s) ∧
    (jobIs [.free, .armed, .running] r s = false) ∧
    (loadOk r s = true) ∧
    (dmaGood r 0 = true) ∧
    ((hasPreload r = true → dmaGood r 1 = true)) ∧
    (checkSteps (jobOf s (reqJob r)).nRoles (patternOfReq r).steps = none) ∧
    (storeUsed (reqJob r) (rf r 2 4 6) s + patternBytes (patternOfReq r) ≤ 134217728) :=
  ⟨loadRequest, definedJob, by
    (repeat' apply And.intro) <;> first | decide +kernel | rfl | exact fun _ _ => rfl⟩

theorem holds_jobCommands_3 : ∃ (r : Req) (s : State),
    (Asked 0x0203 4 r s) ∧
    (operating s = true) ∧
    (s.glb.maint = false) ∧
    (jobIs [.defined, .done, .stopped, .faulted] r s = true) ∧
    (jobPlaced (jobOf s (reqJob r)) s = true) ∧
    ((∀ t ∈ roleTiles (reqJob r) s, (patternOf (jobOf s (reqJob r)) (roleOf t s)).isSome)) ∧
    (zeroFrom r 2 5 = true) ∧
    (rb r 2 4 = false) ∧
    (rw r 3 = 0) ∧
    (mayRun s = true) :=
  ⟨ask 4 [1, 0], placedJob, by
    (repeat' apply And.intro) <;> first | decide +kernel | rfl | exact fun _ _ => rfl⟩

theorem holds_jobCommands_4 : ∃ (r : Req) (s : State) (i : Nat),
    (Asked 0x0203 4 r s) ∧
    (operating s = true) ∧
    (s.glb.maint = false) ∧
    (jobIs [.defined, .done, .stopped, .faulted] r s = true) ∧
    (jobPlaced (jobOf s (reqJob r)) s = true) ∧
    ((∀ t ∈ roleTiles (reqJob r) s, (patternOf (jobOf s (reqJob r)) (roleOf t s)).isSome)) ∧
    (zeroFrom r 2 5 = true) ∧
    (rb r 2 4 = true) ∧
    (leadOk (rw r 3) 10000000 s = true) ∧
    (takeIndex s = some i) ∧
    (mayRun s = true) :=
  ⟨ask 4 [0x11, 20000000], placedJob, 0, by
    (repeat' apply And.intro) <;> first | decide +kernel | rfl | exact fun _ _ => rfl⟩

theorem holds_jobCommands_5 : ∃ (r : Req) (s : State) (i : Nat),
    (Asked 0x0204 3 r s) ∧
    (zeroFrom r 2 4 = true) ∧
    ((jobOf s (reqJob r)).status = .armed) ∧
    ((jobOf s (reqJob r)).firing = false) ∧
    ((jobOf s (reqJob r)).entry = some i) :=
  ⟨ask 3 [1], armedJob, 0, by
    (repeat' apply And.intro) <;> first | decide +kernel | rfl | exact fun _ _ => rfl⟩

theorem holds_jobCommands_6 : ∃ (r : Req) (s : State),
    (Asked 0x0204 3 r s) ∧
    (zeroFrom r 2 4 = true) ∧
    (((jobOf s (reqJob r)).status = .done ∨ (jobOf s (reqJob r)).status = .stopped ∨ (jobOf s (reqJob r)).status = .faulted)) :=
  ⟨ask 3 [1], doneJob, by
    (repeat' apply And.intro) <;> first | decide +kernel | rfl | exact fun _ _ => rfl⟩

theorem holds_jobCommands_7 : ∃ (r : Req) (s : State) (t : State),
    (Asked 0x0204 3 r s) ∧
    (zeroFrom r 2 4 = true) ∧
    ((jobOf s (reqJob r)).status = .running) ∧
    ((jobOf s (reqJob r)).stopping = none) ∧
    (t = modJob (reqJob r) (fun x => { x with stopping := some (runningTiles (reqJob r) s).length }) (stopRoles (reqJob r) s)) ∧
    (jobQuiet (reqJob r) t = true) :=
  ⟨ask 3 [1], runningJob, (modJob 1 (fun x => { x with stopping := some (runningTiles 1 runningJob).length }) (stopRoles 1 runningJob)), by
    (repeat' apply And.intro) <;> first | decide +kernel | rfl | exact fun _ _ => rfl⟩

theorem holds_jobCommands_8 : ∃ (r : Req) (s : State) (t : State),
    (Asked 0x0204 3 r s) ∧
    (zeroFrom r 2 4 = true) ∧
    ((jobOf s (reqJob r)).status = .running) ∧
    ((jobOf s (reqJob r)).stopping = none) ∧
    (t = modJob (reqJob r) (fun x => { x with stopping := some (runningTiles (reqJob r) s).length }) (stopRoles (reqJob r) s)) ∧
    (jobQuiet (reqJob r) t = false) :=
  ⟨ask 3 [1], busyJob, (modJob 1 (fun x => { x with stopping := some (runningTiles 1 busyJob).length }) (stopRoles 1 busyJob)), by
    (repeat' apply And.intro) <;> first | decide +kernel | rfl | exact fun _ _ => rfl⟩

theorem holds_jobCommands_9 : ∃ (r : Req) (s : State),
    (Asked 0x0205 3 r s) ∧
    (jobIs [.free] r s = false) ∧
    (zeroFrom r 2 11 = true) ∧
    (rb r 2 4 = false) :=
  ⟨ask 3 [1], definedJob, by
    (repeat' apply And.intro) <;> first | decide +kernel | rfl | exact fun _ _ => rfl⟩

theorem holds_jobCommands_10 : ∃ (r : Req) (s : State),
    (Asked 0x0205 3 r s) ∧
    (jobIs [.free] r s = false) ∧
    (zeroFrom r 2 11 = true) ∧
    (rb r 2 4 = true) ∧
    ((tileOf s (rf r 2 5 6)).job = some (reqJob r)) :=
  ⟨ask 3 [0x71], runningJob, by
    (repeat' apply And.intro) <;> first | decide +kernel | rfl | exact fun _ _ => rfl⟩

theorem holds_jobCommands_11 : ∃ (r : Req) (s : State),
    (Asked 0x0206 3 r s) ∧
    (jobIs [.free, .armed, .running] r s = false) ∧
    (zeroFrom r 2 4 = true) :=
  ⟨ask 3 [1], definedJob, by
    (repeat' apply And.intro) <;> first | decide +kernel | rfl | exact fun _ _ => rfl⟩

theorem holds_jobCommands_12 : ∃ (r : Req) (s : State) (t : Nat),
    (Asked 0x0207 4 r s) ∧
    (jobIs [.free, .defined] r s = false) ∧
    (zeroFrom r 2 4 = true) ∧
    (zeroFrom r 3 18 = true) ∧
    (rf r 3 0 18 < (jobOf s (reqJob r)).nRoles) ∧
    (tileOfRole (reqJob r) (rf r 3 0 18) s = some t) :=
  ⟨ask 4 [1, 0], runningJob, 3, by
    (repeat' apply And.intro) <;> first | decide +kernel | rfl | exact fun _ _ => rfl⟩

theorem holds_placementCommands_1 : ∃ (r : Req) (s : State),
    (Asked 0x0301 8 r s) ∧
    (jobIs declStatus r s = true) ∧
    ((∀ x, regionOf (reqJob r) (rf r 3 0 16) s = some x → regionHeld x = false)) ∧
    (declOk r s = true) ∧
    (((regionOf (reqJob r) (rf r 3 0 16) s).isSome ∨ regionCount s < 65536)) :=
  ⟨ask 8 [1, 0, 64, 0, 0, 0], definedJob, by
    (repeat' apply And.intro) <;> first | decide +kernel | rfl | exact fun _ _ => rfl⟩

theorem holds_placementCommands_2 : ∃ (r : Req) (s : State),
    (Asked 0x0302 6 r s) ∧
    (jobIs declStatus r s = true) ∧
    ((∀ k ∈ declRoles r, roleHeld (jobOf s (reqJob r)) k = false)) ∧
    (zeroFrom r 2 4 = true) ∧
    (zeroFrom r 3 18 = true) ∧
    (zeroFrom r 4 18 = true) ∧
    (zeroFrom r 5 16 = true) ∧
    (rf r 3 0 18 ≤ rf r 4 0 18) ∧
    (rf r 4 0 18 < (jobOf s (reqJob r)).nRoles) :=
  ⟨ask 6 [1, 0, 0, 0], definedJob, by
    (repeat' apply And.intro) <;> first | decide +kernel | rfl | exact fun _ _ => rfl⟩

theorem holds_placementCommands_3 : ∃ (r : Req) (s : State) (x : Region),
    (Asked 0x0303 8 r s) ∧
    (jobIs [.free] r s = false) ∧
    (pinFields r = true) ∧
    (regionOf (reqJob r) (rf r 3 0 16) s = some x) ∧
    (rf r 4 0 2 ≠ 2) ∧
    (x.base = none) ∧
    (pinOk (reqJob r) (rf r 3 0 16) x (pinOf r) s = true) ∧
    (pinFree (reqJob r) x (pinOf r) s = true) :=
  ⟨ask 8 [1, 0, 0, 0, 0, 0], declaredJob, { size := 64, kind := 0 }, by
    (repeat' apply And.intro) <;> first | decide +kernel | rfl | exact fun _ _ => rfl⟩

theorem holds_placementCommands_4 : ∃ (r : Req) (s : State) (x : Region),
    (Asked 0x0303 8 r s) ∧
    (jobIs [.free] r s = false) ∧
    (pinFields r = true) ∧
    (regionOf (reqJob r) (rf r 3 0 16) s = some x) ∧
    (rf r 4 0 2 = 2) ∧
    (importOk x (pinAddr r 6) = true) :=
  ⟨ask 8 [1, 1, 2, 0, 0, 0x50000], declaredJob, { size := 64, kind := 3, home := 5 }, by
    (repeat' apply And.intro) <;> first | decide +kernel | rfl | exact fun _ _ => rfl⟩

theorem holds_placementCommands_5 : ∃ (r : Req) (s : State),
    (Asked 0x0304 6 r s) ∧
    (jobIs [.free] r s = false) ∧
    ((roleEnt (jobOf s (reqJob r)) (rf r 3 0 18)).bound = none) ∧
    (rolePinOk r s = true) ∧
    ((rf r 5 0 16 ≠ ownId s ∨ (tileOf s (rf r 4 0 6)).job = none ∨ (tileOf s (rf r 4 0 6)).job = some (reqJob r))) ∧
    (((roleEnt (jobOf s (reqJob r)) (rf r 3 0 18)).pin.isSome ∨ roleCount s < 65536)) :=
  ⟨ask 6 [1, 0, 7, 0], declaredJob, by
    (repeat' apply And.intro) <;> first | decide +kernel | rfl | exact fun _ _ => rfl⟩

theorem holds_placementCommands_6 : ∃ (r : Req) (s t m : State) (regions : Nat),
    (Asked 0x0305 12 r s) ∧
    (operating s = true) ∧
    (jobIs declStatus r s = true) ∧
    (rb r 2 4 = false) ∧
    (rb r 2 5 = false) ∧
    (zeroFrom r 2 19 = true) ∧
    (rw r 3 = 0) ∧
    (1 ≤ rf r 2 6 13) ∧
    (rf r 2 6 13 ≤ 4096) ∧
    (bulkOk r 4 = true) ∧
    (idBytes (rf r 2 6 13) ≤ bulkLen r 4) ∧
    (zeroWords r 8 11 = true) ∧
    (dmaGood r 0 = true) ∧
    (listOk r (reqJob r) false s = true) ∧
    ((∀ k, k < (jobOf s (reqJob r)).nRoles → (homeOf (jobOf s (reqJob r)) k).isSome)) ∧
    (placeSteps (reqJob r) (idsOf (rf r 2 6 13) (bulkBytes r 0 4)) s = .ok t) ∧
    (m = modJob (reqJob r) (fun x => { x with placed := true, modules := idsOf (rf r 2 6 13) (bulkBytes r 0 4) }) t) ∧
    (regions = ((jobOf m (reqJob r)).regions.filter (fun e => match e.2 with | some g => g.base.isSome | none => false)).length) ∧
    (mayRun s = true) :=
  ⟨placeRequest, roledJob, placedState, placedMarked, 0, by
    (repeat' apply And.intro) <;> first | decide +kernel | exact eq_okOr _ _ (by decide +kernel) | exact eq_okPair _ _ _ (by decide +kernel) (by decide +kernel) | rfl⟩

theorem holds_placementCommands_7 : ∃ (r : Req) (s : State),
    (Asked 0x0305 12 r s) ∧
    (operating s = true) ∧
    (rb r 2 4 = true) ∧
    (reqJob r = 0) ∧
    (zeroFrom r 2 19 = true) ∧
    (1 ≤ rf r 2 6 13) ∧
    (rf r 2 6 13 ≤ 4096) ∧
    (bulkOk r 4 = true) ∧
    (idBytes (rf r 2 6 13) ≤ bulkLen r 4) ∧
    (zeroWords r 8 11 = true) ∧
    (dmaGood r 0 = true) ∧
    (listOk r 0 true s = true) ∧
    (rb r 2 5 = true) ∧
    (mayRun s = true) :=
  ⟨ledgerRequest, up, by
    (repeat' apply And.intro) <;> first | decide +kernel | rfl | exact fun _ _ => rfl⟩

theorem holds_placementCommands_8 : ∃ (r : Req) (s : State) (p : PathSet) (new : List Nat),
    (Asked 0x0305 12 r s) ∧
    (operating s = true) ∧
    (rb r 2 4 = true) ∧
    (reqJob r = 0) ∧
    (zeroFrom r 2 19 = true) ∧
    (1 ≤ rf r 2 6 13) ∧
    (rf r 2 6 13 ≤ 4096) ∧
    (bulkOk r 4 = true) ∧
    (idBytes (rf r 2 6 13) ≤ bulkLen r 4) ∧
    (zeroWords r 8 11 = true) ∧
    (dmaGood r 0 = true) ∧
    (listOk r 0 true s = true) ∧
    (rb r 2 5 = false) ∧
    (mayRun s = true) ∧
    (p = pathSet (idsOf (rf r 2 6 13) (bulkBytes r 0 4)) s) ∧
    (p.bad = none) ∧
    (new = p.ports.filter (fun q => !s.place.ledger.contains (q, rw r 3))) ∧
    ((∀ q ∈ new, (ledgerOf q s).length < 4)) :=
  ⟨ledgerAdd, up, (pathSet [0] up), ((pathSet [0] up).ports), by
    (repeat' apply And.intro) <;> first | decide +kernel | rfl | exact fun _ _ => rfl⟩

theorem holds_placementCommands_9 : ∃ (r : Req) (s : State) (x : Region),
    (Asked 0x0306 4 r s) ∧
    (jobIs [.free] r s = false) ∧
    (zeroFrom r 2 4 = true) ∧
    (zeroFrom r 3 16 = true) ∧
    (regionOf (reqJob r) (rf r 3 0 16) s = some x) :=
  ⟨ask 4 [1, 0], declaredJob, { size := 64, kind := 0 }, by
    (repeat' apply And.intro) <;> first | decide +kernel | rfl | exact fun _ _ => rfl⟩

theorem holds_placementCommands_10 : ∃ (r : Req) (s : State) (h : Nat) (e : RoleEnt) (tile : Option Nat),
    (Asked 0x0307 4 r s) ∧
    (jobIs [.free] r s = false) ∧
    (zeroFrom r 2 4 = true) ∧
    (zeroFrom r 3 18 = true) ∧
    (rf r 3 0 18 < (jobOf s (reqJob r)).nRoles) ∧
    (homeOf (jobOf s (reqJob r)) (rf r 3 0 18) = some h) ∧
    (e = roleEnt (jobOf s (reqJob r)) (rf r 3 0 18)) ∧
    (tile = if h = ownId s then e.bound else e.pin) :=
  ⟨ask 4 [1, 0], declaredJob, 0, {}, none, by
    (repeat' apply And.intro) <;> first | decide +kernel | rfl | exact fun _ _ => rfl⟩

theorem holds_placementCommands_11 : ∃ (r : Req) (s : State) (x : Region) (old : Nat) (e : RmEntry) (new : Nat),
    (Asked 0x0308 7 r s) ∧
    (operating s = true) ∧
    (s.place.move = none) ∧
    (regionOf (reqJob r) (rf r 3 0 16) s = some x) ∧
    (x.kind ≠ 3) ∧
    (x.base = some old) ∧
    (rmLookup (reqJob r) (rf r 3 0 16) s = some e) ∧
    (e.lost = false) ∧
    (e.move = 0) ∧
    (zeroFrom r 2 4 = true) ∧
    (zeroFrom r 3 16 = true) ∧
    (zeroFrom r 4 8 = true) ∧
    (rf r 4 0 2 ≠ 3) ∧
    ((rf r 4 0 2 = 2 ∨ rf r 4 2 6 = 0)) ∧
    (inRoleTile x s = false) ∧
    (moveOk r (reqJob r) (rf r 3 0 16) x s = true) ∧
    (moveChoice r (reqJob r) x s = some new) :=
  ⟨ask 7 [1, 0, 0, 0, 0], boundJob, { size := 64, kind := 1, view := 7, base := some (ownPga 0 0 up) }, ownPga 0 0 up, { valid := true, place := 0, job := 1, size := 64, base := ownPga 0 0 up }, 65536, by
    (repeat' apply And.intro) <;> first | decide +kernel | rfl | exact fun _ _ => rfl⟩

theorem holds_fabricCommands_1 : ∃ (r : Req) (s : State) (t e : Nat),
    (Asked 0x0401 9 r s) ∧
    ((operating s = false ∨ anyDefined s = false ∨ (rf r 2 0 16 = s.glb.moduleId.toNat ∧ planSize r = s.fabric.size ∧ planCoords r = s.fabric.coords))) ∧
    (planOk r = true) ∧
    (t = rf r 7 0 17) ∧
    (e = rf r 8 0 17) :=
  ⟨planRequest, up, 0, 0, by
    (repeat' apply And.intro) <;> first | decide +kernel | rfl | exact fun _ _ => rfl⟩

theorem holds_fabricCommands_2 : ∃ (r : Req) (s : State) (new : List (Nat × DWord)) (table : Tbl DWord),
    (Asked 0x0403 7 r s) ∧
    (s.fabric.planLoaded = true) ∧
    (zeroFrom r 2 25 = true) ∧
    (1 ≤ rf r 2 12 13) ∧
    (rf r 2 12 13 ≤ 4096) ∧
    (rf r 2 0 12 + rf r 2 12 13 ≤ 4096) ∧
    (bulkOk r 3 = true) ∧
    (bulkLen r 3 = 8 * rf r 2 12 13) ∧
    (dmaGood r 0 = true) ∧
    (new = loadEntries (rf r 2 0 12) (bytesWords (bulkBytes r 0 3))) ∧
    (table = new.foldl (fun t e => tset 0 t e.1 e.2) s.fabric.routes) ∧
    (firstRefused new table s = none) :=
  ⟨routeRequest, planned, (loadEntries 0 (bytesWords (bulkBytes routeRequest 0 3))), ((loadEntries 0 (bytesWords (bulkBytes routeRequest 0 3))).foldl (fun t e => tset 0 t e.1 e.2) []), by
    (repeat' apply And.intro) <;> first | decide +kernel | rfl | exact fun _ _ => rfl⟩

theorem holds_fabricCommands_3 : ∃ (r : Req) (s : State) (x : Eyelet),
    (Asked 0x0404 5 r s) ∧
    (s.fabric.planLoaded = true) ∧
    (eyeletOk r s = true) ∧
    (rb r 2 4 = false) ∧
    (eyeletOf s (rf r 2 0 4) = none) ∧
    (x = { lanes := rw r 3, farModule := rf r 4 0 16, farEyelet := rf r 4 16 4 }) :=
  ⟨ask 5 [2, 3, 0x10007], planned, { lanes := 3, farModule := 7, farEyelet := 1 }, by
    (repeat' apply And.intro) <;> first | decide +kernel | rfl | exact fun _ _ => rfl⟩

theorem holds_fabricCommands_4 : ∃ (r : Req) (s : State) (x : Eyelet),
    (Asked 0x0404 5 r s) ∧
    (s.fabric.planLoaded = true) ∧
    (eyeletOk r s = true) ∧
    (rb r 2 4 = true) ∧
    (eyeletOf s (rf r 2 0 4) = some x) :=
  ⟨ask 5 [0x12, 0, 0], eyed, { lanes := 3, farModule := 7, farEyelet := 1 }, by
    (repeat' apply And.intro) <;> first | decide +kernel | rfl | exact fun _ _ => rfl⟩

theorem holds_fabricCommands_5 : ∃ (r : Req) (s : State),
    (Asked 0x0405 4 r s) ∧
    (zeroFrom r 2 5 = true) ∧
    ((rf r 2 0 5 < 22 ∨ rf r 2 0 5 = 31)) ∧
    ((∀ w ∈ weightsOf r, w ≠ 0)) ∧
    (rf r 3 0 8 ≤ rf r 3 8 8) :=
  ⟨ask 4 [31, 0x04030201], up, by
    (repeat' apply And.intro) <;> first | decide +kernel | rfl | exact fun _ _ => rfl⟩

theorem holds_fabricCommands_6 : ∃ (r : Req) (s : State),
    (Asked 0x0402 2 r s) :=
  ⟨ask 2 [], up, by
    (repeat' apply And.intro) <;> first | decide +kernel | rfl | exact fun _ _ => rfl⟩

theorem holds_fabricCommands_7 : ∃ (r : Req) (s : State),
    (Asked 0x0406 3 r s) ∧
    (zeroFrom r 2 6 = true) ∧
    (rf r 2 0 5 = 22) :=
  ⟨ask 3 [22], up, by
    (repeat' apply And.intro) <;> first | decide +kernel | rfl | exact fun _ _ => rfl⟩

theorem holds_fabricCommands_8 : ∃ (r : Req) (s : State),
    (Asked 0x0406 3 r s) ∧
    (zeroFrom r 2 6 = true) ∧
    (rf r 2 0 5 < 22) :=
  ⟨ask 3 [4], up, by
    (repeat' apply And.intro) <;> first | decide +kernel | rfl | exact fun _ _ => rfl⟩

theorem holds_weltCommands_1 : ∃ (r : Req) (s : State) (l : List PlanLace) (a : Tbl (Option Lace)) (g : BitVec 16) (b : Tbl (Option Lace)) (t : List (Nat × Nat)) (data : List Byte),
    (Asked 0x0501 12 r s) ∧
    (zeroFrom r 2 2 = true) ∧
    (zeroFrom r 3 9 = true) ∧
    (1 ≤ rf r 3 0 9) ∧
    (rf r 3 0 9 ≤ 160) ∧
    (bulkOk r 4 = true) ∧
    (bulkLen r 4 = 8 * rf r 3 0 9) ∧
    (bulkOk r 8 = true) ∧
    (5120 ≤ bulkLen r 8) ∧
    (dmaGood r 0 = true) ∧
    (dmaGood r 1 = true) ∧
    (readPlan (bytesWords (bulkBytes r 0 4)) 0 [] = .ok l) ∧
    (comparedBank s = (a, g)) ∧
    (compile (rb r 2 0) l a = .ok b) ∧
    (t = touchedList a b) ∧
    (data = wordsBytes (t.flatMap (touchWords a b))) :=
  ⟨planCompile, up, planRead, [], 0, planBank, (touchedList [] planBank), (wordsBytes ((touchedList [] planBank).flatMap (touchWords [] planBank))), by
    (repeat' apply And.intro) <;> first | decide +kernel | exact eq_okOr _ _ (by decide +kernel) | exact eq_okPair _ _ _ (by decide +kernel) (by decide +kernel) | rfl⟩

theorem holds_weltCommands_2 : ∃ (r : Req) (s : State) (b : Tbl (Option Lace)),
    (Asked 0x0502 7 r s) ∧
    (zeroFrom r 2 1 = true) ∧
    (zeroWords r 3 6 = true) ∧
    (b = if rb r 2 0 then s.welt.shadow else s.welt.active) :=
  ⟨ask 7 [0, 0, 0, 0, 0], up, [], by
    (repeat' apply And.intro) <;> first | decide +kernel | rfl | exact fun _ _ => rfl⟩

theorem holds_weltCommands_3 : ∃ (r : Req) (s : State) (b : Tbl (Option Lace)),
    (Asked 0x0502 7 r s) ∧
    (zeroFrom r 2 1 = true) ∧
    (zeroWords r 3 6 = false) ∧
    (bulkOk r 3 = true) ∧
    (2560 ≤ bulkLen r 3) ∧
    (dmaGood r 0 = true) ∧
    (b = if rb r 2 0 then s.welt.shadow else s.welt.active) :=
  ⟨askWith 7 [0, 0x1000, 0, 2560, 0] [some []], up, [], by
    (repeat' apply And.intro) <;> first | decide +kernel | rfl | exact fun _ _ => rfl⟩

theorem holds_weltCommands_4 : ∃ (r : Req) (s : State),
    (Asked 0x0503 3 r s) ∧
    (zeroFrom r 2 16 = true) ∧
    (1 ≤ rf r 2 9 7) ∧
    (rf r 2 9 7 ≤ 64) ∧
    (rf r 2 0 9 + rf r 2 9 7 ≤ 320) :=
  ⟨ask 3 [0x403], up, by
    (repeat' apply And.intro) <;> first | decide +kernel | rfl | exact fun _ _ => rfl⟩

theorem holds_weltCommands_5 : ∃ (r : Req) (s : State),
    (Asked 0x0504 3 r s) ∧
    (zeroFrom r 2 1 = true) ∧
    (rb r 2 0 = true) ∧
    (s.glb.weltKilled = false) ∧
    (s.power.failing = false) :=
  ⟨ask 3 [1], up, by
    (repeat' apply And.intro) <;> first | decide +kernel | rfl | exact fun _ _ => rfl⟩

theorem holds_weltCommands_6 : ∃ (r : Req) (s : State),
    (Asked 0x0504 3 r s) ∧
    (zeroFrom r 2 1 = true) ∧
    (rb r 2 0 = false) :=
  ⟨ask 3 [0], up, by
    (repeat' apply And.intro) <;> first | decide +kernel | rfl | exact fun _ _ => rfl⟩

theorem holds_weltCommands_7 : ∃ (r : Req) (s : State) (f : Option Force),
    (Asked 0x0505 4 r s) ∧
    (s.glb.maint = true) ∧
    (s.welt.powered = true) ∧
    (zeroFrom r 2 14 = true) ∧
    (zeroFrom r 3 16 = true) ∧
    (rf r 2 0 12 ≤ 3839) ∧
    ((rf r 2 12 2 = 3 ∨ rf r 3 0 16 = 0)) ∧
    (f = if rf r 2 12 2 = 0 then none else some { mode := rf r 2 12 2, drive := rf r 3 0 16 : Force }) :=
  ⟨ask 4 [0x3007, 9], maintained, (some { mode := 3, drive := 9 }), by
    (repeat' apply And.intro) <;> first | decide +kernel | rfl | exact fun _ _ => rfl⟩

theorem holds_shankCommands_1 : ∃ (r : Req) (s t : State),
    (Asked 0x0601 19 r s) ∧
    (zeroFrom r 2 1 = true) ∧
    (zeroFrom r 11 8 = true) ∧
    (zeroFrom r 18 16 = true) ∧
    (coefOk (coefOf r) = true) ∧
    (t = setPlane (rf r 2 0 1) { planeOf s (rf r 2 0 1) with pending := some (coefOf r) } s) :=
  ⟨coefRequest, up, coefPending, by
    (repeat' apply And.intro) <;> first | decide +kernel | rfl | exact fun _ _ => rfl⟩

theorem holds_shankCommands_2 : ∃ (r : Req) (s : State),
    (Asked 0x0602 3 r s) ∧
    ((planeOf s (rf r 2 0 1)).pending.isSome) ∧
    ((planeOf s (rf r 2 0 1)).active.isSome) ∧
    (zeroFrom r 2 1 = true) ∧
    (s.welt.powered = false) :=
  ⟨ask 3 [0], swappable, by
    (repeat' apply And.intro) <;> first | decide +kernel | rfl | exact fun _ _ => rfl⟩

theorem holds_shankCommands_3 : ∃ (r : Req) (s t : State),
    (Asked 0x0602 3 r s) ∧
    ((planeOf s (rf r 2 0 1)).pending.isSome) ∧
    ((planeOf s (rf r 2 0 1)).active.isSome) ∧
    (zeroFrom r 2 1 = true) ∧
    (s.welt.powered = true) ∧
    (t = setPlane (rf r 2 0 1) { planeOf s (rf r 2 0 1) with swapDue := true } s) :=
  ⟨ask 3 [0], swapPowered, (setPlane 0 { planeOf swapPowered 0 with swapDue := true } swapPowered), by
    (repeat' apply And.intro) <;> first | decide +kernel | rfl | exact fun _ _ => rfl⟩

theorem holds_shankCommands_4 : ∃ (r : Req) (s t : State),
    (Asked 0x0603 6 r s) ∧
    (zeroFrom r 2 1 = true) ∧
    (within (limitsOf r).pCell 1 40 = true) ∧
    (qi 1 ≤ (limitsOf r).pPlane) ∧
    ((limitsOf r).pPlane ≤ 0x4CCCCD) ∧
    (within (limitsOf r).tLim 20 95 = true) ∧
    (t = setPlane (rf r 2 0 1) { planeOf s (rf r 2 0 1) with limitsDue := some (limitsOf r) } s) :=
  ⟨ask 6 [0, 0x280000, 0x200000, 0x320000], up, limited, by
    (repeat' apply And.intro) <;> first | decide +kernel | rfl | exact fun _ _ => rfl⟩

theorem holds_shankCommands_5 : ∃ (r : Req) (s : State),
    (Asked 0x0604 3 r s) ∧
    (zeroFrom r 2 18 = true) ∧
    (25000 ≤ ratePeriod r) ∧
    (ratePeriod r ≤ 200000) ∧
    (ratePeriod r % 1000 = 0) ∧
    (s.welt.powered = false) :=
  ⟨ask 3 [100000], up, by
    (repeat' apply And.intro) <;> first | decide +kernel | rfl | exact fun _ _ => rfl⟩

theorem holds_shankCommands_6 : ∃ (r : Req) (s t : State),
    (Asked 0x0604 3 r s) ∧
    (zeroFrom r 2 18 = true) ∧
    (25000 ≤ ratePeriod r) ∧
    (ratePeriod r ≤ 200000) ∧
    (ratePeriod r % 1000 = 0) ∧
    (s.welt.powered = true) ∧
    (t = forAll [0, 1] (fun p s => setPlane p { planeOf s p with rateDue := some (ratePeriod r) } s) s) :=
  ⟨ask 3 [100000], swapPowered, (forAll [0, 1] (fun p s => setPlane p { planeOf s p with rateDue := some 100000 } s) swapPowered), by
    (repeat' apply And.intro) <;> first | decide +kernel | rfl | exact fun _ _ => rfl⟩

theorem holds_shankCommands_7 : ∃ (r : Req) (s : State) (x : Plane) (count : (Cell → Bool) → Nat),
    (Asked 0x0605 3 r s) ∧
    (zeroFrom r 2 14 = true) ∧
    (rb r 2 1 = false) ∧
    (x = planeOf s (rf r 2 0 1)) ∧
    (count = fun f => ((usedCells (rf r 2 0 1) s).filter (fun i => f (cellOf s i))).length) :=
  ⟨ask 3 [0], up, {}, (fun f => ((usedCells 0 up).filter (fun i => f (cellOf up i))).length), by
    (repeat' apply And.intro) <;> first | decide +kernel | rfl | exact fun _ _ => rfl⟩

theorem holds_shankCommands_8 : ∃ (r : Req) (s : State) (x : Plane) (count : (Cell → Bool) → Nat),
    (Asked 0x0605 3 r s) ∧
    (zeroFrom r 2 14 = true) ∧
    (rb r 2 1 = true) ∧
    (rf r 2 2 12 / 1920 = rf r 2 0 1) ∧
    (x = planeOf s (rf r 2 0 1)) ∧
    (count = fun f => ((usedCells (rf r 2 0 1) s).filter (fun i => f (cellOf s i))).length) :=
  ⟨ask 3 [6], up, {}, (fun f => ((usedCells 0 up).filter (fun i => f (cellOf up i))).length), by
    (repeat' apply And.intro) <;> first | decide +kernel | rfl | exact fun _ _ => rfl⟩

theorem holds_calibrationCommands_1 : ∃ (r : Req) (s : State),
    (Asked 0x0701 3 r s) ∧
    (calBusy s = false) ∧
    (zeroFrom r 2 6 = true) ∧
    (rf r 2 0 6 ≠ 0) :=
  ⟨ask 3 [5], up, by
    (repeat' apply And.intro) <;> first | decide +kernel | rfl | exact fun _ _ => rfl⟩

theorem holds_calibrationCommands_2 : ∃ (r : Req) (s : State) (version : Option Nat),
    (Asked 0x0702 2 r s) ∧
    (version = match s.mon.current with
      | some n => (tget none s.mon.slots n).map CalRec.version
      | none => none) :=
  ⟨ask 2 [], up, none, by
    (repeat' apply And.intro) <;> first | decide +kernel | rfl | exact fun _ _ => rfl⟩

theorem holds_calibrationCommands_3 : ∃ (r : Req) (s : State),
    (Asked 0x0703 3 r s) ∧
    (zeroFrom r 2 24 = true) ∧
    (rf r 2 0 3 ≤ 5) ∧
    (1 ≤ rf r 2 16 8) ∧
    (rf r 2 3 13 + rf r 2 16 8 ≤ kindCount (rf r 2 0 3)) :=
  ⟨ask 3 [0x20001], up, by
    (repeat' apply And.intro) <;> first | decide +kernel | rfl | exact fun _ _ => rfl⟩

theorem holds_scheduleCommands_1 : ∃ (r : Req) (s : State) (i : Nat) (t : State),
    (Asked 0x0801 5 r s) ∧
    (zeroFrom r 2 5 = true) ∧
    ((rf r 2 0 4 = 1 ∨ rf r 2 0 4 = 5)) ∧
    (leadOk (rw r 3) (if rf r 2 0 4 = 1 then 1000000 else 100000) s = true) ∧
    (takeIndex s = some i) ∧
    (t = armAt i (rf r 2 0 4) (rw r 3) (rb r 2 4) 0 (rw r 4) s) :=
  ⟨ask 5 [1, 2000000, 7], up, 0, (armAt 0 1 2000000 false 0 7 up), by
    (repeat' apply And.intro) <;> first | decide +kernel | rfl | exact fun _ _ => rfl⟩

theorem holds_scheduleCommands_2 : ∃ (r : Req) (s : State) (i : Nat) (e : Entry),
    (Asked 0x0802 3 r s) ∧
    (zeroFrom r 2 16 = true) ∧
    (namedEntry r s = some (i, e)) ∧
    (e.st = .armed) ∧
    (e.action ≠ 3) :=
  ⟨ask 3 [1], armedUp, 0, schedOf armedUp 0, by
    (repeat' apply And.intro) <;> first | decide +kernel | rfl | exact fun _ _ => rfl⟩

theorem holds_scheduleCommands_3 : ∃ (r : Req) (s : State),
    (Asked 0x0803 3 r s) ∧
    (rf r 2 1 15 = 0) ∧
    (rb r 2 0 = true) :=
  ⟨ask 3 [1], up, by
    (repeat' apply And.intro) <;> first | decide +kernel | rfl | exact fun _ _ => rfl⟩

theorem holds_scheduleCommands_4 : ∃ (r : Req) (s : State) (i : Nat) (e : Entry),
    (Asked 0x0803 3 r s) ∧
    (rf r 2 1 15 = 0) ∧
    (rb r 2 0 = false) ∧
    (findSeq (BitVec.ofNat 16 (rf r 2 16 16)) s = some (i, e)) :=
  ⟨ask 3 [0x10000], armedUp, 0, schedOf armedUp 0, by
    (repeat' apply And.intro) <;> first | decide +kernel | rfl | exact fun _ _ => rfl⟩

theorem holds_scheduleCommands_5 : ∃ (r : Req) (s t : State),
    (Asked 0x0804 5 r s) ∧
    (zeroFrom r 2 6 = true) ∧
    (zeroFrom r 4 16 = true) ∧
    ((rb r 2 2 = false ∨ rf r 2 0 2 = 1)) ∧
    (rb r 4 8 = false) ∧
    ((t = if rf r 2 0 2 = s.tpm.speed then s else portLink false s)) :=
  ⟨ask 5 [1, 2, 2], up, up, by
    (repeat' apply And.intro) <;> first | decide +kernel | rfl | exact fun _ _ => rfl⟩

theorem holds_scheduleCommands_6 : ∃ (r : Req) (s : State) (t : Tmu),
    (Asked 0x0805 7 r s) ∧
    (zeroFrom r 2 4 = true) ∧
    (zeroFrom r 6 20 = true) ∧
    (rb r 2 3 = false) ∧
    (rw r 4 = 0) ∧
    (rw r 5 = 0) ∧
    (rf r 6 0 20 ≤ 500000) ∧
    (t = { s.tmu with
        inEn := rb r 2 0, inFall := rb r 2 1, outEn := rb r 2 2
        enabledAt := if rb r 2 0 && !s.tmu.inEn then s.clk else s.tmu.enabledAt
        lostTold := if rb r 2 0 && !s.tmu.inEn then false else s.tmu.lostTold
        inDelay := BitVec.ofNat 16 (rf r 3 0 16), outDelay := BitVec.ofNat 16 (rf r 3 16 16)
        widthUs := if rf r 6 0 20 = 0 then 100000 else rf r 6 0 20 }) :=
  ⟨ask 7 [1, 0, 0, 0, 50], up, { up.tmu with inEn := true, widthUs := 50, enabledAt := up.clk }, by
    (repeat' apply And.intro) <;> first | decide +kernel | rfl | exact fun _ _ => rfl⟩

theorem holds_resilienceCommands_1 : ∃ (r : Req) (s t : State),
    (Asked 0x0901 7 r s) ∧
    (zeroFrom r 2 1 = true) ∧
    (zeroFrom r 3 11 = true) ∧
    (zeroFrom r 6 16 = true) ∧
    (50 ≤ reqPeriod r) ∧
    (reqPeriod r ≤ 2000) ∧
    (rb r 2 0 = false) ∧
    (rw r 4 = 0) ∧
    (t = disarmBoundary s) :=
  ⟨ask 7 [0, 100, 0, 0, 3], up, up, by
    (repeat' apply And.intro) <;> first | (with_reducible rfl) | exact (fun _ _ => rfl) | decide +kernel | rfl | exact fun _ _ => rfl⟩

theorem holds_resilienceCommands_2 : ∃ (r : Req) (s t : State) (i : Nat) (u v : State),
    (Asked 0x0901 7 r s) ∧
    (zeroFrom r 2 1 = true) ∧
    (zeroFrom r 3 11 = true) ∧
    (zeroFrom r 6 16 = true) ∧
    (50 ≤ reqPeriod r) ∧
    (reqPeriod r ≤ 2000) ∧
    (rb r 2 0 = true) ∧
    (s.resil.buddy.isSome) ∧
    (t = disarmBoundary s) ∧
    (leadOk (rw r 4) 1000000 t = true) ∧
    (takeIndex t = some i) ∧
    (u = armAt i 3 (rw r 4) false 0 0 t) ∧
    (v = joinMask u.resil.jobMask (rw r 6)
      { u with resil.enabled := true, resil.periodMs := reqPeriod r, resil.first := rw r 5 }) :=
  ⟨ask 7 [1, 100, 2000000, 0, 3], buddied, buddied, 0, (armAt 0 3 2000000 false 0 0 buddied), (joinMask 0 3 { (armAt 0 3 2000000 false 0 0 buddied) with resil.enabled := true, resil.periodMs := 100, resil.first := 0 }), by
    (repeat' apply And.intro) <;> first | (with_reducible rfl) | exact (fun _ _ => rfl) | decide +kernel | rfl | exact fun _ _ => rfl⟩

theorem holds_resilienceCommands_3 : ∃ (r : Req) (s : State) (h : List Byte),
    (Asked 0x0902 7 r s) ∧
    (rf r 2 0 2 = 0) ∧
    (buddyHeader r s = some h) ∧
    (buddyArgs r s = true) :=
  ⟨buddyRequest, up, buddyHead, by
    (repeat' apply And.intro) <;> first | (with_reducible rfl) | exact (fun _ _ => rfl) | decide +kernel | rfl | exact fun _ _ => rfl⟩

theorem holds_resilienceCommands_4 : ∃ (r : Req) (s : State) (k off total : Nat) (x : Store) (t u : State),
    (Asked 0x0902 7 r s) ∧
    (rf r 2 0 2 = 1) ∧
    (buddyArgs r s = true) ∧
    (storeNo (rf r 3 0 16) s = none) ∧
    ((List.range 4).find? (fun k => (tget none s.resil.stores k).isNone) = some k) ∧
    (total = storeBytes (defaultView s) (reqJournal r) (reqImage r)) ∧
    (freeView (defaultView s) (viewPages (defaultView s) total) s = some off) ∧
    (x = { source := rf r 3 0 16, base := off, view := defaultView s, image := reqImage r, journal := reqJournal r }) ∧
    (t = (extentOf off total s).own (storeOwner k) s) ∧
    (u = hdrPut x 0 [0x53544F52, word (rf r 3 0 16 + 65536 * defaultView s), word (reqJournal r),
      word (reqImage r % 2 ^ 32), word (reqImage r / 2 ^ 32), noIndex, noIndex, 0, 0, 0, noIndex]
      (storePut true x 0 emptyTable
        { t with resil := { t.resil with stores := tset none t.resil.stores k (some x) } })) :=
  ⟨ask 7 [1, 9, 65536, 0, 1024], memoried, 0, 0, reserveTotal, reserveStoreX, reserveT, reserveU, by
    (repeat' apply And.intro) <;> first | (with_reducible rfl) | exact (fun _ _ => rfl) | decide +kernel | rfl | exact fun _ _ => rfl⟩

theorem holds_resilienceCommands_5 : ∃ (r : Req) (s : State),
    (Asked 0x0902 7 r s) ∧
    (rf r 2 0 2 = 2) ∧
    (buddyArgs r s = true) :=
  ⟨ask 7 [2, 9, 0, 0, 0], stored, by
    (repeat' apply And.intro) <;> first | (with_reducible rfl) | exact (fun _ _ => rfl) | decide +kernel | rfl | exact fun _ _ => rfl⟩

theorem holds_resilienceCommands_6 : ∃ (r : Req) (s : State),
    (Asked 0x0902 7 r s) ∧
    (rf r 2 0 2 = 3) ∧
    (buddyArgs r s = true) :=
  ⟨ask 7 [3, 0, 0, 0, 0], up, by
    (repeat' apply And.intro) <;> first | (with_reducible rfl) | exact (fun _ _ => rfl) | decide +kernel | rfl | exact fun _ _ => rfl⟩

theorem holds_resilienceCommands_7 : ∃ (r : Req) (s : State) (ids : List Nat),
    (Asked 0x0903 8 r s) ∧
    (hbOk r = true) ∧
    (ids = (if rf r 3 0 7 = 0 then [] else idsOf (rf r 3 0 7) (bulkBytes r 0 4))) ∧
    ((rf r 3 0 7 = 0 ∨ dmaGood r 0 = true)) ∧
    (ids.eraseDups.length = rf r 3 0 7) ∧
    (ownId s ∉ ids) ∧
    (0xFFFF ∉ ids) :=
  ⟨askWith 8 [0, 1, 0x1000, 0, 4, 0] [some [9, 0, 0, 0]], up, [9], by
    (repeat' apply And.intro) <;> first | (with_reducible rfl) | exact (fun _ _ => rfl) | decide +kernel | rfl | exact fun _ _ => rfl⟩

theorem holds_resilienceCommands_8 : ∃ (r : Req) (s : State) (k : Nat) (x : Store) (l : List TableRow) (w : State),
    (Asked 0x0904 6 r s) ∧
    (recoverState r s = true) ∧
    (s.resil.restore = none) ∧
    (recoverArgs r s = true) ∧
    (rb r 2 0 = false) ∧
    (storeNo (rf r 3 0 16) s = some k) ∧
    (tget none s.resil.stores k = some x) ∧
    (l = storeRegions x (rw r 5) (some (rw r 4)) s) ∧
    ((∀ e ∈ l, (regionOf (rf r 2 1 4) e.region s).bind (·.base) = none)) ∧
    (storeGood x 0 tableBytes s = true) ∧
    (storePromotable x (rw r 5) (rw r 4) s = true) ∧
    (w = storeRead x 0 tableBytes s) :=
  ⟨promoteRequest, promotable, 0, promotedStore, storeRegions promotedStore (rw promoteRequest 5) (some (rw promoteRequest 4)) promotable, storeRead promotedStore 0 tableBytes promotable, by
    (repeat' apply And.intro) <;> first | (with_reducible rfl) | exact (fun _ _ => rfl) | decide +kernel | rfl | exact fun _ _ => rfl⟩

theorem holds_resilienceCommands_9 : ∃ (r : Req) (s u t : State),
    (Asked 0x0904 6 r s) ∧
    (recoverState r s = true) ∧
    (s.resil.restore = none) ∧
    (recoverArgs r s = true) ∧
    (rb r 2 0 = true) ∧
    (u = restoreStart s) ∧
    (t = restoreAsk { u with resil.restore := some {
      job := rf r 2 1 4, index := rw r 4, older := decide (rw r 4 = u.resil.sealedOld), newest := u.resil.sealedNew,
      half := u.resil.halfNew, todo := [(0, Config.stagingPa u.stitch.issued 0, 64)] } }) :=
  ⟨ask 6 [3, 0, 5, 0], restorable, (restoreStart restorable), (askPool 65 7 { op := 3, phys := true, cls := 3, source := 2, len := 64, target := pga 9 0 0, localPa := Config.stagingPa 0 0 } { restorable with resil.restore := some { job := 1, index := 5, older := false, newest := 5, half := 0, todo := [] } }), by
    (repeat' apply And.intro) <;> first | (with_reducible rfl) | exact (fun _ _ => rfl) | decide +kernel | rfl | exact fun _ _ => rfl⟩

theorem holds_resilienceCommands_10 : ∃ (r : Req) (s : State) (full : Bool) (waits : Nat) (lost : List Bool),
    (Asked 0x0905 2 r s) ∧
    (full = match s.resil.copy with
      | some c => c.full
      | none => false) ∧
    (waits = match s.resil.copy with
      | some c => c.pages.length
      | none => s.resil.carried.length) ∧
    (lost = s.resil.peers.map (·.lost)) :=
  ⟨ask 2 [], up, false, 0, [], by
    (repeat' apply And.intro) <;> first | (with_reducible rfl) | exact (fun _ _ => rfl) | decide +kernel | rfl | exact fun _ _ => rfl⟩

theorem holds_recorderCommands_1 : ∃ (r : Req) (s : State) (xs got : List Seen) (nxt : Word) (data : List Byte) (gap : Bool),
    (Asked 0x0A01 8 r s) ∧
    (zeroFrom r 3 4 = true) ∧
    (rf r 3 0 3 ≤ 4) ∧
    (bulkOk r 4 = true) ∧
    (1024 ≤ bulkLen r 4) ∧
    (dmaGood r 0 = true) ∧
    (xs = (allSeen s.fw.logVersion s.log).filter (fun x => (rw r 2).toNat ≤ x.record.seq.toNat)) ∧
    ((xs ≠ [] ∨ badChunks s.log = 0)) ∧
    (takeSeen (rf r 3 0 3) (rb r 3 3) (bulkLen r 4) xs (rw r 2) = (got, nxt)) ∧
    (data = got.flatMap (fun x => recBytes x.converted x.record)) ∧
    (gap = match xs with
      | x :: _ => decide (max (rw r 2).toNat 1 < x.record.seq.toNat) ||
        missingSeq nxt.toNat (max (rw r 2).toNat 1) xs
      | [] => decide (max (rw r 2).toNat 1 ≤ s.log.seqNew.toNat)) :=
  ⟨askWith 8 [0, 0, 0x1000, 0, 1024, 0] [some []], up, [], [], 0, [], false, by
    (repeat' apply And.intro) <;> first | decide +kernel | rfl | exact fun _ _ => rfl⟩

theorem holds_recorderCommands_2 : ∃ (r : Req) (s : State) (q : Word) (t : State),
    (Asked 0x0A02 3 r s) ∧
    (rf r 2 1 7 = 0) ∧
    (zeroFrom r 2 16 = true) ∧
    (rb r 2 0 = true) ∧
    (s.log.frozen = none) ∧
    (q = s.log.seqNew) ∧
    (t = { s with log.frozen := some q, log.freezeTold := false, log.freezeStart := s.clk,
                  log.freezeSecs := if rf r 2 8 8 = 0 then 30 else rf r 2 8 8 }) :=
  ⟨ask 3 [1], up, 0, { up with log.frozen := some 0, log.freezeTold := false, log.freezeStart := 0, log.freezeSecs := 30 }, by
    (repeat' apply And.intro) <;> first | decide +kernel | rfl | exact fun _ _ => rfl⟩

theorem holds_recorderCommands_3 : ∃ (r : Req) (s : State) (q : Word),
    (Asked 0x0A02 3 r s) ∧
    (rf r 2 1 7 = 0) ∧
    (zeroFrom r 2 16 = true) ∧
    (rb r 2 0 = true) ∧
    (s.log.frozen = some q) :=
  ⟨ask 3 [1], { up with log.frozen := some 5 }, 5, by
    (repeat' apply And.intro) <;> first | decide +kernel | rfl | exact fun _ _ => rfl⟩

theorem holds_recorderCommands_4 : ∃ (r : Req) (s : State),
    (Asked 0x0A02 3 r s) ∧
    (rf r 2 1 7 = 0) ∧
    (zeroFrom r 2 16 = true) ∧
    (rb r 2 0 = false) ∧
    (rf r 2 8 8 = 0) :=
  ⟨ask 3 [0], up, by
    (repeat' apply And.intro) <;> first | decide +kernel | rfl | exact fun _ _ => rfl⟩

theorem holds_recorderCommands_5 : ∃ (r : Req) (s : State) (data : List Byte),
    (Asked 0x0A03 6 r s) ∧
    (bulkOk r 2 = true) ∧
    (65536 ≤ bulkLen r 2) ∧
    (dmaGood r 0 = true) ∧
    (data = s.log.lastgasp.flatMap (recBytes false)) :=
  ⟨askWith 6 [0x1000, 0, 65536, 0] [some []], up, [], by
    (repeat' apply And.intro) <;> first | decide +kernel | rfl | exact fun _ _ => rfl⟩

theorem holds_recorderCommands_6 : ∃ (r : Req) (s : State),
    (Asked 0x0A04 3 r s) ∧
    (rf r 2 0 2 = 0) ∧
    (rf r 2 20 2 = 0) ∧
    (zeroFrom r 2 24 = true) ∧
    ((∀ g ∈ List.range 12, rf r 2 (2 * g) 2 ≠ 3)) ∧
    (rw r 2 ≠ s.log.filter) :=
  ⟨ask 3 [4], up, by
    (repeat' apply And.intro) <;> first | decide +kernel | rfl | exact fun _ _ => rfl⟩

theorem holds_recorderCommands_7 : ∃ (r : Req) (s : State),
    (Asked 0x0A04 3 r s) ∧
    (rf r 2 0 2 = 0) ∧
    (rf r 2 20 2 = 0) ∧
    (zeroFrom r 2 24 = true) ∧
    ((∀ g ∈ List.range 12, rf r 2 (2 * g) 2 ≠ 3)) ∧
    (rw r 2 = s.log.filter) :=
  ⟨ask 3 [0], up, by
    (repeat' apply And.intro) <;> first | decide +kernel | rfl | exact fun _ _ => rfl⟩

theorem holds_firmwareCommands_1 : ∃ (r : Req) (s : State) (h : List Byte),
    (Asked 0x0B01 6 r s) ∧
    (s.fw.staging ≠ .armed) ∧
    (bulkOk r 2 = true) ∧
    (bulkLen r 2 = 4096) ∧
    ((otherAgent r s = false ∨ (s.fw.staging ≠ .receiving ∧ s.fw.staging ≠ .verifying))) ∧
    (dmaGood r 0 = true) ∧
    (r.env.mediaOk = true) ∧
    (h = bulkBytes r 0 2) :=
  ⟨fwBeginRequest, up, (bulkBytes fwBeginRequest 0 2), by
    (repeat' apply And.intro) <;> first | decide +kernel | rfl | exact fun _ _ => rfl⟩

theorem holds_firmwareCommands_2 : ∃ (r : Req) (s : State) (i : Nat) (ct tag : List Byte) (stored : List Nat),
    (Asked 0x0B02 11 r s) ∧
    (s.fw.staging = .receiving) ∧
    (zeroFrom r 2 9 = true) ∧
    (i = rf r 2 0 9) ∧
    (i < hdrBlocks s.fw.staged.header) ∧
    (bulkOk r 7 = true) ∧
    (bulkLen r 7 = 65536) ∧
    (otherAgent r s = false) ∧
    (dmaGood r 0 = true) ∧
    (r.env.mediaOk = true) ∧
    (ct = bulkBytes r 0 7) ∧
    (tag = wordsBytes [rw r 3, rw r 4, rw r 5, rw r 6]) ∧
    (stored = (if s.fw.stored.contains i then s.fw.stored else s.fw.stored ++ [i])) :=
  ⟨fwBlockRequest, receiving, 0, (bulkBytes fwBlockRequest 0 7), (wordsBytes [0, 0, 0, 0]), [0], by
    (repeat' apply And.intro) <;> first | decide +kernel | rfl | exact fun _ _ => rfl⟩

theorem holds_firmwareCommands_3 : ∃ (r : Req) (s : State),
    (Asked 0x0B03 2 r s) ∧
    (s.fw.staging = .receiving) ∧
    (firstMissing s = none) ∧
    (otherAgent r s = false) ∧
    (r.env.mediaOk = true) :=
  ⟨ask 2 [], stagedAll, by
    (repeat' apply And.intro) <;> first | decide +kernel | rfl | exact fun _ _ => rfl⟩

theorem holds_firmwareCommands_4 : ∃ (r : Req) (s : State) (i : Nat) (t : State),
    (Asked 0x0B04 3 r s) ∧
    (s.fw.staging = .verified) ∧
    ((bySvc r = false ∨ s.fw.bySvc = true)) ∧
    (leadOk (rw r 2) 100000000 s = true) ∧
    (takeIndex s = some i) ∧
    (t = armAt i 4 (rw r 2) false 0 0 s) :=
  ⟨ask 3 [200000000], { up with fw.staging := .verified }, 0, (armAt 0 4 200000000 false 0 0 { up with fw.staging := .verified }), by
    (repeat' apply And.intro) <;> first | decide +kernel | rfl | exact fun _ _ => rfl⟩

theorem holds_firmwareCommands_5 : ∃ (r : Req) (s : State) (h : List Byte) (e : Option Entry),
    (Asked 0x0B05 2 r s) ∧
    (h = (if s.fw.staging = .empty then [] else s.fw.staged.header)) ∧
    (e = s.fw.armedEntry.map (schedOf s)) :=
  ⟨ask 2 [], up, [], none, by
    (repeat' apply And.intro) <;> first | decide +kernel | rfl | exact fun _ _ => rfl⟩

theorem holds_firmwareCommands_6 : ∃ (r : Req) (s t : State),
    (Asked 0x0B06 2 r s) ∧
    (activationFiring s = false) ∧
    ((bySvc r = false ∨ s.fw.bySvc = true ∨ s.fw.staging = .empty)) ∧
    (t = match s.fw.armedEntry with
      | some i => fwDisarmed i .empty (disarmEntry i s)
      | none => s) :=
  ⟨ask 2 [], receiving, receiving, by
    (repeat' apply And.intro) <;> first | decide +kernel | rfl | exact fun _ _ => rfl⟩

theorem holds_identityCommands_1 : ∃ (r : Req) (s : State),
    (Asked 0x0C01 7 r s) ∧
    (zeroFrom r 2 1 = true) ∧
    (bulkOk r 3 = true) ∧
    (8192 ≤ bulkLen r 3) ∧
    (r.env.mediaOk = true) ∧
    (dmaGood r 0 = true) :=
  ⟨askWith 7 [0, 0x1000, 0, 8192, 0] [some []], up, by
    (repeat' apply And.intro) <;> first | decide +kernel | rfl | exact fun _ _ => rfl⟩

theorem holds_identityCommands_2 : ∃ (r : Req) (s : State),
    (Asked 0x0C02 22 r s) ∧
    (bulkOk r 18 = true) ∧
    (3696 ≤ bulkLen r 18) ∧
    (dmaGood r 0 = true) :=
  ⟨askWith 22 [0,0,0,0,0,0,0,0,0,0,0,0,0,0,0,0, 0x1000, 0, 3696, 0] [some []], up, by
    (repeat' apply And.intro) <;> first | decide +kernel | rfl | exact fun _ _ => rfl⟩

theorem holds_identityCommands_3 : ∃ (r : Req) (s : State),
    (Asked 0x0C03 7 r s) ∧
    (zeroFrom r 2 2 = true) ∧
    (rb r 2 1 = true) ∧
    (zeroWords r 3 6 = true) :=
  ⟨ask 7 [3, 0, 0, 0, 0], up, by
    (repeat' apply And.intro) <;> first | decide +kernel | rfl | exact fun _ _ => rfl⟩

theorem holds_identityCommands_4 : ∃ (r : Req) (s : State),
    (Asked 0x0C03 7 r s) ∧
    (zeroFrom r 2 2 = true) ∧
    (rb r 2 1 = false) ∧
    (bulkOk r 3 = true) ∧
    (bulkLen r 3 = 1952) ∧
    (dmaGood r 0 = true) :=
  ⟨askWith 7 [1, 0x1000, 0, 1952, 0] [some []], up, by
    (repeat' apply And.intro) <;> first | decide +kernel | rfl | exact fun _ _ => rfl⟩

theorem holds_identityCommands_5 : ∃ (r : Req) (s : State) (n : List Byte),
    (Asked 0x0C04 7 r s) ∧
    (s.glb.maint = true) ∧
    (zeroFrom r 2 1 = true) ∧
    (bulkOk r 3 = true) ∧
    (rb r 2 0 = false) ∧
    (64 ≤ bulkLen r 3) ∧
    (dmaGood r 0 = true) ∧
    (n = (List.range 64).map (Config.nonceByte s.fresh)) :=
  ⟨askWith 7 [0, 0x1000, 0, 64, 0] [some []], maintained, ((List.range 64).map (Config.nonceByte 0)), by
    (repeat' apply And.intro) <;> first | decide +kernel | rfl | exact fun _ _ => rfl⟩

theorem holds_identityCommands_6 : ∃ (r : Req) (s : State) (n : List Byte) (t : State),
    (Asked 0x0C04 7 r s) ∧
    (s.glb.maint = true) ∧
    (zeroFrom r 2 1 = true) ∧
    (bulkOk r 3 = true) ∧
    (rb r 2 0 = true) ∧
    (bulkLen r 3 = 3384) ∧
    (dmaGood r 0 = true) ∧
    (validNonce s = some n) ∧
    (t = { s with fw.nonce := none }) :=
  ⟨askWith 7 [1, 0x1000, 0, 3384, 0] [some []], { maintained with fw.nonce := some ([], 0) }, [], maintained, by
    (repeat' apply And.intro) <;> first | decide +kernel | rfl | exact fun _ _ => rfl⟩

theorem holds_slotRegisters_1 : ∃ (hi : Bool) (v : Word) (s : State),
    (reachable s = true) :=
  ⟨true, 5, up, by
    (repeat' apply And.intro) <;> first | decide +kernel | rfl | exact fun _ _ => rfl⟩

theorem holds_slotRegisters_2 : ∃ (n : Nat) (s : State),
    ((slotOf s n).cond = .free) :=
  ⟨4, up, by
    (repeat' apply And.intro) <;> first | decide +kernel | rfl | exact fun _ _ => rfl⟩

theorem holds_slotRegisters_3 : ∃ (n : Nat) (s : State),
    ((slotOf s n).cond ≠ .free) :=
  ⟨4, busySlot, by
    (repeat' apply And.intro) <;> first | decide +kernel | rfl | exact fun _ _ => rfl⟩

theorem holds_slotRegisters_4 : ∃ (hi : Bool) (v : Word) (s : State),
    (reachable s = true) :=
  ⟨true, 5, up, by
    (repeat' apply And.intro) <;> first | decide +kernel | rfl | exact fun _ _ => rfl⟩

theorem holds_slotRegisters_5 : ∃ (n : Nat) (s : State),
    ((slotOf s n).cond = .done) :=
  ⟨4, doneSlot, by
    (repeat' apply And.intro) <;> first | decide +kernel | rfl | exact fun _ _ => rfl⟩

theorem holds_slotRegisters_6 : ∃ (n : Nat) (s : State),
    ((slotOf s n).cond ≠ .done) :=
  ⟨4, up, by
    (repeat' apply And.intro) <;> first | decide +kernel | rfl | exact fun _ _ => rfl⟩

theorem holds_slotRegisters_7 : ∃ (s : State),
    (reachable s = true) :=
  ⟨up, by
    (repeat' apply And.intro) <;> first | decide +kernel | rfl | exact fun _ _ => rfl⟩

theorem holds_slotTaken_1 : ∃ (env : Env) (s : State) (n : Fin 64) (rest : List Nat) (x : Slot) (r : Req) (t u : State),
    (serving s = true) ∧
    (s.mbx.rung = n.val :: rest) ∧
    (x = slotOf s n.val) ∧
    (r = requestOf (.slot n) (tget 0 x.req 0) (tget 0 x.req 1) (tget 0 x.req) env) ∧
    (t = setSlot n.val { x with cond := .busy } s) ∧
    (u = { t with mbx := { t.mbx with rung := rest, orders := s.mbx.orders + 1 } }) ∧
    (mayStart ⟨(tget 0 x.req 0).setWidth 16, r, s.mbx.orders, x.after⟩ u = true) :=
  ⟨⟨[], true⟩, rungUp, 4, [], { cond := .pending }, requestOf (.slot 4) 0 0 (fun _ => 0) ⟨[], true⟩, setSlot 4 { cond := .busy } rungUp, { setSlot 4 { cond := .busy } rungUp with mbx := { (setSlot 4 { cond := .busy } rungUp).mbx with rung := [], orders := 1 } }, by
    (repeat' apply And.intro) <;> first | decide +kernel | rfl | exact fun _ _ => rfl⟩

theorem holds_slotTaken_2 : ∃ (env : Env) (s : State) (n : Fin 64) (rest : List Nat) (x : Slot) (r : Req) (t u : State),
    (serving s = true) ∧
    (s.mbx.rung = n.val :: rest) ∧
    (x = slotOf s n.val) ∧
    (r = requestOf (.slot n) (tget 0 x.req 0) (tget 0 x.req 1) (tget 0 x.req) env) ∧
    (t = setSlot n.val { x with cond := .busy } s) ∧
    (u = { t with mbx := { t.mbx with rung := rest, orders := s.mbx.orders + 1 } }) ∧
    (mayStart ⟨(tget 0 x.req 0).setWidth 16, r, s.mbx.orders, x.after⟩ u = false) :=
  ⟨⟨[], true⟩, rungBehind, 4, [], { cond := .pending, req := [(0, 0x10000)] }, requestOf (.slot 4) 0x10000 0 (tget 0 [(0, 0x10000)]) ⟨[], true⟩, setSlot 4 { cond := .busy, req := [(0, 0x10000)] } rungBehind, { setSlot 4 { cond := .busy, req := [(0, 0x10000)] } rungBehind with mbx := { (setSlot 4 { cond := .busy, req := [(0, 0x10000)] } rungBehind).mbx with rung := [], orders := 6 } }, by
    (repeat' apply And.intro) <;> first | decide +kernel | rfl | exact fun _ _ => rfl⟩

theorem holds_commandCompletion_1 : ∃ (r : Req) (n : Fin 64) (now : Bool) (st : Status) (ws : List Word) (bulk : List (Nat × List Byte)) (s : State),
    (r.via = .slot n) :=
  ⟨ask 2 [], 3, false, .ok, [], [], up, by
    (repeat' apply And.intro) <;> first | decide +kernel | rfl | exact fun _ _ => rfl⟩

theorem holds_interruptCommands_1 : ∃ (v : Word) (s : State),
    (reachable s = true) :=
  ⟨5, up, by
    (repeat' apply And.intro) <;> first | decide +kernel | rfl | exact fun _ _ => rfl⟩

theorem holds_interruptCommands_2 : ∃ (v : Word) (s : State),
    (reachable s = true) :=
  ⟨5, up, by
    (repeat' apply And.intro) <;> first | decide +kernel | rfl | exact fun _ _ => rfl⟩

theorem holds_interruptCommands_3 : ∃ (k : Fin 32) (s : State) (g : Gap),
    (Alive s) ∧
    (g = tget {} s.irq.gaps (32 + k.val)) ∧
    (g.isOpen = true) ∧
    (ticksUs g.us ≤ since g.since s) ∧
    (g.owed = true) :=
  ⟨0, gapOwed, { isOpen := true, us := 0, owed := true }, by
    (repeat' apply And.intro) <;> first | decide +kernel | rfl | exact fun _ _ => rfl⟩

theorem holds_interruptCommands_4 : ∃ (k : Fin 32) (s : State) (g : Gap),
    (Alive s) ∧
    (g = tget {} s.irq.gaps (32 + k.val)) ∧
    (g.isOpen = true) ∧
    (ticksUs g.us ≤ since g.since s) ∧
    (g.owed = false) :=
  ⟨0, gapIdle, { isOpen := true, us := 0 }, by
    (repeat' apply And.intro) <;> first | decide +kernel | rfl | exact fun _ _ => rfl⟩

theorem holds_interruptCommands_5 : ∃ (s : State),
    (Alive s) :=
  ⟨up, by
    (repeat' apply And.intro) <;> first | decide +kernel | rfl | exact fun _ _ => rfl⟩

theorem holds_interruptCommands_6a : ∃ (v : Nat) (s : State),
    (v < 8) ∧
    (bit s.irq.cause v = false) :=
  ⟨3, up, by
    (repeat' apply And.intro) <;> first | decide +kernel | rfl | exact fun _ _ => rfl⟩

theorem holds_interruptCommands_6b : ∃ (v : Nat) (s : State),
    (v < 8) ∧
    (bit s.irq.cause v = false) :=
  ⟨3, { up with irq := { mask := 8 } }, by
    (repeat' apply And.intro) <;> first | decide +kernel | rfl | exact fun _ _ => rfl⟩

theorem holds_interruptCommands_7a : ∃ (j : Nat) (s : State),
    (j < 16) ∧
    (bit s.irq.jobCause j = false) :=
  ⟨3, up, by
    (repeat' apply And.intro) <;> first | decide +kernel | rfl | exact fun _ _ => rfl⟩

theorem holds_interruptCommands_7b : ∃ (j : Nat) (s : State),
    (j < 16) ∧
    (bit s.irq.jobCause j = false) :=
  ⟨3, { up with irq := { jobMask := 8 } }, by
    (repeat' apply And.intro) <;> first | decide +kernel | rfl | exact fun _ _ => rfl⟩

theorem holds_interruptCommands_9a : ∃ (v : Nat) (e : MsixEntry) (s : State),
    (v < 64) ∧
    (e = tget {} s.irq.msix v) ∧
    (s.irq.d3hot = false) :=
  ⟨3, {}, up, by
    (repeat' apply And.intro) <;> first | decide +kernel | rfl | exact fun _ _ => rfl⟩

theorem holds_interruptCommands_9b : ∃ (v : Nat) (e : MsixEntry) (s : State),
    (v < 64) ∧
    (e = tget {} s.irq.msix v) ∧
    (s.irq.d3hot = false) :=
  ⟨3, { ctrl := 1 }, { up with irq := { msix := [(3, { ctrl := 1 })] } }, by
    (repeat' apply And.intro) <;> first | decide +kernel | rfl | exact fun _ _ => rfl⟩

theorem holds_interruptCommands_10 : ∃ (v : Nat) (s : State),
    (s.irq.d3hot = true) :=
  ⟨3, { up with irq := { d3hot := true } }, by
    (repeat' apply And.intro) <;> first | decide +kernel | rfl | exact fun _ _ => rfl⟩

theorem holds_interruptCommands_11 : ∃ (s : State),
    (Alive s) :=
  ⟨up, by
    (repeat' apply And.intro) <;> first | decide +kernel | rfl | exact fun _ _ => rfl⟩

theorem holds_interruptCommands_12 : ∃ (s : State),
    (answersBar s = false) :=
  ⟨{ up with irq := { d3hot := true } }, by
    (repeat' apply And.intro) <;> first | decide +kernel | rfl | exact fun _ _ => rfl⟩

theorem holds_registerWrites_1 : ∃ (off : BitVec 26) (v : DWord) (s : State),
    (answersBar s = true) ∧
    (off.toNat % 4 = 0) :=
  ⟨0x34, 5, up, by
    (repeat' apply And.intro) <;> first | decide +kernel | rfl | exact fun _ _ => rfl⟩

theorem holds_registerWrites_2 : ∃ (off : BitVec 26) (v : DWord) (s : State),
    (answersBar s = true) ∧
    (inSlots off.toNat = true) ∧
    (off.toNat % 8 = 0) :=
  ⟨0x100000, 5, up, by
    (repeat' apply And.intro) <;> first | decide +kernel | rfl | exact fun _ _ => rfl⟩

theorem holds_registerWrites_4 : ∃ (off : Nat) (v : Word) (s : State),
    (reachable s = false) ∧
    (off ≠ 0x34) :=
  ⟨0x20010, 5, deadUp, by
    (repeat' apply And.intro) <;> first | decide +kernel | rfl | exact fun _ _ => rfl⟩

theorem holds_registerWrites_5 : ∃ (v : Word) (s : State),
    (reachable s = true) :=
  ⟨5, up, by
    (repeat' apply And.intro) <;> first | decide +kernel | rfl | exact fun _ _ => rfl⟩

theorem holds_registerWrites_6 : ∃ (off n i : Nat) (v : Word) (s : State),
    (reachable s = true) ∧
    (n < 64) ∧
    (i < 512) ∧
    (off = 0x100000 + 4096 * n + 4 * i) :=
  ⟨0x10400C, 4, 3, 5, up, by
    (repeat' apply And.intro) <;> first | decide +kernel | rfl | exact fun _ _ => rfl⟩

theorem holds_registerWrites_7 : ∃ (off n i : Nat) (v : Word) (s : State),
    (reachable s = true) ∧
    (n < 64) ∧
    (i < 512) ∧
    (off = 0x100000 + 4096 * n + 2048 + 4 * i) :=
  ⟨0x10480C, 4, 3, 5, up, by
    (repeat' apply And.intro) <;> first | decide +kernel | rfl | exact fun _ _ => rfl⟩

theorem holds_registerWrites_8 : ∃ (v : Word) (s : State),
    (reachable s = true) :=
  ⟨5, up, by
    (repeat' apply And.intro) <;> first | decide +kernel | rfl | exact fun _ _ => rfl⟩

theorem holds_registerWrites_9a : ∃ (v : Word) (s : State),
    (reachable s = true) :=
  ⟨64, up, by
    (repeat' apply And.intro) <;> first | decide +kernel | rfl | exact fun _ _ => rfl⟩

theorem holds_registerWrites_9b : ∃ (v : Word) (s : State),
    (reachable s = true) :=
  ⟨64, { up with tpm := { rx := { size := 16 }, tx := { size := 16 } } }, by
    (repeat' apply And.intro) <;> first | decide +kernel | rfl | exact fun _ _ => rfl⟩

theorem holds_registerWrites_10a : ∃ (off n o : Nat) (v : Word) (s : State),
    (reachable s = true) ∧
    (n < 8) ∧
    (o < 0x100) ∧
    (o % 4 = 0) ∧
    ((o ≤ 0x30 ∨ (0x40 ≤ o ∧ o < 0x50))) ∧
    (off = 0x40000 + 0x100 * n + o) :=
  ⟨0x40304, 3, 4, 5, up, by
    (repeat' apply And.intro) <;> first | decide +kernel | rfl | exact fun _ _ => rfl⟩

theorem holds_registerWrites_10b : ∃ (off n o : Nat) (v : Word) (s : State),
    (reachable s = true) ∧
    (n < 8) ∧
    (o < 0x100) ∧
    (o % 4 = 0) ∧
    ((o ≤ 0x30 ∨ (0x40 ≤ o ∧ o < 0x50))) ∧
    (off = 0x40000 + 0x100 * n + o) :=
  ⟨0x40304, 3, 4, 5, cvuFull, by
    (repeat' apply And.intro) <;> first | decide +kernel | rfl | exact fun _ _ => rfl⟩

theorem holds_registerWrites_12 : ∃ (off n k : Nat) (v : Word) (e : MsixEntry) (s t : State),
    (reachable s = true) ∧
    (n < 64) ∧
    (k < 4) ∧
    (off = 0x21000 + 16 * n + 4 * k) ∧
    (e = (if k = 0 then { tget {} s.irq.msix n with addrLo := v } else if k = 1 then { tget {} s.irq.msix n with addrHi := v } else if k = 2 then { tget {} s.irq.msix n with data := v } else { tget {} s.irq.msix n with ctrl := v &&& 1 })) ∧
    (t = { s with irq := { s.irq with msix := tset {} s.irq.msix n e } }) :=
  ⟨0x21034, 3, 1, 5, { addrHi := 5 }, up, { up with irq := { msix := [(3, { addrHi := 5 })] } }, by
    (repeat' apply And.intro) <;> first | decide +kernel | rfl | exact fun _ _ => rfl⟩

theorem holds_registerWrites_14 : ∃ (hi : Bool) (k : Nat) (s : State),
    (reachable s = true) ∧
    (k < 32) :=
  ⟨false, 31, up, by
    (repeat' apply And.intro) <;> first | decide +kernel | rfl | exact fun _ _ => rfl⟩

theorem holds_registerWrites_15 : ∃ (s : State),
    (answersBar s = true) :=
  ⟨up, by
    (repeat' apply And.intro) <;> first | decide +kernel | rfl | exact fun _ _ => rfl⟩

theorem holds_registerWrites_16 : ∃ (n : Nat) (u : Cvu) (s : State),
    (reachable s = true) ∧
    (n < 8) ∧
    (u = cvuOf (cvuSettled n s) n) :=
  ⟨3, {}, up, by
    (repeat' apply And.intro) <;> first | decide +kernel | rfl | exact fun _ _ => rfl⟩

theorem holds_registerWrites_17 : ∃ (s : State),
    (reachable s = true) :=
  ⟨up, by
    (repeat' apply And.intro) <;> first | decide +kernel | rfl | exact fun _ _ => rfl⟩

theorem holds_registerWrites_18 : ∃ (off : Nat) (s : State) (lo hi : Word),
    (goodAccess off 8 = true) ∧
    (registerRead off s = some lo) ∧
    (registerRead (off + 4) s = some hi) :=
  ⟨0x100000, up, 0, 0, by
    (repeat' apply And.intro) <;> first | decide +kernel | rfl | exact fun _ _ => rfl⟩

theorem holds_registerWrites_19 : ∃ (off width : Nat) (s : State),
    (goodAccess off width = false) :=
  ⟨2, 4, up, by
    (repeat' apply And.intro) <;> first | decide +kernel | rfl | exact fun _ _ => rfl⟩

theorem holds_registerWrites_20 : ∃ (off : BitVec 26) (width : Nat) (s : State),
    (reachable s = true) ∧
    (goodAccess off.toNat width = false) :=
  ⟨2, 4, up, by
    (repeat' apply And.intro) <;> first | decide +kernel | rfl | exact fun _ _ => rfl⟩

theorem holds_registerWrites_21 : ∃ (off : BitVec 26) (width : Nat) (s : State),
    (reachable s = true) ∧
    (goodAccess off.toNat width = false) :=
  ⟨2, 4, up, by
    (repeat' apply And.intro) <;> first | decide +kernel | rfl | exact fun _ _ => rfl⟩

theorem holds_windowAccesses_1 : ∃ (a : BitVec 34) (n : Nat) (fl : List Flaw) (s t : State) (p : Place0) (pa : Nat) (k : Nat × Nat),
    (n ≠ 0) ∧
    (a.toNat % 4096 + n ≤ 4096) ∧
    (reachable s = true) ∧
    (t = inject fl s) ∧
    (winHit (a.toNat / 2 ^ 24) (a.toNat % 2 ^ 24) n false t = .at p pa k) ∧
    (hitUe p n t = false) :=
  ⟨0, 4, [], windowed, windowed, .dram [(0, 0, 4)], 0, (0, 0), by
    (repeat' apply And.intro) <;> first | decide +kernel | rfl | exact fun _ _ => rfl⟩

theorem holds_windowAccesses_2 : ∃ (a : BitVec 34) (n : Nat) (fl : List Flaw) (s t : State) (p : Place0) (pa : Nat) (k : Nat × Nat),
    (n ≠ 0) ∧
    (a.toNat % 4096 + n ≤ 4096) ∧
    (reachable s = true) ∧
    (t = inject fl s) ∧
    (winHit (a.toNat / 2 ^ 24) (a.toNat % 2 ^ 24) n false t = .at p pa k) ∧
    (hitUe p n t = true) :=
  ⟨0, 4, [], windowedBad, windowedBad, .dram [(0, 0, 4)], 0, (0, 0), by
    (repeat' apply And.intro) <;> first | decide +kernel | rfl | exact fun _ _ => rfl⟩

theorem holds_windowAccesses_3 : ∃ (a : BitVec 34) (n : Nat) (fl : List Flaw) (s t : State) (c : Nat),
    (n ≠ 0) ∧
    (a.toNat % 4096 + n ≤ 4096) ∧
    (reachable s = true) ∧
    (t = inject fl s) ∧
    (winHit (a.toNat / 2 ^ 24) (a.toNat % 2 ^ 24) n false t = .no c) :=
  ⟨0, 4, [], up, up, 0, by
    (repeat' apply And.intro) <;> first | decide +kernel | rfl | exact fun _ _ => rfl⟩

theorem holds_windowAccesses_4 : ∃ (a : BitVec 34) (n : Nat) (fl : List Flaw) (s : State),
    (n ≠ 0) ∧
    (a.toNat % 4096 + n ≤ 4096) ∧
    (answersBar s = true) ∧
    (serving s = false) :=
  ⟨0, 4, [], deadUp, by
    (repeat' apply And.intro) <;> first | decide +kernel | rfl | exact fun _ _ => rfl⟩

theorem holds_windowAccesses_5 : ∃ (a : BitVec 34) (bs : List Byte) (fl : List Flaw) (s t : State) (p : Place0) (pa : Nat) (k : Nat × Nat),
    (bs ≠ []) ∧
    (a.toNat % 4096 + bs.length ≤ 4096) ∧
    (reachable s = true) ∧
    (t = inject fl s) ∧
    (t.glb.state ≠ .halted) ∧
    (winHit (a.toNat / 2 ^ 24) (a.toNat % 2 ^ 24) bs.length true t = .at p pa k) ∧
    (draining k.1 k.2 t = false) ∧
    (hitWaits p t = false) :=
  ⟨0, [1, 2, 3, 4], [], windowed, windowed, .dram [(0, 0, 4)], 0, (0, 0), by
    (repeat' apply And.intro) <;> first | decide +kernel | rfl | exact fun _ _ => rfl⟩

theorem holds_windowAccesses_6a : ∃ (a : BitVec 34) (bs : List Byte) (fl : List Flaw) (s t : State) (p : Place0) (pa : Nat) (k : Nat × Nat),
    (bs ≠ []) ∧
    (a.toNat % 4096 + bs.length ≤ 4096) ∧
    (reachable s = true) ∧
    (t = inject fl s) ∧
    (t.glb.state ≠ .halted) ∧
    (winHit (a.toNat / 2 ^ 24) (a.toNat % 2 ^ 24) bs.length true t = .at p pa k) ∧
    ((draining k.1 k.2 t = true ∨ hitWaits p t = true)) :=
  ⟨0, [1, 2, 3, 4], [], windowDrain, windowDrain, .dram [(0, 0, 4)], 0, (0, 0), by
    (repeat' apply And.intro) <;> first | decide +kernel | rfl | exact fun _ _ => rfl⟩

theorem holds_windowAccesses_6b : ∃ (a : BitVec 34) (bs : List Byte) (fl : List Flaw) (s t : State) (p : Place0) (pa : Nat) (k : Nat × Nat),
    (bs ≠ []) ∧
    (a.toNat % 4096 + bs.length ≤ 4096) ∧
    (reachable s = true) ∧
    (t = inject fl s) ∧
    (t.glb.state ≠ .halted) ∧
    (winHit (a.toNat / 2 ^ 24) (a.toNat % 2 ^ 24) bs.length true t = .at p pa k) ∧
    ((draining k.1 k.2 t = true ∨ hitWaits p t = true)) :=
  ⟨0, [1, 2, 3, 4], [], windowCopied, windowCopied, .dram [(0, 0, 4)], 0, (0, 0), by
    (repeat' apply And.intro) <;> first | decide +kernel | rfl | exact fun _ _ => rfl⟩

theorem holds_windowAccesses_7 : ∃ (a : BitVec 34) (bs : List Byte) (fl : List Flaw) (s t : State) (c : Nat),
    (bs ≠ []) ∧
    (a.toNat % 4096 + bs.length ≤ 4096) ∧
    (reachable s = true) ∧
    (t = inject fl s) ∧
    (winHit (a.toNat / 2 ^ 24) (a.toNat % 2 ^ 24) bs.length true t = .no c) :=
  ⟨0, [1], [], up, up, 0, by
    (repeat' apply And.intro) <;> first | decide +kernel | rfl | exact fun _ _ => rfl⟩

theorem holds_windowAccesses_8 : ∃ (a : BitVec 34) (bs : List Byte) (fl : List Flaw) (s t : State) (p : Place0) (pa : Nat) (k : Nat × Nat),
    (bs ≠ []) ∧
    (a.toNat % 4096 + bs.length ≤ 4096) ∧
    (reachable s = true) ∧
    (t = inject fl s) ∧
    (t.glb.state = .halted) ∧
    (winHit (a.toNat / 2 ^ 24) (a.toNat % 2 ^ 24) bs.length true t = .at p pa k) :=
  ⟨0, [1, 2, 3, 4], [], windowHalted, windowHalted, .dram [(0, 0, 4)], 0, (0, 0), by
    (repeat' apply And.intro) <;> first | decide +kernel | rfl | exact fun _ _ => rfl⟩

theorem holds_windowAccesses_9 : ∃ (a : BitVec 34) (bs : List Byte) (fl : List Flaw) (s : State),
    (a.toNat % 4096 + bs.length ≤ 4096) ∧
    (reachable s = false) :=
  ⟨0, [1], [], deadUp, by
    (repeat' apply And.intro) <;> first | decide +kernel | rfl | exact fun _ _ => rfl⟩

theorem holds_windowAccesses_10 : ∃ (page off n : Nat) (write : Bool) (s : State),
    ((pageOf s page).cond ≠ .mapped) :=
  ⟨0, 0, 4, true, up, by
    (repeat' apply And.intro) <;> first | decide +kernel | rfl | exact fun _ _ => rfl⟩

theorem holds_windowAccesses_11a : ∃ (page off n : Nat) (write : Bool) (s : State) (w : Window) (e : RmEntry),
    (w = pageOf s page) ∧
    (w.cond = .mapped) ∧
    (rmLookup w.job w.region s = some e) :=
  ⟨0, 0, 4, true, windowed, { cond := .mapped, rd := true, wr := true }, { valid := true, size := 65536 }, by
    (repeat' apply And.intro) <;> first | decide +kernel | rfl | exact fun _ _ => rfl⟩

theorem holds_windowAccesses_11b : ∃ (page off n : Nat) (write : Bool) (s : State) (w : Window) (e : RmEntry),
    (w = pageOf s page) ∧
    (w.cond = .mapped) ∧
    (rmLookup w.job w.region s = some e) :=
  ⟨0, 65533, 4, true, windowed, { cond := .mapped, rd := true, wr := true }, { valid := true, size := 65536 }, by
    (repeat' apply And.intro) <;> first | decide +kernel | rfl | exact fun _ _ => rfl⟩

theorem holds_windowAccesses_11c : ∃ (page off n : Nat) (write : Bool) (s : State) (w : Window) (e : RmEntry),
    (w = pageOf s page) ∧
    (w.cond = .mapped) ∧
    (rmLookup w.job w.region s = some e) :=
  ⟨0, 65532, 4, false, windowedW, { cond := .mapped, wr := true }, { valid := true, size := 65536 }, by
    (repeat' apply And.intro) <;> first | decide +kernel | rfl | exact fun _ _ => rfl⟩

theorem holds_windowAccesses_12 : ∃ (a : BitVec 34) (n : Nat) (bs : List Byte) (fl : List Flaw) (s : State),
    (4096 < a.toNat % 4096 + n) ∧
    (n = bs.length) :=
  ⟨4095, 2, [1, 2], [], up, by
    (repeat' apply And.intro) <;> first | decide +kernel | rfl | exact fun _ _ => rfl⟩

theorem holds_resets_1 : ∃ (s : State),
    (s.power.on = true) :=
  ⟨up, by
    (repeat' apply And.intro) <;> first | decide +kernel | rfl | exact fun _ _ => rfl⟩

theorem holds_resets_2 : ∃ (kind : ResetKind) (held : Bool) (s u t : State),
    (u = releaseForces (weltDark 3 s)) ∧
    (t = moduleReset kind held s) :=
  ⟨.module, true, up, up, moduleReset .module true up, by
    (repeat' apply And.intro) <;> first | decide +kernel | rfl | exact fun _ _ => rfl⟩

theorem holds_resets_3 : ∃ (s : State),
    (s.power.on = true) ∧
    (s.power.held = true) :=
  ⟨{ up with power := { held := true } }, by
    (repeat' apply And.intro) <;> first | decide +kernel | rfl | exact fun _ _ => rfl⟩

theorem holds_resets_4 : ∃ (s : State),
    (s.power.on = false) :=
  ⟨{ up with power := { on := false } }, by
    (repeat' apply And.intro) <;> first | decide +kernel | rfl | exact fun _ _ => rfl⟩

theorem holds_resets_6 : ∃ (s : State),
    (Alive s) :=
  ⟨up, by
    (repeat' apply And.intro) <;> first | decide +kernel | rfl | exact fun _ _ => rfl⟩

theorem holds_resets_8 : ∃ (s t : State),
    (Alive s) ∧
    (t = linkReset s) :=
  ⟨up, linkReset up, by
    (repeat' apply And.intro) <;> first | decide +kernel | rfl | exact fun _ _ => rfl⟩

theorem holds_resets_9 : ∃ (s : State) (kind : ResetKind) (n : Nat) (rest : List (ResetKind × Nat)) (t : State),
    (Alive s) ∧
    (s.power.resetDue = (kind, n) :: rest) ∧
    (ticksMs 1 ≤ since n s) ∧
    (t = { s with power := { s.power with resetDue := rest } }) :=
  ⟨{ up with clk := 600000, power := { resetDue := [(.module, 0)] } }, .module, 0, [], { up with clk := 600000 }, by
    (repeat' apply And.intro) <;> first | decide +kernel | rfl | exact fun _ _ => rfl⟩

theorem holds_startUp_1 : ∃ (s t : State),
    (Alive s) ∧
    (s.glb.yarlerUp = false) ∧
    ((s.glb.state = .boot ∨ s.glb.state = .halted)) ∧
    (t = bootCopy s) :=
  ⟨State.reset, State.reset, by
    (repeat' apply And.intro) <;> first | decide +kernel | rfl | exact fun _ _ => rfl⟩

theorem holds_startUp_2 : ∃ (s : State),
    (s.fw.boot = .copy) :=
  ⟨{ up with fw := { boot := .copy } }, by
    (repeat' apply And.intro) <;> first | decide +kernel | rfl | exact fun _ _ => rfl⟩

theorem holds_startUp_3 : ∃ (s : State) (n : Nat),
    (s.power.on = true) ∧
    (s.fw.trialStart = some n) ∧
    (ticksS 30 ≤ since n s) ∧
    ((s.glb.state = .boot ∨ s.glb.state = .migrate)) :=
  ⟨{ State.reset with clk := 15000000000, fw := { trialStart := some 0 } }, 0, by
    (repeat' apply And.intro) <;> first | decide +kernel | rfl | exact fun _ _ => rfl⟩

theorem holds_startUp_4 : ∃ (flashOk : Bool) (s : State),
    (Alive s) ∧
    (s.glb.state = .boot) ∧
    (s.glb.yarlerUp = true) ∧
    (s.fw.migrateDue = true) :=
  ⟨true, migrating, by
    (repeat' apply And.intro) <;> first | decide +kernel | rfl | exact fun _ _ => rfl⟩

theorem holds_startUp_5 : ∃ (flashOk : Bool) (s : State),
    (Alive s) ∧
    (s.glb.state = .migrate) ∧
    (s.fw.converted = false) :=
  ⟨true, converting, by
    (repeat' apply And.intro) <;> first | decide +kernel | rfl | exact fun _ _ => rfl⟩

theorem holds_startUp_6 : ∃ (n : Fin 65) (s t : State),
    (Alive s) ∧
    (startReady s = true) ∧
    (t = weltOn 1 (enter .configurable 0 (showVersion s))) :=
  ⟨0, starting, weltOn 1 (enter .configurable 0 (showVersion starting)), by
    (repeat' apply And.intro) <;> first | decide +kernel | rfl | exact fun _ _ => rfl⟩

theorem holds_startUp_7 : ∃ (s : State),
    (Alive s) ∧
    (s.glb.yarlerUp = true) :=
  ⟨up, by
    (repeat' apply And.intro) <;> first | decide +kernel | rfl | exact fun _ _ => rfl⟩

theorem holds_startUp_8 : ∃ (s : State),
    (s.power.on = true) :=
  ⟨up, by
    (repeat' apply And.intro) <;> first | decide +kernel | rfl | exact fun _ _ => rfl⟩

theorem holds_powerEvents_1 : ∃ (v : Nat) (s t u : State),
    (s.power.on = true) ∧
    (s.power.failing = false) ∧
    (t = { s with power := { s.power with failing := true, resetDue := [] } }) ∧
    (u = logPowerFail (raise 0x1004 3 [word v, word (fill t), word (s.jobs.filter (fun p => p.2.status = .running)).length] t)) :=
  ⟨3900, up, { up with power := { failing := true } }, logPowerFail (raise 0x1004 3 [3900, 0, 0] { up with power := { failing := true } }), by
    (repeat' apply And.intro) <;> first | decide +kernel | rfl | exact fun _ _ => rfl⟩

theorem holds_powerEvents_3 : ∃ (s : State),
    (s.power.on = true) ∧
    (s.power.failing = true) :=
  ⟨{ up with power := { failing := true } }, by
    (repeat' apply And.intro) <;> first | decide +kernel | rfl | exact fun _ _ => rfl⟩

theorem holds_powerEvents_4 : ∃ (s : State),
    (s.power.on = true) ∧
    (s.power.failing = true) :=
  ⟨{ up with power := { failing := true } }, by
    (repeat' apply And.intro) <;> first | decide +kernel | rfl | exact fun _ _ => rfl⟩

theorem holds_powerEvents_5 : ∃ (v : Nat) (s t : State),
    (s.power.on = true) ∧
    (t = { s with power := { s.power with under := decide (v < 4800), overV := decide (7200 < v) } }) ∧
    ((s.power.under || s.power.overV) = (t.power.under || t.power.overV)) :=
  ⟨5000, up, { up with power := { under := false, overV := false } }, by
    (repeat' apply And.intro) <;> first | decide +kernel | rfl | exact fun _ _ => rfl⟩

theorem holds_powerEvents_6 : ∃ (v : Nat) (s t : State),
    (s.power.on = true) ∧
    (t = { s with power := { s.power with under := decide (v < 4800), overV := decide (7200 < v) } }) ∧
    ((s.power.under || s.power.overV) ≠ (t.power.under || t.power.overV)) :=
  ⟨4700, up, { up with power := { under := true, overV := false } }, by
    (repeat' apply And.intro) <;> first | decide +kernel | rfl | exact fun _ _ => rfl⟩

theorem holds_powerEvents_7 : ∃ (c : Int) (s : State),
    (s.power.on = true) ∧
    (((110 < c ∧ s.power.convHot = false) ∨ (c < 110 ∧ s.power.convHot = true))) :=
  ⟨111, up, by
    (repeat' apply And.intro) <;> first | decide +kernel | rfl | exact fun _ _ => rfl⟩

theorem holds_powerEvents_8 : ∃ (capUf v : Nat) (s : State),
    (Alive s) ∧
    (s.power.charged = true) ∧
    ((s.power.checkedAt = none ∨ ∃ n, s.power.checkedAt = some n ∧ ticksS 86400 ≤ since n s)) ∧
    (3200 ≤ capUf) ∧
    (5700 ≤ v) :=
  ⟨3600, 6000, { up with power := { charged := true } }, by
    (repeat' apply And.intro) <;> first | decide +kernel | rfl | exact fun _ _ => rfl⟩

theorem holds_powerEvents_9 : ∃ (capUf v : Nat) (s : State),
    (Alive s) ∧
    (s.power.charged = true) ∧
    ((s.power.checkedAt = none ∨ ∃ n, s.power.checkedAt = some n ∧ ticksS 86400 ≤ since n s)) ∧
    ((capUf < 3200 ∨ v < 5700)) :=
  ⟨3199, 6000, { up with power := { charged := true } }, by
    (repeat' apply And.intro) <;> first | decide +kernel | rfl | exact fun _ _ => rfl⟩

theorem holds_powerEvents_10 : ∃ (f : State → State) (s : State),
    ((s.power.on = false ∨ s.power.held = true ∨ s.power.failing = true)) :=
  ⟨(fun s => s), { up with power := { failing := true } }, by
    (repeat' apply And.intro) <;> first | decide +kernel | rfl | exact fun _ _ => rfl⟩

theorem holds_powerEvents_11 : ∃ (s : State),
    (s.power.failing = true) :=
  ⟨{ up with power := { failing := true } }, by
    (repeat' apply And.intro) <;> first | decide +kernel | rfl | exact fun _ _ => rfl⟩

theorem holds_powerEvents_12 : ∃ (v : Nat) (s : State),
    (s.power.on = true) ∧
    (s.power.failing = false) :=
  ⟨6000, State.reset, by
    (repeat' apply And.intro) <;> first | decide +kernel | rfl | exact fun _ _ => rfl⟩

theorem holds_powerLoop_1a : ∃ (r : PowerReading) (s : State) (lower calm : Bool),
    (Alive s) ∧
    (lower = decide ((1050 < r.pdieW ∨ 37500 < r.iinMa ∨ qi 100 < dieTemp s) ∧ 1400 < s.power.eclk)) ∧
    (calm = decide (r.pdieW * 100 < 95 * 1050 ∧ r.iinMa * 100 < 95 * 37500 ∧ dieTemp s < qi 95)) :=
  ⟨⟨4800, 1, 1, 2000, 6000⟩, up, true, false, by
    (repeat' apply And.intro) <;> first | decide +kernel | rfl | exact fun _ _ => rfl⟩

theorem holds_powerLoop_1b : ∃ (r : PowerReading) (s : State) (lower calm : Bool),
    (Alive s) ∧
    (lower = decide ((1050 < r.pdieW ∨ 37500 < r.iinMa ∨ qi 100 < dieTemp s) ∧ 1400 < s.power.eclk)) ∧
    (calm = decide (r.pdieW * 100 < 95 * 1050 ∧ r.iinMa * 100 < 95 * 37500 ∧ dieTemp s < qi 95)) :=
  ⟨⟨4800, 1, 1100, 2000, 6000⟩, up, true, false, by
    (repeat' apply And.intro) <;> first | decide +kernel | rfl | exact fun _ _ => rfl⟩

theorem holds_powerLoop_2 : ∃ (r : PowerReading) (s : State),
    (Alive s) :=
  ⟨⟨4800, 1, 1, 2000, 6000⟩, up, by
    (repeat' apply And.intro) <;> first | decide +kernel | rfl | exact fun _ _ => rfl⟩

theorem holds_powerLoop_3 : ∃ (s : State) (n : Nat),
    (Alive s) ∧
    (s.power.calmSince = some n) ∧
    (ticksMs 1 ≤ since n s) ∧
    (s.power.eclk < 2200) :=
  ⟨{ up with clk := 600000, power := { eclk := 2000, calmSince := some 0 } }, 0, by
    (repeat' apply And.intro) <;> first | decide +kernel | rfl | exact fun _ _ => rfl⟩

theorem holds_trips_1 : ∃ (s : State) (p i : Bool),
    (Alive s) ∧
    (p = (heldFor (ticksMs 10) s.power.pdieOver s && !s.power.pdieTold)) ∧
    (i = (heldFor (ticksMs 10) s.power.iinOver s && !s.power.iinTold)) ∧
    ((p = true ∨ i = true)) :=
  ⟨{ up with clk := 6000000, power := { pdieOver := some 0 } }, true, false, by
    (repeat' apply And.intro) <;> first | decide +kernel | rfl | exact fun _ _ => rfl⟩

theorem holds_trips_2 : ∃ (s : State),
    (Alive s) ∧
    ((heldFor (ticksMs 10) s.power.pdieOver s && !s.power.pdieTold) = false) ∧
    ((heldFor (ticksMs 10) s.power.iinOver s && !s.power.iinTold) = false) :=
  ⟨up, by
    (repeat' apply And.intro) <;> first | decide +kernel | rfl | exact fun _ _ => rfl⟩

theorem holds_trips_3 : ∃ (k : Fin 64) (s : State),
    (Alive s) ∧
    (heldFor (ticksMs 1) (tget none s.power.dieOver k) s = true) ∧
    (s.power.dieTold = false) :=
  ⟨3, { up with clk := 6000000, power := { dieOver := [(3, some 0)] } }, by
    (repeat' apply And.intro) <;> first | decide +kernel | rfl | exact fun _ _ => rfl⟩

theorem holds_trips_4 : ∃ (k : Fin 64) (s : State),
    (Alive s) ∧
    ((heldFor (ticksMs 1) (tget none s.power.dieOver k) s && !s.power.dieTold) = false) :=
  ⟨3, up, by
    (repeat' apply And.intro) <;> first | decide +kernel | rfl | exact fun _ _ => rfl⟩

theorem holds_trips_5 : ∃ (p : Fin 2) (s : State) (l : Limits),
    (Alive s) ∧
    ((planeOf s p).limits = some l) ∧
    (heldFor (ticksMs 10) (planeOf s p).hotSince s = true) ∧
    ((planeOf s p).hotTold = false) :=
  ⟨0, { up with clk := 6000000, shank := { planes := [(0, { limits := some ⟨1, 1, 1⟩, hotSince := some 0 })] } }, ⟨1, 1, 1⟩, by
    (repeat' apply And.intro) <;> first | decide +kernel | rfl | exact fun _ _ => rfl⟩

theorem holds_trips_6 : ∃ (p : Fin 2) (s : State),
    (Alive s) ∧
    (((planeOf s p).limits = none ∨ (heldFor (ticksMs 10) (planeOf s p).hotSince s && !(planeOf s p).hotTold) = false)) :=
  ⟨0, up, by
    (repeat' apply And.intro) <;> first | decide +kernel | rfl | exact fun _ _ => rfl⟩

theorem holds_trips_7 : ∃ (e : Ev) (s : State),
    (s.power.on = true) ∧
    (e.sev.val < 4) :=
  ⟨⟨0x2001, 1, []⟩, up, by
    (repeat' apply And.intro) <;> first | decide +kernel | rfl | exact fun _ _ => rfl⟩

theorem holds_trips_8 : ∃ (e : Ev) (s : State),
    (s.power.on = true) ∧
    (e.sev.val = 4) :=
  ⟨⟨0x2001, 4, []⟩, up, by
    (repeat' apply And.intro) <;> first | decide +kernel | rfl | exact fun _ _ => rfl⟩

theorem holds_trips_9 : ∃ (code : BitVec 16) (items : List Word) (s t u : State),
    (t = raise code 4 items s) ∧
    (t.glb.state ≠ .dead) ∧
    (t.glb.state ≠ .halted) ∧
    (killsWelt code t.glb.state = false) ∧
    (u = discardStarts (forAll jobNos haltJob (enter .halted code t))) :=
  ⟨0x2001, [], up, raise 0x2001 4 [] up, discardStarts (forAll jobNos haltJob (enter .halted 0x2001 (raise 0x2001 4 [] up))), by
    (repeat' apply And.intro) <;> first | decide +kernel | rfl | exact fun _ _ => rfl⟩

theorem holds_trips_10 : ∃ (code : BitVec 16) (items : List Word) (s t u : State),
    (t = raise code 4 items s) ∧
    (t.glb.state ≠ .dead) ∧
    (t.glb.state ≠ .halted) ∧
    ((code.toNat / 4096 = 1 ∨ code.toNat / 4096 = 5 ∨ t.glb.state = .boot ∨ t.glb.state = .migrate)) ∧
    (u = moveAbort 5 0 (showVersion { discardStarts (forAll jobNos haltJob (enter .halted code t)) with fw.trialStart := none })) :=
  ⟨0x5013, [], up, raise 0x5013 4 [] up, moveAbort 5 0 (showVersion { discardStarts (forAll jobNos haltJob (enter .halted 0x5013 (raise 0x5013 4 [] up))) with fw.trialStart := none }), by
    (repeat' apply And.intro) <;> first | decide +kernel | rfl | exact fun _ _ => rfl⟩

theorem holds_trips_11 : ∃ (r : PowerReading) (s : State) (e : Nat),
    (Alive s) ∧
    (e = (if (1050 < r.pdieW ∨ 37500 < r.iinMa ∨ qi 100 < dieTemp s) ∧ 1400 < s.power.eclk then s.power.eclk - 25 else s.power.eclk)) :=
  ⟨⟨4800, 1, 1101, 2000, 6000⟩, { up with power := { eclk := 1400 } }, 1400, by
    (repeat' apply And.intro) <;> first | decide +kernel | rfl | exact fun _ _ => rfl⟩

theorem holds_trips_12 : ∃ (p : Nat) (s : State) (x : Plane) (hot : Bool),
    (x = planeOf s p) ∧
    (hot = (match x.limits with
      | some l => decide (qAdd l.tLim (qi 10) ≤ x.tp)
      | none => false)) :=
  ⟨0, { up with shank := { planes := [(0, { limits := some ⟨1, 1, 1⟩, tp := qi 11 })] } }, { limits := some ⟨1, 1, 1⟩, tp := qi 11 }, true, by
    (repeat' apply And.intro) <;> first | decide +kernel | rfl | exact fun _ _ => rfl⟩

theorem holds_addendWrite_1 : ∃ (v : Word) (s t : State),
    (reachable s = true) ∧
    (0x1FFBE76D ≤ v.toNat) ∧
    (v.toNat ≤ 0x20041893) ∧
    (t = { s with tmu := { s.tmu with addend := v, addendWritten := true, holdover := false, wdogStart := s.clk, wdogDone := false }, glb := { s.glb with holdover := false } }) :=
  ⟨0x20001A37, up, { up with tmu := { addend := 0x20001A37, addendWritten := true, holdover := false }, glb := { up.glb with holdover := false } }, by
    (repeat' apply And.intro) <;> first | decide +kernel | rfl | exact fun _ _ => rfl⟩

theorem holds_addendWrite_2 : ∃ (v : Word) (s : State),
    (reachable s = true) ∧
    ((v.toNat < 0x1FFBE76D ∨ 0x20041893 < v.toNat)) :=
  ⟨0x20041894, up, by
    (repeat' apply And.intro) <;> first | decide +kernel | rfl | exact fun _ _ => rfl⟩

theorem holds_addendWrite_3 : ∃ (v : Word) (s : State),
    ((v.toNat < 0x1FFBE76D ∨ 0x20041893 < v.toNat)) :=
  ⟨0, up, by
    (repeat' apply And.intro) <;> first | decide +kernel | rfl | exact fun _ _ => rfl⟩

theorem holds_stepWrite_1 : ∃ (v : Word) (s : State),
    (reachable s = true) ∧
    ((0 ≤ v.toInt ∨ ∀ e ∈ s.sched.entries, ¬ ((e.2.st = .armed ∨ e.2.st = .firing) ∧ 0 ≤ siteDiff (siteNow s) e.2.instant ∧ siteDiff (siteNow s) e.2.instant ≤ -v.toInt))) :=
  ⟨0xFFFFFFF0, up, by
    (repeat' apply And.intro) <;> first | decide +kernel | rfl | exact fun _ _ => rfl⟩

theorem holds_stepWrite_2 : ∃ (v : Word) (s : State) (k : Nat) (e : Entry),
    (reachable s = true) ∧
    (v.toInt < 0) ∧
    ((k, e) ∈ s.sched.entries) ∧
    ((e.st = .armed ∨ e.st = .firing)) ∧
    (0 ≤ siteDiff (siteNow s) e.instant) ∧
    (siteDiff (siteNow s) e.instant ≤ -v.toInt) :=
  ⟨0xFFFFFFF0, { up with sched := { entries := [(3, { st := .armed })] } }, 3, { st := .armed }, by
    (repeat' apply And.intro) <;> first | decide +kernel | rfl | exact fun _ _ => rfl⟩

theorem holds_timeCommands_1 : ∃ (s : State),
    (reachable s = true) :=
  ⟨up, by
    (repeat' apply And.intro) <;> first | decide +kernel | rfl | exact fun _ _ => rfl⟩

theorem holds_timeCommands_2 : ∃ (v : Word) (s : State),
    (reachable s = true) ∧
    (v.setWidth 8 ≠ (0 : BitVec 8)) :=
  ⟨5, up, by
    (repeat' apply And.intro) <;> first | decide +kernel | rfl | exact fun _ _ => rfl⟩

theorem holds_timeCommands_3 : ∃ (v : Word) (s : State),
    (reachable s = true) ∧
    (v.setWidth 8 = (0 : BitVec 8)) :=
  ⟨0x100, up, by
    (repeat' apply And.intro) <;> first | decide +kernel | rfl | exact fun _ _ => rfl⟩

theorem holds_timeCommands_4 : ∃ (s : State),
    (Alive s) ∧
    (s.tmu.wdogDone = false) ∧
    (ticksS s.tmu.timeoutS.toNat ≤ since s.tmu.wdogStart s) ∧
    (s.tmu.holdover = false) :=
  ⟨{ up with clk := 8000000000, tmu := { holdover := false } }, by
    (repeat' apply And.intro) <;> first | decide +kernel | rfl | exact fun _ _ => rfl⟩

theorem holds_timeCommands_5 : ∃ (s : State),
    (Alive s) ∧
    (2 ^ 64 ≤ s.tmu.ns.toNat * 2 ^ 32 + s.tmu.frac.toNat + s.tmu.addend.toNat * 16) :=
  ⟨{ up with tmu := { ns := 0xFFFFFFFF } }, by
    (repeat' apply And.intro) <;> first | decide +kernel | rfl | exact fun _ _ => rfl⟩

theorem holds_timeCommands_6 : ∃ (s : State),
    (Alive s) :=
  ⟨up, by
    (repeat' apply And.intro) <;> first | decide +kernel | rfl | exact fun _ _ => rfl⟩

theorem holds_timeCommands_7 : ∃ (s : State),
    (Alive s) ∧
    (0 ≤ siteDiff (siteNow s) s.tmu.nextEdge) :=
  ⟨{ up with tmu := { ns := 1000000000 } }, by
    (repeat' apply And.intro) <;> first | decide +kernel | rfl | exact fun _ _ => rfl⟩

theorem holds_timeCommands_8 : ∃ (rising : Bool) (pulse : Nat) (s : State) (v : BitVec 48) (t : State),
    (Alive s) ∧
    (s.tmu.inEn = true) ∧
    (rising = !s.tmu.inFall) ∧
    (100 ≤ pulse) ∧
    ((∀ n, s.tmu.lastCapture = some n → ticksMs 500 ≤ since n s)) ∧
    (v = siteNow s - s.tmu.inDelay.signExtend 48) ∧
    (t = { s with tmu := { s.tmu with ppsTs := v.setWidth 32, ppsFrac := s.tmu.frac, ppsEra := (v >>> 32).setWidth 16, lastCapture := some s.clk, lostTold := false } }) :=
  ⟨true, 100, { up with tmu := { inEn := true } }, 0, { up with tmu := { inEn := true, lastCapture := some 0 } }, by
    (repeat' apply And.intro) <;> first | decide +kernel | rfl | exact fun _ _ => rfl⟩

theorem holds_timeCommands_9 : ∃ (s : State),
    (Alive s) ∧
    (s.tmu.inEn = true) ∧
    (s.tmu.lostTold = false) ∧
    (ticksS 2 ≤ since s.tmu.enabledAt s) ∧
    ((∀ n, s.tmu.lastCapture = some n → ticksS 2 ≤ since n s)) :=
  ⟨{ up with clk := 1000000000, tmu := { inEn := true } }, by
    (repeat' apply And.intro) <;> first | decide +kernel | rfl | exact fun _ _ => rfl⟩

theorem holds_timeCommands_10 : ∃ (s : State),
    (Alive s) ∧
    (s.tmu.outEn = true) ∧
    (s.tmu.edgeLoaded = false) ∧
    (edgeOwed (lastDue s) s = true) :=
  ⟨{ up with tmu := { outEn := true } }, by
    (repeat' apply And.intro) <;> first | decide +kernel | rfl | exact fun _ _ => rfl⟩

theorem holds_timeCommands_11 : ∃ (s : State),
    (Alive s) ∧
    (s.tmu.ppsOut = true) ∧
    (ticksUs s.tmu.widthUs ≤ since s.tmu.ppsRose s) :=
  ⟨{ up with clk := 50000000, tmu := { ppsOut := true } }, by
    (repeat' apply And.intro) <;> first | decide +kernel | rfl | exact fun _ _ => rfl⟩

theorem holds_timeCommands_12 : ∃ (k : Fin 1024) (s : State),
    (Alive s) ∧
    (((schedOf s k).st = .spent ∨ (schedOf s k).st = .disarmed)) ∧
    (2 ^ 31 ≤ siteDiff (siteNow s) (schedOf s k).instant) :=
  ⟨3, { up with tmu := { ns := 0x90000000 }, sched := { entries := [(3, { st := .spent })] } }, by
    (repeat' apply And.intro) <;> first | decide +kernel | rfl | exact fun _ _ => rfl⟩

theorem holds_timingPort_1 : ∃ (f : EthFrame) (dma : Dma) (s : State) (d : List Byte) (t : State),
    (Alive s) ∧
    (portUp s.tpm = true) ∧
    (s.tpm.speed ≠ 0) ∧
    (f.fcsOk = true) ∧
    (f.bytes.length ≤ 2000) ∧
    (filterPass f.bytes s.tpm = true) ∧
    (s.tpm.rx.size ≠ 0) ∧
    (s.tpm.rx.head % s.tpm.rx.size ≠ s.tpm.rx.tail % s.tpm.rx.size) ∧
    (dma[0]? = some (some d)) ∧
    (t = emit (.ringDma (ringBase s.tpm.rx + 16 * s.tpm.rx.head) (wordsBytes (writeBack f.bytes.length (stamp false s) s.tpm.speed)))
        (emit (.ringDma (leNat ((padTo 0 16 d).take 8)) f.bytes) s)) :=
  ⟨⟨List.replicate 60 0xFF, true⟩, [some []], porty, [], emit (.ringDma (ringBase porty.tpm.rx) (wordsBytes (writeBack 60 (stamp false porty) 1)))
        (emit (.ringDma 0 (List.replicate 60 0xFF)) porty), by
    (repeat' apply And.intro) <;> first | decide +kernel | rfl | exact fun _ _ => rfl⟩

theorem holds_timingPort_2 : ∃ (f : EthFrame) (dma : Dma) (s : State),
    (Alive s) ∧
    (portUp s.tpm = true) ∧
    (s.tpm.speed ≠ 0) ∧
    (f.fcsOk = true) ∧
    (f.bytes.length ≤ 2000) ∧
    (filterPass f.bytes s.tpm = true) ∧
    ((s.tpm.rx.size = 0 ∨ s.tpm.rx.head % s.tpm.rx.size = s.tpm.rx.tail % s.tpm.rx.size)) :=
  ⟨⟨List.replicate 60 0xFF, true⟩, [], { up with tpm := { speed := 1, linkUp := true } }, by
    (repeat' apply And.intro) <;> first | decide +kernel | rfl | exact fun _ _ => rfl⟩

theorem holds_timingPort_3 : ∃ (f : EthFrame) (dma : Dma) (s : State),
    (Alive s) ∧
    (portUp s.tpm = true) ∧
    (s.tpm.speed ≠ 0) ∧
    ((f.fcsOk = false ∨ 2000 < f.bytes.length)) :=
  ⟨⟨[], false⟩, [], { up with tpm := { speed := 1, linkUp := true } }, by
    (repeat' apply And.intro) <;> first | decide +kernel | rfl | exact fun _ _ => rfl⟩

theorem holds_timingPort_4 : ∃ (dma : Dma) (s : State) (d bs : List Byte) (n : Nat) (t : State),
    (Alive s) ∧
    (portUp s.tpm = true) ∧
    (s.tpm.speed ≠ 0) ∧
    (s.tpm.tx.size ≠ 0) ∧
    (s.tpm.tx.head % s.tpm.tx.size ≠ s.tpm.tx.tail % s.tpm.tx.size) ∧
    (dma[0]? = some (some d)) ∧
    (dma[1]? = some (some bs)) ∧
    (n = leNat (((padTo 0 16 d).drop 8).take 4) % 4096) ∧
    (14 ≤ n) ∧
    (n ≤ 2000) ∧
    (t = emit (.ringDma (ringBase s.tpm.tx + 16 * s.tpm.tx.head) (wordsBytes (writeBack n (stamp true s) s.tpm.speed)))
        (emit (.ethFrame (withFcs (padFrame (padTo 0 n bs)))) s)) :=
  ⟨[some [0, 0, 0, 0, 0, 0, 0, 0, 20, 0], some []], portyT, [0, 0, 0, 0, 0, 0, 0, 0, 20, 0], [], 20, emit (.ringDma (ringBase portyT.tpm.tx) (wordsBytes (writeBack 20 (stamp true portyT) 1)))
        (emit (.ethFrame (withFcs (List.replicate 60 0))) portyT), by
    (repeat' apply And.intro) <;> first | decide +kernel | rfl | exact fun _ _ => rfl⟩

theorem holds_timingPort_5 : ∃ (v : Word) (s : State),
    (reachable s = true) :=
  ⟨7, up, by
    (repeat' apply And.intro) <;> first | decide +kernel | rfl | exact fun _ _ => rfl⟩

theorem holds_timingPort_6 : ∃ (v : Word) (s : State),
    (reachable s = true) ∧
    (field v 0 13 ∈ [0, 16, 32, 64, 128, 256, 512, 1024, 2048, 4096]) :=
  ⟨16, up, by
    (repeat' apply And.intro) <;> first | decide +kernel | rfl | exact fun _ _ => rfl⟩

theorem holds_timingPort_7 : ∃ (v : Word) (s : State),
    (reachable s = true) ∧
    (field v 0 13 ∈ [0, 16, 32, 64, 128, 256, 512, 1024, 2048, 4096]) :=
  ⟨0, up, by
    (repeat' apply And.intro) <;> first | decide +kernel | rfl | exact fun _ _ => rfl⟩

theorem holds_timingPort_8 : ∃ (s : State),
    (reachable s = true) :=
  ⟨up, by
    (repeat' apply And.intro) <;> first | decide +kernel | rfl | exact fun _ _ => rfl⟩

theorem holds_timingPort_9 : ∃ (isUp : Bool) (s : State),
    (Alive s) ∧
    (s.tpm.linkUp = !isUp) ∧
    ((isUp = true → s.tpm.speed ≠ 0 ∧ s.tpm.cage = true)) :=
  ⟨true, { up with tpm := { speed := 1 } }, by
    (repeat' apply And.intro) <;> first | decide +kernel | rfl | exact fun _ _ => rfl⟩

theorem holds_timingPort_10 : ∃ (s : State),
    (Alive s) ∧
    ((s.tpm.speed = 0 ∨ s.tpm.cage = false)) :=
  ⟨up, by
    (repeat' apply And.intro) <;> first | decide +kernel | rfl | exact fun _ _ => rfl⟩

theorem holds_timingPort_11 : ∃ (isUp : Bool) (s : State),
    (Alive s) ∧
    (s.tpm.linkUp = isUp) :=
  ⟨false, up, by
    (repeat' apply And.intro) <;> first | decide +kernel | rfl | exact fun _ _ => rfl⟩

theorem holds_checkUnitCompares_1 : ∃ (n : Fin 8) (s : State),
    (reachable s = true) ∧
    ((cvuOf s n).queue.length < 16) :=
  ⟨2, up, by
    (repeat' apply And.intro) <;> first | decide +kernel | rfl | exact fun _ _ => rfl⟩

theorem holds_checkUnitCompares_2 : ∃ (n : Fin 8) (s : State),
    (reachable s = true) ∧
    (16 ≤ (cvuOf s n).queue.length) :=
  ⟨2, cvuFull, by
    (repeat' apply And.intro) <;> first | decide +kernel | rfl | exact fun _ _ => rfl⟩

theorem holds_checkUnitCompares_3 : ∃ (n : Nat) (s : State) (u : Cvu),
    (u = cvuOf s n) ∧
    ((cvuResult u).toNat % 2 ^ u.width = u.expect.toNat % 2 ^ u.width) :=
  ⟨2, { up with cvus := [(2, { width := 1, expect := 1 })] }, { width := 1, expect := 1 }, by
    (repeat' apply And.intro) <;> first | decide +kernel | rfl | exact fun _ _ => rfl⟩

theorem holds_checkUnitCompares_4 : ∃ (n : Nat) (s : State) (u : Cvu),
    (u = cvuOf s n) ∧
    ((cvuResult u).toNat % 2 ^ u.width ≠ u.expect.toNat % 2 ^ u.width) :=
  ⟨2, { up with cvus := [(2, { width := 1, expect := 0 })] }, { width := 1, expect := 0 }, by
    (repeat' apply And.intro) <;> first | decide +kernel | rfl | exact fun _ _ => rfl⟩

theorem holds_checkUnitFeeds_1 : ∃ (n : Fin 8) (s : State),
    (reachable s = true) ∧
    ((cvuOf s n).queue.length < 16) :=
  ⟨1, up, by
    (repeat' apply And.intro) <;> first | decide +kernel | rfl | exact fun _ _ => rfl⟩

theorem holds_checkUnitFeeds_2 : ∃ (n : Fin 8) (s : State),
    (reachable s = true) ∧
    ((cvuOf s n).queue.length < 16) :=
  ⟨1, up, by
    (repeat' apply And.intro) <;> first | decide +kernel | rfl | exact fun _ _ => rfl⟩

theorem holds_checkUnitFeeds_3 : ∃ (n : Fin 8) (v : Word) (s : State),
    (reachable s = true) ∧
    ((cvuOf s n).queue.length < 16) :=
  ⟨1, 7, up, by
    (repeat' apply And.intro) <;> first | decide +kernel | rfl | exact fun _ _ => rfl⟩

theorem holds_checkUnitFeeds_4 : ∃ (n : Fin 8) (v : Word) (s : State),
    (reachable s = true) ∧
    ((cvuOf s n).queue.length < 16) :=
  ⟨1, 7, up, by
    (repeat' apply And.intro) <;> first | decide +kernel | rfl | exact fun _ _ => rfl⟩

theorem holds_checkUnitFeeds_5 : ∃ (n : Fin 8) (v : Word) (s : State),
    (reachable s = true) ∧
    ((cvuOf s n).queue.length < 16) :=
  ⟨1, 7, up, by
    (repeat' apply And.intro) <;> first | decide +kernel | rfl | exact fun _ _ => rfl⟩

theorem holds_checkUnitFeeds_6 : ∃ (n : Fin 8) (v : Word) (s : State),
    (reachable s = true) ∧
    ((cvuOf s n).queue.length < 16) :=
  ⟨1, 7, up, by
    (repeat' apply And.intro) <;> first | decide +kernel | rfl | exact fun _ _ => rfl⟩

theorem holds_checkUnitFeeds_7 : ∃ (n : Fin 8) (b : Bool) (v : Word) (s : State),
    (reachable s = true) ∧
    (16 ≤ (cvuOf s n).queue.length) :=
  ⟨2, true, 7, cvuFull, by
    (repeat' apply And.intro) <;> first | decide +kernel | rfl | exact fun _ _ => rfl⟩

theorem holds_checkUnitFeeds_9 : ∃ (n : Nat) (s : State) (w : CvuWrite) (ws : List CvuWrite),
    ((cvuOf s n).queue = w :: ws) ∧
    (36 < cvuCost (cvuOf s n) w - (cvuOf s n).spent) :=
  ⟨2, { up with cvus := [(2, { queue := [{ off := 0x1C, value := 7 }] })] }, { off := 0x1C, value := 7 }, [], by
    (repeat' apply And.intro) <;> first | decide +kernel | rfl | exact fun _ _ => rfl⟩

theorem holds_checkUnitFeeds_10 : ∃ (n : Nat) (s : State) (w : CvuWrite) (ws : List CvuWrite),
    ((cvuOf s n).queue = w :: ws) ∧
    (cvuCost (cvuOf s n) w - (cvuOf s n).spent ≤ 36) :=
  ⟨2, { up with cvus := [(2, { queue := [{ off := 0x14, value := 7 }] })] }, { off := 0x14, value := 7 }, [], by
    (repeat' apply And.intro) <;> first | decide +kernel | rfl | exact fun _ _ => rfl⟩

theorem holds_checkUnitFeeds_11 : ∃ (n : Nat) (s : State) (u : Cvu),
    (u = cvuOf s n) :=
  ⟨1, up, {}, by
    (repeat' apply And.intro) <;> first | decide +kernel | rfl | exact fun _ _ => rfl⟩

theorem holds_checkUnitFeeds_12 : ∃ (n : Nat) (v : Word) (s : State) (u : Cvu),
    (u = cvuOf s n) :=
  ⟨1, 7, up, {}, by
    (repeat' apply And.intro) <;> first | decide +kernel | rfl | exact fun _ _ => rfl⟩

theorem holds_checkUnitFeeds_13 : ∃ (n : Nat) (v : Word) (s : State) (u : Cvu),
    (u = cvuOf s n) :=
  ⟨1, 7, up, {}, by
    (repeat' apply And.intro) <;> first | decide +kernel | rfl | exact fun _ _ => rfl⟩

theorem holds_checkUnitFeeds_14 : ∃ (n : Nat) (v : Word) (s : State) (u : Cvu),
    (u = cvuOf s n) :=
  ⟨1, 7, up, {}, by
    (repeat' apply And.intro) <;> first | decide +kernel | rfl | exact fun _ _ => rfl⟩

theorem holds_checkUnitFeeds_15 : ∃ (n : Nat) (v : Word) (s : State) (u x : Cvu),
    (u = cvuOf s n) ∧
    (1 ≤ field v 0 6) ∧
    (field v 0 6 ≤ 32) ∧
    (field v 10 3 ≤ 4) ∧
    (x = { u with width := field v 0 6, refin := bit v 8, refout := bit v 9, prefixWords := field v 10 3, irqEn := bit v 13 }) :=
  ⟨1, 32, up, cvuOf up 1, { cvuOf up 1 with width := field 32 0 6, refin := bit 32 8, refout := bit 32 9, prefixWords := field 32 10 3, irqEn := bit 32 13 }, by
    (repeat' apply And.intro) <;> first | decide +kernel | rfl | exact fun _ _ => rfl⟩

theorem holds_checkUnitFeeds_16 : ∃ (n : Nat) (v : Word) (s : State) (u : Cvu),
    (u = cvuOf s n) ∧
    ((field v 0 6 = 0 ∨ 32 < field v 0 6 ∨ 4 < field v 10 3)) :=
  ⟨1, 33, up, {}, by
    (repeat' apply And.intro) <;> first | decide +kernel | rfl | exact fun _ _ => rfl⟩

theorem holds_recorderFlash_1 : ∃ (s : State) (c : Nat),
    (s.power.on = true) ∧
    (s.log.inFlight = none) ∧
    (s.log.erasing = none) ∧
    (s.log.pf = false) ∧
    (s.log.scanDone = true) ∧
    (4096 ≤ fill s) ∧
    (target s.log = some c) ∧
    (c ≠ 895) :=
  ⟨fullLog, 0, by
    (repeat' apply And.intro) <;> first | decide +kernel | rfl | exact fun _ _ => rfl⟩

theorem holds_recorderFlash_2 : ∃ (s : State) (r : Record) (u : State),
    (s.power.on = true) ∧
    (s.log.inFlight = none) ∧
    (s.log.erasing = none) ∧
    (s.log.pf = false) ∧
    (s.log.scanDone = true) ∧
    (4096 ≤ fill s) ∧
    (target s.log = some 895) ∧
    ((r, u) = heelDone (pack 4060 s.log.buf) s) :=
  ⟨heelFull, (heelDone (pack 4060 heelFull.log.buf) heelFull).1, (heelDone (pack 4060 heelFull.log.buf) heelFull).2, by
    (repeat' apply And.intro) <;> first | decide +kernel | rfl | exact fun _ _ => rfl⟩

theorem holds_recorderFlash_3 : ∃ (s : State),
    (s.power.on = true) ∧
    (s.log.inFlight = none) ∧
    (s.log.erasing = none) ∧
    (s.log.pf = false) ∧
    (s.log.scanDone = true) ∧
    (4096 ≤ fill s) ∧
    (target s.log = none) ∧
    (s.log.mediaFail = false) ∧
    (s.log.tailActive = false) :=
  ⟨toeStuck, by
    (repeat' apply And.intro) <;> first | decide +kernel | rfl | exact fun _ _ => rfl⟩

theorem holds_recorderFlash_4 : ∃ (s : State),
    (s.power.on = true) ∧
    ((s.log.inFlight.isSome = true ∨ s.log.erasing.isSome = true ∨ s.log.pf = true ∨ s.log.scanDone = false ∨ fill s < 4096)) :=
  ⟨up, by
    (repeat' apply And.intro) <;> first | decide +kernel | rfl | exact fun _ _ => rfl⟩

theorem holds_recorderFlash_5a : ∃ (ok : Bool) (s : State) (c : Nat) (rs : List Record) (t u : State),
    (s.power.on = true) ∧
    (s.log.inFlight = some (c, rs)) ∧
    (u = { s with log := { s.log with inFlight := none } }) ∧
    (t = (if ok then chunkWritten c s.log.flightVersion rs false u else chunkFailed c s.log.flightVersion rs u)) :=
  ⟨true, writingLog, 0, [], chunkWritten 0 writingLog.log.flightVersion [] false { writingLog with log := { writingLog.log with inFlight := none } }, { writingLog with log := { writingLog.log with inFlight := none } }, by
    (repeat' apply And.intro) <;> first | decide +kernel | rfl | exact fun _ _ => rfl⟩

theorem holds_recorderFlash_5b : ∃ (ok : Bool) (s : State) (c : Nat) (rs : List Record) (t u : State),
    (s.power.on = true) ∧
    (s.log.inFlight = some (c, rs)) ∧
    (u = { s with log := { s.log with inFlight := none } }) ∧
    (t = (if ok then chunkWritten c s.log.flightVersion rs false u else chunkFailed c s.log.flightVersion rs u)) :=
  ⟨false, writingLog, 0, [], chunkFailed 0 writingLog.log.flightVersion [] { writingLog with log := { writingLog.log with inFlight := none } }, { writingLog with log := { writingLog.log with inFlight := none } }, by
    (repeat' apply And.intro) <;> first | decide +kernel | rfl | exact fun _ _ => rfl⟩

theorem holds_recorderFlash_6 : ∃ (ok : Bool) (s : State),
    (s.power.on = true) ∧
    (s.log.inFlight = none) :=
  ⟨true, up, by
    (repeat' apply And.intro) <;> first | decide +kernel | rfl | exact fun _ _ => rfl⟩

theorem holds_recorderFlash_7 : ∃ (s t : State) (c v : Nat) (rs : List Record),
    (c < 1024 ∨ s.log.failsInRow < 2) ∧
    (c ≤ 895 ∨ 1024 ≤ c) ∧
    (t = chunkFailed c v rs s) :=
  ⟨up, chunkFailed 0 0 [] up, 0, 0, [], by
    (repeat' apply And.intro) <;> first | decide +kernel | rfl | exact fun _ _ => rfl⟩

theorem holds_recorderFlash_8 : ∃ (s t : State) (c v : Nat) (rs : List Record),
    (c ≤ 895 ∨ 1024 ≤ c) ∧
    (t = chunkWritten c v rs false s) :=
  ⟨up, chunkWritten 0 0 [] false up, 0, 0, [], by
    (repeat' apply And.intro) <;> first | decide +kernel | rfl | exact fun _ _ => rfl⟩

theorem holds_recorderFlash_9 : ∃ (s : State) (k : Nat),
    (s.power.on = true) ∧
    (s.log.erasing = some k) :=
  ⟨{ up with log := { up.log with erasing := some 70 } }, 70, by
    (repeat' apply And.intro) <;> first | decide +kernel | rfl | exact fun _ _ => rfl⟩

theorem holds_recorderFlash_10 : ∃ (s : State) (k : Nat) (t : State),
    (s.power.on = true) ∧
    (s.log.erasing = some k) ∧
    (t = raise 0xA007 2 [word k, 0] { s with
        log := { s.log with erasing := none, halfErased := s.log.halfErased.filter (· ≠ k), retired := s.log.retired ++ [k], retiredNow := s.log.retiredNow + 1,
                            toeNext := if s.log.toeNext / 16 = k then 16 * nextToe (s.log.retired ++ [k]) 448 k else s.log.toeNext } }) :=
  ⟨{ up with log := { up.log with erasing := some 70 } }, 70, raise 0xA007 2 [word 70, 0] { up with log := { up.log with retired := [70], retiredNow := 1 } }, by
    (repeat' apply And.intro) <;> first | decide +kernel | rfl | exact fun _ _ => rfl⟩

theorem holds_recorderFlash_11 : ∃ (ok : Bool) (s : State),
    (s.power.on = true) ∧
    (s.log.erasing = none) :=
  ⟨true, up, by
    (repeat' apply And.intro) <;> first | decide +kernel | rfl | exact fun _ _ => rfl⟩

theorem holds_recorderFlash_12 : ∃ (s : State) (q : Word),
    (s.power.on = true) ∧
    (s.log.frozen = some q) ∧
    (ticksS s.log.freezeSecs ≤ since s.log.freezeStart s) :=
  ⟨{ up with clk := 60000000000, log := { up.log with frozen := some 4, freezeSecs := 30 } }, 4, by
    (repeat' apply And.intro) <;> first | decide +kernel | rfl | exact fun _ _ => rfl⟩

theorem holds_recorderFlash_13 : ∃ (bad : List (Fin 512 × Fin 16)) (s : State) (l : List (Nat × Nat)) (t u : State),
    (s.power.on = true) ∧
    (s.log.scanDone = false) ∧
    (l = bad.map (fun p => (p.1.val, p.2.val))) ∧
    (t = renumber (newestFlash s.log) (forAll l badChunk s)) ∧
    (u = raiseTogether ((l.filter (fun p => (tget none s.log.flash (16 * p.1 + p.2)).isSome)).map
        (fun p => ⟨0xA008, 2, [word p.1, word p.2]⟩)) t) :=
  ⟨[], State.reset, [], renumber 0 State.reset, renumber 0 State.reset, by
    (repeat' apply And.intro) <;> first | decide +kernel | rfl | exact fun _ _ => rfl⟩

theorem holds_recorderFlash_14 : ∃ (bad : List (Fin 512 × Fin 16)) (s : State),
    (s.power.on = true) ∧
    (s.log.scanDone = true) :=
  ⟨[], scannedLog, by
    (repeat' apply And.intro) <;> first | decide +kernel | rfl | exact fun _ _ => rfl⟩

theorem holds_recorderFlash_15 : ∃ (s : State),
    (s.power.on = true) ∧
    (s.log.total ≠ 0) ∧
    (s.log.pf = false) ∧
    (fill s + lossLen s.log.counts.length ≤ 229376) :=
  ⟨{ up with log := { up.log with total := 1 } }, by
    (repeat' apply And.intro) <;> first | decide +kernel | rfl | exact fun _ _ => rfl⟩

theorem holds_recorderFlash_16 : ∃ (s : State),
    (s.power.on = true) ∧
    ((s.log.total = 0 ∨ s.log.pf = true ∨ 229376 < fill s + lossLen s.log.counts.length)) :=
  ⟨up, by
    (repeat' apply And.intro) <;> first | decide +kernel | rfl | exact fun _ _ => rfl⟩

theorem holds_recorderFlash_17 : ∃ (s : State),
    (reachable s = true) :=
  ⟨up, by
    (repeat' apply And.intro) <;> first | decide +kernel | rfl | exact fun _ _ => rfl⟩

theorem holds_recorderFlash_18 : ∃ (s : State),
    (reachable s = true) :=
  ⟨up, by
    (repeat' apply And.intro) <;> first | decide +kernel | rfl | exact fun _ _ => rfl⟩

theorem holds_servicePort_1 : ∃ (token : List Byte) (peer : DWord) (s : State),
    (serving s = true) ∧
    (s.fw.session = none) :=
  ⟨[], 0, up, by
    (repeat' apply And.intro) <;> first | decide +kernel | rfl | exact fun _ _ => rfl⟩

theorem holds_servicePort_2 : ∃ (token : List Byte) (peer : DWord) (s : State),
    (serving s = true) ∧
    (s.fw.session.isSome = true) :=
  ⟨[], 0, serviced, by
    (repeat' apply And.intro) <;> first | decide +kernel | rfl | exact fun _ _ => rfl⟩

theorem holds_servicePort_3 : ∃ (token : List Byte) (peer : DWord) (s : State),
    (serving s = false) :=
  ⟨[], 0, deadUp, by
    (repeat' apply And.intro) <;> first | decide +kernel | rfl | exact fun _ _ => rfl⟩

theorem holds_servicePort_5 : ∃ (token : List Byte) (s : State),
    ((token.length ≠ 3341 ∨ leNat (slice 0 4 token) ≠ 0x544B4E31 ∨ leNat (slice 4 8 token) ≠ s.glb.serial.toNat)) :=
  ⟨[], up, by
    (repeat' apply And.intro) <;> first | decide +kernel | rfl | exact fun _ _ => rfl⟩

theorem holds_servicePort_6 : ∃ (token : List Byte) (s : State) (nb na : Nat),
    (token.length = 3341) ∧
    (leNat (slice 0 4 token) = 0x544B4E31) ∧
    (leNat (slice 4 8 token) = s.glb.serial.toNat) ∧
    (nb = leNat (slice 12 4 token)) ∧
    (na = leNat (slice 16 4 token)) :=
  ⟨tokenOf, up, 0, 0, by
    (repeat' apply And.intro) <;> first | decide +kernel | rfl | exact fun _ _ => rfl⟩

theorem holds_servicePort_7 : ∃ (words : List Word) (env : Env) (s : State) (x : Session) (op b : Nat) (t : State) (r : Req),
    (serving s = true) ∧
    (s.fw.session = some x) ∧
    (op = field (nth 0 words 0) 0 16) ∧
    (rightFor op = some b) ∧
    (bit x.rights b = true) ∧
    (reqLength r ≤ words.length) ∧
    (t = svcSeen { s with fw := { s.fw with session := some { x with lastMsg := s.clk } } }) ∧
    (r = requestOf .service (nth 0 words 0) (nth 0 words 1) (nth 0 words) env) :=
  ⟨[0x0101, 0], ⟨[], true⟩, serviced, sess, 0x0101, 0, svcSeen serviced, requestOf .service 0x0101 0 (nth 0 [0x0101, 0]) ⟨[], true⟩, by
    (repeat' apply And.intro) <;> first | decide +kernel | rfl | exact fun _ _ => rfl⟩

theorem holds_servicePort_8 : ∃ (words : List Word) (env : Env) (s : State) (x : Session) (op b : Nat) (t : State) (r : Req),
    (serving s = true) ∧
    (s.fw.session = some x) ∧
    (op = field (nth 0 words 0) 0 16) ∧
    (rightFor op = some b) ∧
    (bit x.rights b = true) ∧
    (words.length < reqLength r) ∧
    (t = svcSeen { s with fw := { s.fw with session := some { x with lastMsg := s.clk } } }) ∧
    (r = requestOf .service (nth 0 words 0) (nth 0 words 1) (nth 0 words) env) :=
  ⟨[0x00200101], ⟨[], true⟩, serviced, sess, 0x0101, 0, svcSeen serviced, requestOf .service 0x00200101 0 (nth 0 [0x00200101]) ⟨[], true⟩, by
    (repeat' apply And.intro) <;> first | decide +kernel | rfl | exact fun _ _ => rfl⟩

theorem holds_servicePort_9 : ∃ (words : List Word) (env : Env) (s : State) (x : Session) (op b : Nat) (t : State) (r : Req),
    (serving s = true) ∧
    (s.fw.session = some x) ∧
    (op = field (nth 0 words 0) 0 16) ∧
    (rightFor op = some b) ∧
    (bit x.rights b = false) ∧
    (t = svcSeen { s with fw := { s.fw with session := some { x with lastMsg := s.clk } } }) ∧
    (r = requestOf .service (nth 0 words 0) (nth 0 words 1) (nth 0 words) env) :=
  ⟨[0x0B01], ⟨[], true⟩, serviced, sess, 0x0B01, 1, svcSeen serviced, requestOf .service 0x0B01 0 (nth 0 [0x0B01]) ⟨[], true⟩, by
    (repeat' apply And.intro) <;> first | decide +kernel | rfl | exact fun _ _ => rfl⟩

theorem holds_servicePort_10 : ∃ (words : List Word) (env : Env) (s : State) (x : Session) (op : Nat) (t : State) (r : Req),
    (serving s = true) ∧
    (s.fw.session = some x) ∧
    (op = field (nth 0 words 0) 0 16) ∧
    (rightFor op = none) ∧
    (t = svcSeen { s with fw := { s.fw with session := some { x with lastMsg := s.clk } } }) ∧
    (r = requestOf .service (nth 0 words 0) (nth 0 words 1) (nth 0 words) env) :=
  ⟨[0x0201], ⟨[], true⟩, serviced, sess, 0x0201, svcSeen serviced, requestOf .service 0x0201 0 (nth 0 [0x0201]) ⟨[], true⟩, by
    (repeat' apply And.intro) <;> first | decide +kernel | rfl | exact fun _ _ => rfl⟩

theorem holds_servicePort_11 : ∃ (words : List Word) (env : Env) (s : State),
    ((serving s = false ∨ s.fw.session = none)) :=
  ⟨[], ⟨[], true⟩, up, by
    (repeat' apply And.intro) <;> first | decide +kernel | rfl | exact fun _ _ => rfl⟩

theorem holds_servicePort_12 : ∃ (s : State) (x : Session),
    (Alive s) ∧
    (s.fw.session = some x) ∧
    (ticksS 300 ≤ since x.lastMsg s) :=
  ⟨{ serviced with clk := 150000000000 }, sess, by
    (repeat' apply And.intro) <;> first | decide +kernel | rfl | exact fun _ _ => rfl⟩

theorem holds_servicePort_13 : ∃ (s : State) (x : Session),
    (Alive s) ∧
    (s.fw.session = some x) ∧
    (since x.lastMsg s < ticksS 300) :=
  ⟨serviced, sess, by
    (repeat' apply And.intro) <;> first | decide +kernel | rfl | exact fun _ _ => rfl⟩

theorem holds_servicePort_14 : ∃ (s : State),
    (Alive s) :=
  ⟨serviced, by
    (repeat' apply And.intro) <;> first | decide +kernel | rfl | exact fun _ _ => rfl⟩

theorem holds_servicePort_15 : ∃ (cause : Nat) (s : State) (x : Session),
    (s.fw.session = some x) :=
  ⟨2, serviced, sess, by
    (repeat' apply And.intro) <;> first | decide +kernel | rfl | exact fun _ _ => rfl⟩

theorem holds_servicePort_16 : ∃ (s : State) (n : List Byte) (k : Nat),
    (Alive s) ∧
    (s.fw.nonce = some (n, k)) :=
  ⟨{ up with clk := 30000000000, fw := { nonce := some ([], 0) } }, [], 0, by
    (repeat' apply And.intro) <;> first | decide +kernel | rfl | exact fun _ _ => rfl⟩

theorem holds_mirrorCommands_1 : ∃ (s : State) (i : Nat),
    (Sends s) ∧
    (s.resil.draining = some i) :=
  ⟨{ up with resil := { draining := some 3 } }, 3, by
    (repeat' apply And.intro) <;> first | decide +kernel | rfl | exact fun _ _ => rfl⟩

theorem holds_mirrorCommands_2 : ∃ (s : State),
    (Sends s) ∧
    (s.resil.draining = none) :=
  ⟨up, by
    (repeat' apply And.intro) <;> first | decide +kernel | rfl | exact fun _ _ => rfl⟩

theorem holds_mirrorCommands_3 : ∃ (s : State) (i : Nat),
    ((schedOf s i).st = .firing) :=
  ⟨{ up with sched := { entries := [(3, { st := .firing })] } }, 3, by
    (repeat' apply And.intro) <;> first | decide +kernel | rfl | exact fun _ _ => rfl⟩

theorem holds_mirrorCommands_4 : ∃ (header : List Byte) (s : State) (c : Copy) (h : List Byte) (t u : State),
    (Sends s) ∧
    (s.resil.copy = some c) ∧
    (c.started = false) ∧
    (c.header = some h) ∧
    (halfFree h = true) ∧
    (t = { s with resil := { s.resil with copy := some { c with started := true, staged := [] } } }) ∧
    (u = forAll (s.resil.image.filter (fun r => c.fullRegions.contains (r.job, r.region)))
        (fun r => putTable r.slot (tableEntry { r with since := some c.index }) 2) t) :=
  ⟨[], copyingH, page5H, List.replicate 64 0, { up with resil := { copy := some { page5H with started := true } } }, { up with resil := { copy := some { page5H with started := true } } }, by
    (repeat' apply And.intro) <;> first | decide +kernel | rfl | exact fun _ _ => rfl⟩

theorem holds_mirrorCommands_5 : ∃ (header : List Byte) (s : State) (c : Copy) (h : List Byte),
    (Sends s) ∧
    (s.resil.copy = some c) ∧
    (c.started = false) ∧
    (c.header = some h) ∧
    (halfFree h = false) :=
  ⟨[], copyingB, { page5 with header := some (List.replicate 24 0 ++ [1] ++ List.replicate 39 0) }, List.replicate 24 0 ++ [1] ++ List.replicate 39 0, by
    (repeat' apply And.intro) <;> first | decide +kernel | rfl | exact fun _ _ => rfl⟩

theorem holds_mirrorCommands_6 : ∃ (header : List Byte) (s : State),
    (Sends s) ∧
    ((s.resil.copy = none ∨ ∃ c, s.resil.copy = some c ∧ (c.started = true ∨ c.header = none))) :=
  ⟨[], up, by
    (repeat' apply And.intro) <;> first | decide +kernel | rfl | exact fun _ _ => rfl⟩

theorem holds_mirrorCommands_7 : ∃ (flaws : List Flaw) (s t : State) (c : Copy) (k : Nat),
    (Sends s) ∧
    (t = inject flaws s) ∧
    (t.resil.copy = some c) ∧
    ((c.started = false ∨ c.staged = [])) ∧
    (nextPage c t = some k) ∧
    (stagedBytes t + 65536 ≤ 2 ^ 24) ∧
    (1024 ≤ mirrorLines (frontOf (k / 2 ^ 22) t) t) ∧
    ((chanOf t (k / 2 ^ 22)).inService = false) :=
  ⟨[], pageless, pageless, { page5 with todo := [5] }, 5, by
    (repeat' apply And.intro) <;> first | decide +kernel | rfl | exact fun _ _ => rfl⟩

theorem holds_mirrorCommands_8 : ∃ (flaws : List Flaw) (s t : State) (c : Copy) (k : Nat) (u : State),
    (Sends s) ∧
    (t = inject flaws s) ∧
    (t.resil.copy = some c) ∧
    ((c.started = false ∨ c.staged = [])) ∧
    (nextPage c t = some k) ∧
    (stagedBytes t + 65536 ≤ 2 ^ 24) ∧
    (1024 ≤ mirrorLines (frontOf (k / 2 ^ 22) t) t) ∧
    ((chanOf t (k / 2 ^ 22)).inService = true) ∧
    (u = piecesTouch readerMirror (pagePieces k) (chargePieces atMirror 2 (pagePieces k) t)) ∧
    (piecesUe (pagePieces k) t = true) :=
  ⟨[], pagedBad, pagedBad, { page5 with todo := [5] }, 5, piecesTouch readerMirror (pagePieces 5) (chargePieces atMirror 2 (pagePieces 5) pagedBad), by
    (repeat' apply And.intro) <;> first | decide +kernel | rfl | exact fun _ _ => rfl⟩

theorem holds_mirrorCommands_9a : ∃ (flaws : List Flaw) (s t : State) (c : Copy) (k : Nat) (u v : State),
    (Sends s) ∧
    (t = inject flaws s) ∧
    (t.resil.copy = some c) ∧
    ((c.started = false ∨ c.staged = [])) ∧
    (nextPage c t = some k) ∧
    (stagedBytes t + 65536 ≤ 2 ^ 24) ∧
    (1024 ≤ mirrorLines (frontOf (k / 2 ^ 22) t) t) ∧
    ((chanOf t (k / 2 ^ 22)).inService = true) ∧
    (piecesUe (pagePieces k) t = false) ∧
    (u = piecesTouch readerMirror (pagePieces k) (chargePieces atMirror 2 (pagePieces k) t)) ∧
    (v = (if c.started then sendPage k (piecesBytes (pagePieces k) t) { u with resil := { u.resil with copy := some { c with todo := c.todo.filter (· ≠ k) } } }
        else { u with resil := { u.resil with
          copy := some { c with todo := c.todo.filter (· ≠ k), staged := c.staged ++ [(k, piecesBytes (pagePieces k) t)] } } })) :=
  ⟨[], paged, paged, { page5 with todo := [5] }, 5, piecesTouch readerMirror (pagePieces 5) (chargePieces atMirror 2 (pagePieces 5) paged), (let u := piecesTouch readerMirror (pagePieces 5) (chargePieces atMirror 2 (pagePieces 5) paged)
        { u with resil := { u.resil with copy := some { page5 with todo := [], staged := [(5, piecesBytes (pagePieces 5) paged)] } } }), by
    (repeat' apply And.intro) <;> first | decide +kernel | rfl | exact fun _ _ => rfl⟩

theorem holds_mirrorCommands_9b : ∃ (flaws : List Flaw) (s t : State) (c : Copy) (k : Nat) (u v : State),
    (Sends s) ∧
    (t = inject flaws s) ∧
    (t.resil.copy = some c) ∧
    ((c.started = false ∨ c.staged = [])) ∧
    (nextPage c t = some k) ∧
    (stagedBytes t + 65536 ≤ 2 ^ 24) ∧
    (1024 ≤ mirrorLines (frontOf (k / 2 ^ 22) t) t) ∧
    ((chanOf t (k / 2 ^ 22)).inService = true) ∧
    (piecesUe (pagePieces k) t = false) ∧
    (u = piecesTouch readerMirror (pagePieces k) (chargePieces atMirror 2 (pagePieces k) t)) ∧
    (v = (if c.started then sendPage k (piecesBytes (pagePieces k) t) { u with resil := { u.resil with copy := some { c with todo := c.todo.filter (· ≠ k) } } }
        else { u with resil := { u.resil with
          copy := some { c with todo := c.todo.filter (· ≠ k), staged := c.staged ++ [(k, piecesBytes (pagePieces k) t)] } } })) :=
  ⟨[], pagedOn, pagedOn, { page5 with todo := [5], started := true }, 5, piecesTouch readerMirror (pagePieces 5) (chargePieces atMirror 2 (pagePieces 5) pagedOn), (let u := piecesTouch readerMirror (pagePieces 5) (chargePieces atMirror 2 (pagePieces 5) pagedOn)
        sendPage 5 (piecesBytes (pagePieces 5) pagedOn) { u with resil := { u.resil with copy := some { page5 with todo := [], started := true } } }), by
    (repeat' apply And.intro) <;> first | decide +kernel | rfl | exact fun _ _ => rfl⟩

theorem holds_mirrorCommands_10 : ∃ (flaws : List Flaw) (s t : State) (c : Copy) (k : Nat),
    (Sends s) ∧
    (t = inject flaws s) ∧
    (t.resil.copy = some c) ∧
    ((c.started = false ∨ c.staged = [])) ∧
    (nextPage c t = some k) ∧
    ((2 ^ 24 < stagedBytes t + 65536 ∨ mirrorLines (frontOf (k / 2 ^ 22) t) t < 1024)) :=
  ⟨[], pagedFull, pagedFull, { page5 with todo := [5], staged := List.replicate 256 (1, []) }, 5, by
    (repeat' apply And.intro) <;> first | decide +kernel | rfl | exact fun _ _ => rfl⟩

theorem holds_mirrorCommands_11 : ∃ (flaws : List Flaw) (s t : State),
    (Sends s) ∧
    (t = inject flaws s) ∧
    ((t.resil.copy = none ∨ ∃ c, t.resil.copy = some c ∧ (c.started = false ∨ c.staged = []) ∧ nextPage c t = none)) :=
  ⟨[], up, up, by
    (repeat' apply And.intro) <;> first | decide +kernel | rfl | exact fun _ _ => rfl⟩

theorem holds_mirrorCommands_12 : ∃ (flaws : List Flaw) (s t : State) (c : Copy) (k : Nat) (bs : List Byte) (l : List (Nat × List Byte)),
    (Sends s) ∧
    (t = inject flaws s) ∧
    (t.resil.copy = some c) ∧
    (c.started = true) ∧
    (c.staged = (k, bs) :: l) :=
  ⟨[], stagedOn, stagedOn, { page5 with started := true, staged := [(5, [])] }, 5, [], [], by
    (repeat' apply And.intro) <;> first | decide +kernel | rfl | exact fun _ _ => rfl⟩

theorem holds_mirrorCommands_13 : ∃ (s : State) (c : Copy),
    (Alive s) ∧
    (s.resil.copy = some c) ∧
    (c.started = true) ∧
    (c.sealing = false) ∧
    (c.todo = []) ∧
    (c.staged = []) ∧
    (s.stitch.waitList.any (fun w => w.purpose = 2) = false) ∧
    (s.stitch.table.any (fun p => p.2.purpose = 2 && incomplete p.2) = false) :=
  ⟨{ up with resil := { copy := some { page5 with started := true } } }, { page5 with started := true }, by
    (repeat' apply And.intro) <;> first | decide +kernel | rfl | exact fun _ _ => rfl⟩

theorem holds_mirrorCommands_14 : ∃ (s : State),
    (Alive s) ∧
    ((s.resil.copy = none ∨ ∃ c, s.resil.copy = some c ∧ (c.started = false ∨ c.sealing = true ∨ c.todo ≠ [] ∨ c.staged ≠ []))) :=
  ⟨up, by
    (repeat' apply And.intro) <;> first | decide +kernel | rfl | exact fun _ _ => rfl⟩

theorem holds_mirrorCommands_15 : ∃ (k : Fin 4) (s : State) (x : Store) (t : State),
    (Fed s) ∧
    (tget none s.resil.stores k = some x) ∧
    (x.sealAt.isSome = true) ∧
    (t = { s with resil := { s.resil with stores := tset none s.resil.stores k (some { x with sealAt := none }) } }) :=
  ⟨0, sealedStore, { source := 9, base := 0, view := 1, image := 65536, journal := 1024, sealAt := some 5 }, { sealedStore with resil := { stores := [(0, some { source := 9, base := 0, view := 1, image := 65536, journal := 1024 })] } }, by
    (repeat' apply And.intro) <;> first | decide +kernel | rfl | exact fun _ _ => rfl⟩

theorem holds_mirrorCommands_16 : ∃ (k : Fin 4) (s : State),
    (Fed s) ∧
    ((tget none s.resil.stores k = none ∨ ∃ x, tget none s.resil.stores k = some x ∧ x.sealAt = none)) :=
  ⟨0, up, by
    (repeat' apply And.intro) <;> first | decide +kernel | rfl | exact fun _ _ => rfl⟩

theorem holds_mirrorCommands_17 : ∃ (x : Store) (s t : State) (new old : Word) (half : Nat),
    (new = hdrGet x 5 s) ∧
    (old = hdrGet x 6 s) ∧
    (half = field (hdrGet x 7 s) 0 1) ∧
    (t = storeRead x 0 64 s) :=
  ⟨{ source := 9, base := 0, view := 1, image := 65536, journal := 1024 }, sealedStore, okOr (.ok (storeRead { source := 9, base := 0, view := 1, image := 65536, journal := 1024 } 0 64 sealedStore) : Except Nat State) up, 0, 0xFFFFFFFF, 0, by
    (repeat' apply And.intro) <;> first | decide +kernel | rfl | exact fun _ _ => rfl⟩

theorem holds_heartbeatCommands_1 : ∃ (s t : State),
    (Sends s) ∧
    (serving s = true) ∧
    (s.resil.peers ≠ []) ∧
    (t = { s with resil := { s.resil with hbSeq := s.resil.hbSeq + 1 } }) :=
  ⟨peered, { peered with resil := { peered.resil with hbSeq := 1 } }, by
    (repeat' apply And.intro) <;> first | decide +kernel | rfl | exact fun _ _ => rfl⟩

theorem holds_heartbeatCommands_2 : ∃ (s : State),
    (Sends s) ∧
    ((serving s = false ∨ s.resil.peers = [])) :=
  ⟨up, by
    (repeat' apply And.intro) <;> first | decide +kernel | rfl | exact fun _ _ => rfl⟩

theorem holds_heartbeatCommands_3 : ∃ (hb : Vector Word 8) (s : State) (m : Nat),
    (serving s = true) ∧
    (s.glb.state ≠ .halted) ∧
    (m = field (nth 0 hb.toList 0) 0 16) ∧
    (field (nth 0 hb.toList 0) 16 4 ≠ 7) ∧
    (s.resil.peers.any (fun p => p.id = m && p.lost) = true) :=
  ⟨#v[9, 0, 0, 0, 0, 0, 0, 0], { peered with resil := { peers := [{ id := 9, lost := true, lastAt := 0 }] } }, 9, by
    (repeat' apply And.intro) <;> first | decide +kernel | rfl | exact fun _ _ => rfl⟩

theorem holds_heartbeatCommands_4 : ∃ (hb : Vector Word 8) (s : State) (m : Nat),
    (serving s = true) ∧
    (s.glb.state ≠ .halted) ∧
    (m = field (nth 0 hb.toList 0) 0 16) ∧
    ((field (nth 0 hb.toList 0) 16 4 = 7 ∨ s.resil.peers.any (fun p => p.id = m && p.lost) = false)) :=
  ⟨#v[9, 0, 0, 0, 0, 0, 0, 0], peered, 9, by
    (repeat' apply And.intro) <;> first | decide +kernel | rfl | exact fun _ _ => rfl⟩

theorem holds_heartbeatCommands_5 : ∃ (hb : Vector Word 8) (s : State) (m : Nat),
    (serving s = true) ∧
    (s.glb.state = .halted) ∧
    (m = field (nth 0 hb.toList 0) 0 16) :=
  ⟨#v[9, 0, 0, 0, 0, 0, 0, 0], windowHalted, 9, by
    (repeat' apply And.intro) <;> first | decide +kernel | rfl | exact fun _ _ => rfl⟩

theorem holds_heartbeatCommands_6 : ∃ (hb : Vector Word 8) (s : State),
    (Alive s) ∧
    (serving s = false) :=
  ⟨#v[9, 0, 0, 0, 0, 0, 0, 0], deadUp, by
    (repeat' apply And.intro) <;> first | decide +kernel | rfl | exact fun _ _ => rfl⟩

theorem holds_heartbeatCommands_7a : ∃ (i : Fin 64) (s : State) (p : Peer) (silent : Bool) (t : State),
    (serving s = true) ∧
    (s.resil.peers[i.val]? = some p) ∧
    (p.lost = false) ∧
    (silent = decide (ticksUs (s.resil.miss * s.resil.hbUs) ≤ since p.lastAt s)) ∧
    ((silent = true ∨ (p.hb ≠ [] ∧ field (nth 0 p.hb 0) 16 4 = 7))) ∧
    (t = raise 0x8010 3 [word p.id, word (if silent then 0 else 1), word (since p.lastAt s / 500000)] { s with
        resil := { s.resil with peers := s.resil.peers.map (fun x => if x.id = p.id then { x with lost := true } else x) } }) :=
  ⟨0, { peered with clk := 100000000 }, { id := 9, lastAt := 0 }, true, raise 0x8010 3 [9, 0, 200] { peered with
        clk := 100000000, resil := { peers := [{ id := 9, lost := true, lastAt := 0 }] } }, by
    (repeat' apply And.intro) <;> first | decide +kernel | rfl | exact fun _ _ => rfl⟩

theorem holds_heartbeatCommands_7b : ∃ (i : Fin 64) (s : State) (p : Peer) (silent : Bool) (t : State),
    (serving s = true) ∧
    (s.resil.peers[i.val]? = some p) ∧
    (p.lost = false) ∧
    (silent = decide (ticksUs (s.resil.miss * s.resil.hbUs) ≤ since p.lastAt s)) ∧
    ((silent = true ∨ (p.hb ≠ [] ∧ field (nth 0 p.hb 0) 16 4 = 7))) ∧
    (t = raise 0x8010 3 [word p.id, word (if silent then 0 else 1), word (since p.lastAt s / 500000)] { s with
        resil := { s.resil with peers := s.resil.peers.map (fun x => if x.id = p.id then { x with lost := true } else x) } }) :=
  ⟨0, peeredHalted, { id := 9, lastAt := 0, hb := [0x70000] }, false, raise 0x8010 3 [9, 1, 0] { peered with
        resil := { peers := [{ id := 9, lost := true, lastAt := 0, hb := [0x70000] }] } }, by
    (repeat' apply And.intro) <;> first | decide +kernel | rfl | exact fun _ _ => rfl⟩

theorem holds_heartbeatCommands_8 : ∃ (i : Fin 64) (s : State),
    (serving s = true) ∧
    ((s.resil.peers[i.val]? = none ∨ ∃ p, s.resil.peers[i.val]? = some p ∧ (p.lost = true ∨ (since p.lastAt s < ticksUs (s.resil.miss * s.resil.hbUs) ∧ (p.hb = [] ∨ field (nth 0 p.hb 0) 16 4 ≠ 7))))) :=
  ⟨0, up, by
    (repeat' apply And.intro) <;> first | decide +kernel | rfl | exact fun _ _ => rfl⟩

theorem holds_sequencerWaits_1 : ∃ (t : Fin 64) (s : State) (st : BitVec 256) (target : Word) (x : Tile),
    (Fed s) ∧
    (toIssue 4 t s = some st) ∧
    (target = stepWord st 3 + BitVec.ofInt 32 (nextStep (tileOf s t) st 0)) ∧
    ((tget 0 (tileOf s t).tallies (sf st 2 0 6) - target).toNat < 2 ^ 31) ∧
    (sb st 2 6 = true) ∧
    (x = { tileOf s t with tallies := tset 0 (tileOf s t).tallies (sf st 2 0 6) (tget 0 (tileOf s t).tallies (sf st 2 0 6) - target) }) :=
  ⟨3, stepped 4 64 0 0, 4 + 2 ^ 64 * 64, 0, tileOf (stepped 4 64 0 0) 3, by
    (repeat' apply And.intro) <;> first | decide +kernel | rfl | exact fun _ _ => rfl⟩

theorem holds_sequencerWaits_2 : ∃ (t : Fin 64) (s : State) (st : BitVec 256) (target : Word),
    (Fed s) ∧
    (toIssue 4 t s = some st) ∧
    (target = stepWord st 3 + BitVec.ofInt 32 (nextStep (tileOf s t) st 0)) ∧
    ((tget 0 (tileOf s t).tallies (sf st 2 0 6) - target).toNat < 2 ^ 31) ∧
    (sb st 2 6 = false) :=
  ⟨3, stepped 4 0 0 0, 4, 0, by
    (repeat' apply And.intro) <;> first | decide +kernel | rfl | exact fun _ _ => rfl⟩

theorem holds_sequencerWaits_3 : ∃ (t : Fin 64) (s : State) (st : BitVec 256) (target : Word),
    (Fed s) ∧
    (toIssue 4 t s = some st) ∧
    (target = stepWord st 3 + BitVec.ofInt 32 (nextStep (tileOf s t) st 0)) ∧
    (2 ^ 31 ≤ (tget 0 (tileOf s t).tallies (sf st 2 0 6) - target).toNat) :=
  ⟨3, stepped 4 0 1 0, 4 + 2 ^ 96, 1, by
    (repeat' apply And.intro) <;> first | decide +kernel | rfl | exact fun _ _ => rfl⟩

theorem holds_sequencerWaits_4 : ∃ (t : Fin 64) (s : State) (n : Nat) (v : Word) (c : Bool) (us : Nat) (since0 : BitVec 48),
    (Fed s) ∧
    ((tileOf s t).hold = .wait n v c us since0) ∧
    ((tget 0 (tileOf s t).tallies n - v).toNat < 2 ^ 31) :=
  ⟨3, held3 (.wait 0 0 false 0 0), 0, 0, false, 0, 0, by
    (repeat' apply And.intro) <;> first | decide +kernel | rfl | exact fun _ _ => rfl⟩

theorem holds_sequencerWaits_5 : ∃ (t n : Nat) (v : Word) (c : Bool) (s u : State),
    (u = (if c then setTile t { tileOf s t with tallies := tset 0 (tileOf s t).tallies n (tget 0 (tileOf s t).tallies n - v) } s else s)) :=
  ⟨3, 0, 1, false, up, up, by
    (repeat' apply And.intro) <;> first | decide +kernel | rfl | exact fun _ _ => rfl⟩

theorem holds_sequencerWaits_6 : ∃ (t : Fin 64) (s : State) (n : Nat) (v : Word) (c : Bool) (us : Nat) (since0 : BitVec 48),
    (Fed s) ∧
    ((tileOf s t).hold = .wait n v c us since0) ∧
    (2 ^ 31 ≤ (tget 0 (tileOf s t).tallies n - v).toNat) :=
  ⟨3, held3 (.wait 0 1 false 0 0), 0, 1, false, 0, 0, by
    (repeat' apply And.intro) <;> first | decide +kernel | rfl | exact fun _ _ => rfl⟩

theorem holds_sequencerWaits_7 : ∃ (t : Fin 64) (s : State) (n : Nat) (v : Word) (c : Bool) (us : Nat) (since0 : BitVec 48),
    (Fed s) ∧
    ((tileOf s t).hold = .wait n v c us since0) ∧
    (us ≠ 0) ∧
    ((1000 * us : Nat) ≤ siteDiff (siteNow s) since0) ∧
    (2 ^ 31 ≤ (tget 0 (tileOf s t).tallies n - v).toNat) :=
  ⟨3, { held3 (.wait 0 1 false 1 0) with tmu := { ns := 1000 } }, 0, 1, false, 1, 0, by
    (repeat' apply And.intro) <;> first | decide +kernel | rfl | exact fun _ _ => rfl⟩

theorem holds_sequencerWaits_8 : ∃ (t : Fin 64) (s : State) (n : Nat) (v : Word) (c : Bool) (us : Nat) (since0 : BitVec 48),
    (Fed s) ∧
    ((tileOf s t).hold = .wait n v c us since0) ∧
    ((us = 0 ∨ siteDiff (siteNow s) since0 < (1000 * us : Nat) ∨ (tget 0 (tileOf s t).tallies n - v).toNat < 2 ^ 31)) :=
  ⟨3, held3 (.wait 0 0 false 1 0), 0, 0, false, 1, 0, by
    (repeat' apply And.intro) <;> first | decide +kernel | rfl | exact fun _ _ => rfl⟩

theorem holds_sequencerWaits_9 : ∃ (t : Fin 64) (s : State) (st : BitVec 256) (target : Word) (x : Tile),
    (Fed s) ∧
    (toIssue 7 t s = some st) ∧
    (target = timeBase (tileOf s t) (jobOf s ((tileOf s t).job.getD 0)).startNs (sf st 2 0 2) + stepWord st 3) ∧
    (x = { tileOf s t with prevTarget := target }) ∧
    (2 ^ 31 ≤ (s.tmu.ns - target).toNat) :=
  ⟨3, stepped 7 0 1 0, 7 + 2 ^ 96, 1, { tileOf (stepped 7 0 1 0) 3 with prevTarget := 1 }, by
    (repeat' apply And.intro) <;> first | decide +kernel | rfl | exact fun _ _ => rfl⟩

theorem holds_sequencerWaits_10 : ∃ (t : Fin 64) (s : State) (st : BitVec 256) (target : Word) (x : Tile),
    (Fed s) ∧
    (toIssue 7 t s = some st) ∧
    (target = timeBase (tileOf s t) (jobOf s ((tileOf s t).job.getD 0)).startNs (sf st 2 0 2) + stepWord st 3) ∧
    (x = { tileOf s t with prevTarget := target }) ∧
    ((s.tmu.ns - target).toNat < 2 ^ 31) ∧
    ((s.tmu.ns - target).toNat ≤ (stepWord st 4).toNat) :=
  ⟨3, stepped 7 0 0 0, 7, 0, { tileOf (stepped 7 0 0 0) 3 with prevTarget := 0 }, by
    (repeat' apply And.intro) <;> first | decide +kernel | rfl | exact fun _ _ => rfl⟩

theorem holds_sequencerWaits_11a : ∃ (t : Fin 64) (s : State) (st : BitVec 256) (target : Word) (x : Tile) (late : Nat) (u : State),
    (Fed s) ∧
    (toIssue 7 t s = some st) ∧
    (target = timeBase (tileOf s t) (jobOf s ((tileOf s t).job.getD 0)).startNs (sf st 2 0 2) + stepWord st 3) ∧
    (x = { tileOf s t with prevTarget := target }) ∧
    (late = (s.tmu.ns - target).toNat) ∧
    (late < 2 ^ 31) ∧
    ((stepWord st 4).toNat < late) ∧
    (u = setTile t x s) :=
  ⟨3, lateWait 4, 7 + 2 ^ 64 * 4, 0, { tileOf (lateWait 4) 3 with prevTarget := 0 }, 9, setTile 3 { tileOf (lateWait 4) 3 with prevTarget := 0 } (lateWait 4), by
    (repeat' apply And.intro) <;> first | decide +kernel | rfl | exact fun _ _ => rfl⟩

theorem holds_sequencerWaits_11b : ∃ (t : Fin 64) (s : State) (st : BitVec 256) (target : Word) (x : Tile) (late : Nat) (u : State),
    (Fed s) ∧
    (toIssue 7 t s = some st) ∧
    (target = timeBase (tileOf s t) (jobOf s ((tileOf s t).job.getD 0)).startNs (sf st 2 0 2) + stepWord st 3) ∧
    (x = { tileOf s t with prevTarget := target }) ∧
    (late = (s.tmu.ns - target).toNat) ∧
    (late < 2 ^ 31) ∧
    ((stepWord st 4).toNat < late) ∧
    (u = setTile t x s) :=
  ⟨3, lateWait 0, 7, 0, { tileOf (lateWait 0) 3 with prevTarget := 0 }, 9, setTile 3 { tileOf (lateWait 0) 3 with prevTarget := 0 } (lateWait 0), by
    (repeat' apply And.intro) <;> first | decide +kernel | rfl | exact fun _ _ => rfl⟩

theorem holds_sequencerWaits_12 : ∃ (t : Fin 64) (s : State) (target : Word),
    (Fed s) ∧
    ((tileOf s t).hold = .time target) ∧
    (2 ^ 31 ≤ (s.tmu.ns - target).toNat) :=
  ⟨3, held3 (.time 1), 1, by
    (repeat' apply And.intro) <;> first | decide +kernel | rfl | exact fun _ _ => rfl⟩

theorem holds_sequencerWaits_13 : ∃ (t : Fin 64) (s : State) (target : Word),
    (Fed s) ∧
    ((tileOf s t).hold = .time target) ∧
    ((s.tmu.ns - target).toNat < 2 ^ 31) :=
  ⟨3, held3 (.time 0), 0, by
    (repeat' apply And.intro) <;> first | decide +kernel | rfl | exact fun _ _ => rfl⟩

theorem holds_sequencerWaits_14 : ∃ (t : Fin 64) (s : State) (st : BitVec 256),
    (Fed s) ∧
    (toIssue 6 t s = some st) ∧
    ((sb st 2 3 = false ∨ sf st 3 0 17 < 98304)) ∧
    (fenceMet t (sf st 2 0 5) s = true) :=
  ⟨3, stepped 6 31 0 0, 6 + 2 ^ 64 * 31, by
    (repeat' apply And.intro) <;> first | decide +kernel | rfl | exact fun _ _ => rfl⟩

theorem holds_sequencerWaits_15 : ∃ (t bits line : Nat) (s u v : State),
    (u = (if bits / 8 % 2 = 1 then sramWrite t (64 * line) (leBytes (tileFlags (tileOf s t)) 64) s else s)) ∧
    (v = (if bits / 16 % 2 = 1 then setTile t { tileOf u t with nan := false, ovf := false, ternInv := false } u else u)) :=
  ⟨3, 24, 0, up, sramWrite 3 0 (List.replicate 64 0) up, setTile 3 { tileOf (sramWrite 3 0 (List.replicate 64 0) up) 3 with nan := false } (sramWrite 3 0 (List.replicate 64 0) up), by
    (repeat' apply And.intro) <;> first | decide +kernel | rfl | exact fun _ _ => rfl⟩

theorem holds_sequencerWaits_16 : ∃ (t : Fin 64) (s : State) (st : BitVec 256),
    (Fed s) ∧
    (toIssue 6 t s = some st) ∧
    ((sb st 2 3 = false ∨ sf st 3 0 17 < 98304)) ∧
    (fenceMet t (sf st 2 0 5) s = false) :=
  ⟨3, busyUnit 6 2, 6 + 2 ^ 64 * 2, by
    (repeat' apply And.intro) <;> first | decide +kernel | rfl | exact fun _ _ => rfl⟩

theorem holds_sequencerWaits_17 : ∃ (t : Fin 64) (s : State) (st : BitVec 256),
    (Fed s) ∧
    (toIssue 6 t s = some st) ∧
    (sb st 2 3 = true) ∧
    (98304 ≤ sf st 3 0 17) :=
  ⟨3, stepped 6 8 98304 0, 6 + 2 ^ 64 * 8 + 2 ^ 96 * 98304, by
    (repeat' apply And.intro) <;> first | decide +kernel | rfl | exact fun _ _ => rfl⟩

theorem holds_sequencerWaits_18 : ∃ (t : Fin 64) (s : State) (bits line : Nat),
    (Fed s) ∧
    ((tileOf s t).hold = .fence bits line) ∧
    (fenceMet t bits s = false) :=
  ⟨3, heldBusy, 2, 0, by
    (repeat' apply And.intro) <;> first | decide +kernel | rfl | exact fun _ _ => rfl⟩

theorem holds_sequencerWaits_19 : ∃ (t : Fin 64) (s u : State),
    (Fed s) ∧
    (toIssue 4 t s = none) ∧
    (toIssue 7 t s = none) ∧
    (toIssue 6 t s = none) ∧
    (u = (if ranOff t s then roleFault t 0x0B ((tileOf s t).prog.length - 1) s else s)) :=
  ⟨3, up, up, by
    (repeat' apply And.intro) <;> first | decide +kernel | rfl | exact fun _ _ => rfl⟩

theorem holds_sequencerWaits_20 : ∃ (t : Fin 64) (s : State),
    (Fed s) ∧
    ((tileOf s t).hold = .none) :=
  ⟨3, up, by
    (repeat' apply And.intro) <;> first | decide +kernel | rfl | exact fun _ _ => rfl⟩

theorem holds_sequencerWaits_21 : ∃ (t : Fin 64) (s : State) (bits line : Nat),
    (Fed s) ∧
    ((tileOf s t).hold = .fence bits line) ∧
    (fenceMet t bits s = true) :=
  ⟨3, held3 (.fence 7 0), 7, 0, by
    (repeat' apply And.intro) <;> first | decide +kernel | rfl | exact fun _ _ => rfl⟩

theorem holds_sequencerSteps_1 : ∃ (t : Fin 64) (s : State) (st : BitVec 256) (x : Tile),
    (Fed s) ∧
    (toIssue 5 t s = some st) ∧
    (tget 0 (tileOf s t).loops (sf st 2 12 2) = sf st 3 0 16) ∧
    (x = { tileOf s t with loops := tset 0 (tileOf s t).loops (sf st 2 12 2) 0 }) :=
  ⟨3, stepped 5 0 0 0, 5, tileOf (stepped 5 0 0 0) 3, by
    (repeat' apply And.intro) <;> first | decide +kernel | rfl | exact fun _ _ => rfl⟩

theorem holds_sequencerSteps_2 : ∃ (t : Fin 64) (s : State) (st : BitVec 256),
    (Fed s) ∧
    (toIssue 5 t s = some st) ∧
    (tget 0 (tileOf s t).loops (sf st 2 12 2) ≠ sf st 3 0 16) :=
  ⟨3, stepped 5 0 2 0, 5 + 2 ^ 97, by
    (repeat' apply And.intro) <;> first | decide +kernel | rfl | exact fun _ _ => rfl⟩

theorem holds_sequencerSteps_3 : ∃ (t : Fin 64) (s : State) (st : BitVec 256),
    (Fed s) ∧
    (toIssue 0 t s = some st) :=
  ⟨3, runningJob, 0, by
    (repeat' apply And.intro) <;> first | decide +kernel | rfl | exact fun _ _ => rfl⟩

theorem holds_sequencerSteps_4 : ∃ (t : Fin 64) (s : State) (code j : Nat) (u : State),
    (Fed s) ∧
    ((tileOf s t).hold = .ending code) ∧
    ((tileOf s t).job = some j) ∧
    (fenceMet t 7 s = true) ∧
    (u = setTile t { tileOf s t with run := .ended, hold := .none, exitCode := code } s) :=
  ⟨3, held3 (.ending 5), 5, 1, setTile 3 { tileOf (held3 (.ending 5)) 3 with run := .ended, hold := .none, exitCode := 5 } (held3 (.ending 5)), by
    (repeat' apply And.intro) <;> first | decide +kernel | rfl | exact fun _ _ => rfl⟩

theorem holds_sequencerSteps_5 : ∃ (j : Nat) (s u : State),
    ((jobOf s j).status = .running) ∧
    (runningTiles j s = []) ∧
    ((jobOf s j).stopping = none) ∧
    (u = changeStatus j .done s) :=
  ⟨1, withJob { status := .running } [], changeStatus 1 .done (withJob { status := .running } []), by
    (repeat' apply And.intro) <;> first | decide +kernel | rfl | exact fun _ _ => rfl⟩

theorem holds_sequencerSteps_6 : ∃ (j : Fin 16) (s : State) (i : Nat),
    (Fed s) ∧
    ((jobOf s j).entry = some i) ∧
    ((jobOf s j).status = .armed) ∧
    ((jobOf s j).firing = true) :=
  ⟨1, { armedJob with jobs := [(1, { status := .armed, nRoles := 1, entry := some 0, firing := true })] }, 0, by
    (repeat' apply And.intro) <;> first | decide +kernel | rfl | exact fun _ _ => rfl⟩

theorem holds_sequencerSteps_7 : ∃ (j : Nat) (s : State),
    (((jobOf s j).status ≠ .running ∨ runningTiles j s ≠ [] ∨ (jobOf s j).stopping ≠ none)) :=
  ⟨1, up, by
    (repeat' apply And.intro) <;> first | decide +kernel | rfl | exact fun _ _ => rfl⟩

theorem holds_sequencerSteps_8 : ∃ (t : Fin 64) (s : State),
    (Fed s) ∧
    (((∀ code, (tileOf s t).hold ≠ .ending code) ∨ (tileOf s t).job = none ∨ fenceMet t 7 s = false)) :=
  ⟨3, up, by
    (repeat' apply And.intro) <;> first | exact Or.inr (Or.inl rfl) | decide +kernel | rfl | exact fun _ _ => rfl⟩

theorem holds_sequencerSteps_9 : ∃ (j : Fin 16) (s : State),
    (Fed s) ∧
    (((jobOf s j).entry = none ∨ (jobOf s j).status ≠ .armed ∨ (jobOf s j).firing = false)) :=
  ⟨1, up, by
    (repeat' apply And.intro) <;> first | decide +kernel | rfl | exact fun _ _ => rfl⟩

theorem holds_sequencerSteps_10 : ∃ (t : Fin 64) (s u : State),
    (Fed s) ∧
    (toIssue 5 t s = none) ∧
    (toIssue 0 t s = none) ∧
    (u = (if ranOff t s then roleFault t 0x0B ((tileOf s t).prog.length - 1) s else s)) :=
  ⟨3, up, up, by
    (repeat' apply And.intro) <;> first | decide +kernel | rfl | exact fun _ _ => rfl⟩

theorem holds_engineSteps_1 : ∃ (t : Fin 64) (flaws : List Flaw) (s : State) (st : BitVec 256) (u : State) (m : MatStep) (p : MatPlaces) (w : State) (o : UnitOp),
    (Fed s) ∧
    (toIssue 1 t s = some st) ∧
    ((tileOf s t).matrixOp = none) ∧
    (u = inject flaws s) ∧
    (m = matStep st) ∧
    (p = matPlaces (tileOf s t) st) ∧
    (matInRange m p = true) ∧
    ((m.mode = 2 → scaleOk (nth 0 (bytesWords (stepBytes t m.param 64 u)) 1) = true ∧ scaleOk (nth 0 (bytesWords (stepBytes t m.param 64 u)) 2) = true)) ∧
    (w = matRun t m p u) ∧
    (o = unitOp (tileOf s t) st (matIns m p) (matOuts m p) (0, 128 * m.M) (m.wf = 11)) :=
  ⟨3, [], stepped 1 0 0 0, 1, stepped 1 0 0 0, matStep 1, matPlaces (tileOf (stepped 1 0 0 0) 3) 1, matRun 3 (matStep 1) (matPlaces (tileOf (stepped 1 0 0 0) 3) 1) (stepped 1 0 0 0), unitOp (tileOf (stepped 1 0 0 0) 3) 1 (matIns (matStep 1) (matPlaces (tileOf (stepped 1 0 0 0) 3) 1)) (matOuts (matStep 1) (matPlaces (tileOf (stepped 1 0 0 0) 3) 1)) (0, 128 * (matStep 1).M) ((matStep 1).wf = 11), by
    (repeat' apply And.intro) <;> first | decide +kernel | rfl | exact fun _ _ => rfl⟩

theorem holds_engineSteps_2 : ∃ (t : Fin 64) (flaws : List Flaw) (s : State) (st : BitVec 256) (u : State) (m : MatStep),
    (Fed s) ∧
    (toIssue 1 t s = some st) ∧
    ((tileOf s t).matrixOp = none) ∧
    (u = inject flaws s) ∧
    (m = matStep st) ∧
    (matInRange m (matPlaces (tileOf s t) st) = true) ∧
    (m.mode = 2) ∧
    ((scaleOk (nth 0 (bytesWords (stepBytes t m.param 64 u)) 1) = false ∨ scaleOk (nth 0 (bytesWords (stepBytes t m.param 64 u)) 2) = false)) :=
  ⟨3, [], fineTile, 1 + 2 ^ 160 * 2 ^ 26, fineTile, matStep (1 + 2 ^ 160 * 2 ^ 26), by
    (repeat' apply And.intro) <;> first | decide +kernel | rfl | exact fun _ _ => rfl⟩

theorem holds_engineSteps_3 : ∃ (t : Fin 64) (flaws : List Flaw) (s : State) (st : BitVec 256),
    (Fed s) ∧
    (toIssue 1 t s = some st) ∧
    ((tileOf s t).matrixOp = none) ∧
    (matInRange (matStep st) (matPlaces (tileOf s t) st) = false) :=
  ⟨3, [], stepped 1 131071 0 0, 1 + 2 ^ 64 * 131071, by
    (repeat' apply And.intro) <;> first | decide +kernel | rfl | exact fun _ _ => rfl⟩

theorem holds_engineSteps_4 : ∃ (t : Fin 64) (flaws : List Flaw) (s : State) (st : BitVec 256) (o : UnitOp),
    (Fed s) ∧
    (toIssue 1 t s = some st) ∧
    ((tileOf s t).matrixOp = some o) :=
  ⟨3, [], busyUnit 1 0, 1, {}, by
    (repeat' apply And.intro) <;> first | decide +kernel | rfl | exact fun _ _ => rfl⟩

theorem holds_engineSteps_5 : ∃ (t : Fin 64) (flaws : List Flaw) (s : State) (st : BitVec 256) (u : State) (x : Tile) (v : VecStep) (param : List Word) (r : VecResult) (w : State) (o : UnitOp),
    (Fed s) ∧
    (toIssue 2 t s = some st) ∧
    ((tileOf s t).vectorOp = none) ∧
    (u = inject flaws s) ∧
    (x = tileOf s t) ∧
    (v = vecStep x st) ∧
    (param = (if v.readsParam && inSram v.param 64 then bytesWords (stepBytes t v.param 64 u) else [])) ∧
    ((v.insSpans param ++ v.outSpans param).all (fun p => inSram p.1 p.2) = true) ∧
    ((v.mode = 2 → scaleOk (nth 0 param 0) = true)) ∧
    (r = vecResult v param (vecLoad t v param v.a u) (vecLoad t v param v.b u) (vecLoad t v param v.c u)
      { lfsr := x.lfsr, ternInv := v.operands.findSome? (fun o => vecInvalid t v.n o u) }) ∧
    (w = keepArith t r.arith (vecStore t v param r (stepTouch t ((v.insSpans param).map spanRange) u))) ∧
    (o = unitOp x st ((v.insSpans param).map spanRange) ((v.outSpans param).map spanRange) (v.outWords r) (v.operands.any (·.tern))) :=
  ⟨3, [], vecState, 2, vecState, tileOf vecState 3, vecStep0, vecParam, vecRes, vecDone, unitOp (tileOf vecState 3) 2 ((vecStep0.insSpans vecParam).map spanRange) ((vecStep0.outSpans vecParam).map spanRange) (vecStep0.outWords vecRes) (vecStep0.operands.any (·.tern)), by
    (repeat' apply And.intro) <;> first | decide +kernel | rfl | exact fun _ _ => rfl⟩

theorem holds_engineSteps_6 : ∃ (t : Fin 64) (flaws : List Flaw) (s : State) (st : BitVec 256) (u : State) (v : VecStep) (param : List Word),
    (Fed s) ∧
    (toIssue 2 t s = some st) ∧
    ((tileOf s t).vectorOp = none) ∧
    (u = inject flaws s) ∧
    (v = vecStep (tileOf s t) st) ∧
    (param = (if v.readsParam && inSram v.param 64 then bytesWords (stepBytes t v.param 64 u) else [])) ∧
    ((v.insSpans param ++ v.outSpans param).all (fun p => inSram p.1 p.2) = false) :=
  ⟨3, [], stepped 2 0 0 131071, 2 + 2 ^ 128 * 131071, stepped 2 0 0 131071, vecStep (tileOf (stepped 2 0 0 131071) 3) (2 + 2 ^ 128 * 131071), [], by
    (repeat' apply And.intro) <;> first | decide +kernel | rfl | exact fun _ _ => rfl⟩

theorem holds_engineSteps_7 : ∃ (t : Fin 64) (flaws : List Flaw) (s : State) (st : BitVec 256) (o : UnitOp),
    (Fed s) ∧
    (toIssue 2 t s = some st) ∧
    ((tileOf s t).vectorOp = some o) :=
  ⟨3, [], vecWaits, 2, {}, by
    (repeat' apply And.intro) <;> first | decide +kernel | rfl | exact fun _ _ => rfl⟩

theorem holds_engineSteps_8 : ∃ (t : Fin 64) (s : State) (o : UnitOp),
    (Fed s) ∧
    ((tileOf s t).matrixOp = some o) :=
  ⟨3, busyUnit 6 2, {}, by
    (repeat' apply And.intro) <;> first | decide +kernel | rfl | exact fun _ _ => rfl⟩

theorem holds_engineSteps_9 : ∃ (t : Fin 64) (s : State) (o : UnitOp),
    (Fed s) ∧
    ((tileOf s t).vectorOp = some o) :=
  ⟨3, vecBusy, {}, by
    (repeat' apply And.intro) <;> first | decide +kernel | rfl | exact fun _ _ => rfl⟩

theorem holds_engineSteps_10 : ∃ (t : Nat) (o : UnitOp) (n : Nat) (s u : State),
    (o.done = some n) ∧
    (o.detach = false) ∧
    (u = setTile t { tileOf s t with tallies := tset 0 (tileOf s t).tallies n (tget 0 (tileOf s t).tallies n + 1) } s) :=
  ⟨3, { done := some 2 }, 2, up, setTile 3 { tallies := [(2, 1)] } up, by
    (repeat' apply And.intro) <;> first | decide +kernel | rfl | exact fun _ _ => rfl⟩

theorem holds_stitchInitiator_1 : ∃ (t : Fin 64) (flaws : List Flaw) (s u : State) (st : BitVec 256) (d : Desc) (w : State) (e : Nat),
    (Sends s) ∧
    (u = inject flaws s) ∧
    (toIssue 3 t u = some st) ∧
    (formDesc t st u = .ok d) ∧
    (w = (if isFetching d.op then useFresh 1 (sramTouch t readerSend d.localOff (footprint d.op d.len) u) else u)) ∧
    (freeIn (128 * t) 128 w = some e) :=
  ⟨3, [], stitchy, stitchy, 3 + 2 ^ 64 * 5, okOr (formDesc 3 (3 + 2 ^ 64 * 5) stitchy) {}, stitchy, 384, by
    (repeat' apply And.intro) <;> first | decide +kernel | exact eq_okOr _ _ (by decide +kernel) | exact eq_okPair _ _ _ (by decide +kernel) (by decide +kernel) | rfl⟩

theorem holds_stitchInitiator_2 : ∃ (t : Fin 64) (flaws : List Flaw) (s u : State) (st : BitVec 256) (d : Desc) (w v : State),
    (Sends s) ∧
    (u = inject flaws s) ∧
    (toIssue 3 t u = some st) ∧
    (formDesc t st u = .ok d) ∧
    (w = (if isFetching d.op then useFresh 1 (sramTouch t readerSend d.localOff (footprint d.op d.len) u) else u)) ∧
    (freeIn (128 * t) 128 w = none) ∧
    (v = setTile t { tileOf w t with hold := .entry } w) :=
  ⟨3, [], stitchFull, stitchFull, 3 + 2 ^ 64 * 5, okOr (formDesc 3 (3 + 2 ^ 64 * 5) stitchFull) {}, stitchFull, setTile 3 { tileOf stitchFull 3 with hold := .entry } stitchFull, by
    (repeat' apply And.intro) <;> first | decide +kernel | exact eq_okOr _ _ (by decide +kernel) | exact eq_okPair _ _ _ (by decide +kernel) (by decide +kernel) | rfl⟩

theorem holds_stitchInitiator_3 : ∃ (t : Fin 64) (flaws : List Flaw) (s u : State) (st : BitVec 256) (c : Nat),
    (Sends s) ∧
    (u = inject flaws s) ∧
    (toIssue 3 t u = some st) ∧
    (formDesc t st u = .error c) :=
  ⟨3, [], stepped 3 1 0 0, stepped 3 1 0 0, 3 + 2 ^ 64 * 1, 5, by
    (repeat' apply And.intro) <;> first | decide +kernel | exact eq_errIs _ _ (by decide +kernel) | exact eq_errOr _ _ (by decide +kernel) | rfl⟩

theorem holds_stitchInitiator_4 : ∃ (s : State) (e : Nat) (w : Waiter),
    (Sends s) ∧
    (ownGrant s = some (e, w)) :=
  ⟨{ up with stitch := { waitList := [{ who := 3, at0 := 0, desc := {} }] } }, 384, { who := 3, at0 := 0, desc := {} }, by
    (repeat' apply And.intro) <;> first | decide +kernel | rfl | exact fun _ _ => rfl⟩

theorem holds_stitchInitiator_5 : ∃ (s : State),
    (Sends s) ∧
    (ownGrant s = none) :=
  ⟨up, by
    (repeat' apply And.intro) <;> first | decide +kernel | rfl | exact fun _ _ => rfl⟩

theorem holds_stitchInitiator_7 : ∃ (k : Fin 16384) (part : Fin 17) (flaws : List Flaw) (s u : State) (dest : Nat),
    (Sends s) ∧
    (u = inject flaws s) ∧
    (segmentDue k part u = true) ∧
    (copyReadFails k part u = none) ∧
    (((entryOf u k).sent.isEmpty && mustHold k u) = false) ∧
    (partDest (entryOf u k).desc part u = some dest) :=
  ⟨4, 0, [], waitingOp, waitingOp, pga 5 3 64, by
    (repeat' apply And.intro) <;> first | decide +kernel | rfl | exact fun _ _ => rfl⟩

theorem holds_stitchInitiator_8 : ∃ (k : Fin 16384) (part : Fin 17) (flaws : List Flaw) (s u : State),
    (Sends s) ∧
    (u = inject flaws s) ∧
    (segmentDue k part u = true) ∧
    (copyReadFails k part u = none) ∧
    (((entryOf u k).sent.isEmpty && mustHold k u) = false) ∧
    (partDest (entryOf u k).desc part u = none) :=
  ⟨4, 0, [], { up with stitch := { table := [(4, { cond := .waiting, desc := { op := 1, len := 64, job := 1 } })] } }, { up with stitch := { table := [(4, { cond := .waiting, desc := { op := 1, len := 64, job := 1 } })] } }, by
    (repeat' apply And.intro) <;> first | decide +kernel | rfl | exact fun _ _ => rfl⟩

theorem holds_stitchInitiator_9 : ∃ (k : Fin 16384) (part : Fin 17) (flaws : List Flaw) (s u : State),
    (Sends s) ∧
    (u = inject flaws s) ∧
    (segmentDue k part u = true) ∧
    (copyReadFails k part u = none) ∧
    ((entryOf u k).sent = []) ∧
    (mustHold k u = true) :=
  ⟨4, 0, [], mustWait, mustWait, by
    (repeat' apply And.intro) <;> first | decide +kernel | rfl | exact fun _ _ => rfl⟩

theorem holds_stitchInitiator_10 : ∃ (k : Fin 16384) (part : Fin 17) (flaws : List Flaw) (s u v : State),
    (Sends s) ∧
    (u = inject flaws s) ∧
    (copyReadFails k part u = some v) :=
  ⟨4, 0, [], copyLost, copyLost, copyLost, by
    (repeat' apply And.intro) <;> first | decide +kernel | rfl | exact fun _ _ => rfl⟩

theorem holds_stitchInitiator_11 : ∃ (k : Fin 16384) (part : Fin 17) (flaws : List Flaw) (s u : State),
    (Sends s) ∧
    (u = inject flaws s) ∧
    (segmentDue k part u = false) :=
  ⟨4, 0, [], up, up, by
    (repeat' apply And.intro) <;> first | decide +kernel | rfl | exact fun _ _ => rfl⟩

theorem holds_stitchInitiator_12 : ∃ (n : Nat) (s : State),
    (s.resil.restore = none) :=
  ⟨6, up, by
    (repeat' apply And.intro) <;> first | decide +kernel | rfl | exact fun _ _ => rfl⟩

theorem holds_stitchInitiator_13 : ∃ (k : Fin 16384) (s : State),
    (Sends s) ∧
    ((entryOf s k).cond = .held) ∧
    (mustHold k s = false) :=
  ⟨4, { up with stitch := { table := [(4, { cond := .held })] } }, by
    (repeat' apply And.intro) <;> first | decide +kernel | rfl | exact fun _ _ => rfl⟩

theorem holds_stitchInitiator_14 : ∃ (s v : State) (p : Pkt) (rest : List Pkt) (u : State) (q e part : Nat),
    (Sends s) ∧
    (v = nextResponse s) ∧
    (v.fabric.inResp = p :: rest) ∧
    (u = { v with fabric := { v.fabric with inResp := rest } }) ∧
    (q = bytesAt p.bytes 4 4) ∧
    (e = q % 2 ^ 14) ∧
    ((entryOf u e).cond = .waiting) ∧
    ((entryOf u e).gen = q / 2 ^ 14 % 16) ∧
    (20 ≤ p.bytes.length) ∧
    (checkGood (foldPrefix (ownId u) (q % 2 ^ 24) (entryOf u e).desc.op) p.bytes = true) ∧
    (part = (if q / 2 ^ 23 % 2 = 1 then 16 else q / 2 ^ 18 % 16)) ∧
    (tget none (entryOf u e).sent part ≠ none) ∧
    ((entryOf u e).done.contains part = false) :=
  ⟨answered, answered, answerPkt, [], { answered with fabric := { answered.fabric with inResp := [] } }, 4, 4, 0, by
    (repeat' apply And.intro) <;> first | decide +kernel | rfl | exact fun _ _ => rfl⟩

theorem holds_stitchInitiator_15 : ∃ (k : Fin 16384) (s : State) (eye : Bool) (u v : State),
    (Sends s) ∧
    ((entryOf s k).cond = .waiting) ∧
    (answerHere k s = false) ∧
    (expired (entryOf s k) s = some eye) ∧
    (u = countStitch (if eye then 4 else 3) s) ∧
    (v = setEntry k { entryOf u k with error := if (entryOf u k).error = 0 then 0x20 else (entryOf u k).error } u) :=
  ⟨4, timedOut, false, countStitch 3 timedOut, setEntry 4 { entryOf (countStitch 3 timedOut) 4 with error := 0x20 } (countStitch 3 timedOut), by
    (repeat' apply And.intro) <;> first | decide +kernel | rfl | exact fun _ _ => rfl⟩

theorem holds_stitchInitiator_16 : ∃ (k : Fin 16384) (s : State) (n m : Nat),
    (Fed s) ∧
    ((entryOf s k).quarantine = some (n, m)) ∧
    ((entryOf s k).cond = .quarantine) ∧
    (m ≤ since n s) :=
  ⟨4, { up with stitch := { table := [(4, { cond := .quarantine, quarantine := some (0, 0) })] } }, 0, 0, by
    (repeat' apply And.intro) <;> first | decide +kernel | rfl | exact fun _ _ => rfl⟩

theorem holds_stitchTarget_1 : ∃ (flaws : List Flaw) (s v : State) (p : Pkt) (rest : List Pkt) (u : State) (q : Request),
    (serving s = true) ∧
    (s.power.failing = false) ∧
    (v = nextRequest s) ∧
    (v.fabric.inReq = p :: rest) ∧
    (u = inject flaws { v with fabric := { v.fabric with inReq := rest } }) ∧
    (q = readRequest p.bytes) ∧
    ((28 ≤ p.bytes.length && checkGood (foldPrefix (ownId u) q.seq q.dest) p.bytes) = true) ∧
    (u.glb.state = .halted) :=
  ⟨[], requestedHalted, requestedHalted, requestPkt, [], (let v := requestedHalted; { v with fabric := { v.fabric with inReq := [] } }), readRequest (requestPkt).bytes, by
    (repeat' apply And.intro) <;> first | ((with_reducible refine nextRequest_ready _ ?_); rfl) | decide +kernel | rfl | exact fun _ _ => rfl⟩

theorem holds_stitchTarget_2 : ∃ (flaws : List Flaw) (s v : State) (p : Pkt) (rest : List Pkt) (u : State) (q : Request),
    (serving s = true) ∧
    (s.power.failing = false) ∧
    (v = nextRequest s) ∧
    (v.fabric.inReq = p :: rest) ∧
    (u = inject flaws { v with fabric := { v.fabric with inReq := rest } }) ∧
    (q = readRequest p.bytes) ∧
    ((28 ≤ p.bytes.length && checkGood (foldPrefix (ownId u) q.seq q.dest) p.bytes) = true) ∧
    (u.glb.state ≠ .halted) ∧
    (badSpace q = true) :=
  ⟨[], requestedBad, requestedBad, badPkt, [], (let v := requestedBad; { v with fabric := { v.fabric with inReq := [] } }), readRequest (badPkt).bytes, by
    (repeat' apply And.intro) <;> first | ((with_reducible refine nextRequest_ready _ ?_); rfl) | decide +kernel | rfl | exact fun _ _ => rfl⟩

theorem holds_stitchTarget_3 : ∃ (flaws : List Flaw) (s v : State) (p : Pkt) (rest : List Pkt) (u : State) (q : Request),
    (serving s = true) ∧
    (s.power.failing = false) ∧
    (v = nextRequest s) ∧
    (v.fabric.inReq = p :: rest) ∧
    (u = inject flaws { v with fabric := { v.fabric with inReq := rest } }) ∧
    (q = readRequest p.bytes) ∧
    ((28 ≤ p.bytes.length && checkGood (foldPrefix (ownId u) q.seq q.dest) p.bytes) = true) ∧
    (u.glb.state ≠ .halted) ∧
    (badSpace q = false) ∧
    (boundPlace p q u = none) :=
  ⟨[], requestedGone, requestedGone, requestPkt, [], (let v := requestedGone; { v with fabric := { v.fabric with inReq := [] } }), readRequest (requestPkt).bytes, by
    (repeat' apply And.intro) <;> first | ((with_reducible refine nextRequest_ready _ ?_); rfl) | decide +kernel | rfl | exact fun _ _ => rfl⟩

theorem holds_stitchTarget_4 : ∃ (flaws : List Flaw) (s v : State) (p : Pkt) (rest : List Pkt) (u : State) (q : Request) (pl : Place0) (k : Nat),
    (serving s = true) ∧
    (s.power.failing = false) ∧
    (v = nextRequest s) ∧
    (v.fabric.inReq = p :: rest) ∧
    (u = inject flaws { v with fabric := { v.fabric with inReq := rest } }) ∧
    (q = readRequest p.bytes) ∧
    ((28 ≤ p.bytes.length && checkGood (foldPrefix (ownId u) q.seq q.dest) p.bytes) = true) ∧
    (u.glb.state ≠ .halted) ∧
    (badSpace q = false) ∧
    (boundPlace p q u = some pl) ∧
    (pageWaits q pl u = some k) :=
  ⟨[], requestedPage, requestedPage, pagePkt, [], (let v := requestedPage; { v with fabric := { v.fabric with inReq := [] } }), readRequest (pagePkt).bytes, .dram [(0, 0, 1)], 0, by
    (repeat' apply And.intro) <;> first | ((with_reducible refine nextRequest_ready _ ?_); rfl) | decide +kernel | rfl | exact fun _ _ => rfl⟩

theorem holds_stitchTarget_5 : ∃ (flaws : List Flaw) (s v : State) (p : Pkt) (rest : List Pkt) (u : State) (q : Request) (pl : Place0),
    (serving s = true) ∧
    (s.power.failing = false) ∧
    (v = nextRequest s) ∧
    (v.fabric.inReq = p :: rest) ∧
    (u = inject flaws { v with fabric := { v.fabric with inReq := rest } }) ∧
    (q = readRequest p.bytes) ∧
    ((28 ≤ p.bytes.length && checkGood (foldPrefix (ownId u) q.seq q.dest) p.bytes) = true) ∧
    (u.glb.state ≠ .halted) ∧
    (badSpace q = false) ∧
    (boundPlace p q u = some pl) ∧
    (pageWaits q pl u = none) :=
  ⟨[], requested, requested, requestPkt, [], (let v := requested; { v with fabric := { v.fabric with inReq := [] } }), readRequest (requestPkt).bytes, .tally 3 2, by
    (repeat' apply And.intro) <;> first | ((with_reducible refine nextRequest_ready _ ?_); rfl) | decide +kernel | rfl | exact fun _ _ => rfl⟩

theorem holds_stitchTarget_6 : ∃ (flaws : List Flaw) (s v : State) (p : Pkt) (rest : List Pkt) (u : State) (q : Request),
    (serving s = true) ∧
    (s.power.failing = false) ∧
    (v = nextRequest s) ∧
    (v.fabric.inReq = p :: rest) ∧
    (u = inject flaws { v with fabric := { v.fabric with inReq := rest } }) ∧
    (q = readRequest p.bytes) ∧
    ((28 ≤ p.bytes.length && checkGood (foldPrefix (ownId u) q.seq q.dest) p.bytes) = false) :=
  ⟨[], { up with fabric := { inReq := [{}] } }, { up with fabric := { inReq := [{}] } }, {}, [], up, readRequest [], by
    (repeat' apply And.intro) <;> first | ((with_reducible refine nextRequest_ready _ ?_); rfl) | decide +kernel | rfl | exact fun _ _ => rfl⟩

theorem holds_stitchTarget_7 : ∃ (flaws : List Flaw) (s v : State),
    (serving s = true) ∧
    (s.power.failing = false) ∧
    (v = nextRequest s) ∧
    (v.fabric.inReq = []) :=
  ⟨[], up, up, by
    (repeat' apply And.intro) <;> first | ((with_reducible refine nextRequest_ready _ ?_); rfl) | decide +kernel | rfl | exact fun _ _ => rfl⟩

theorem holds_stitchTarget_8 : ∃ (flaws : List Flaw) (s : State),
    (Fed s) ∧
    (serving s = false) :=
  ⟨[], deadUp, by
    (repeat' apply And.intro) <;> first | decide +kernel | rfl | exact fun _ _ => rfl⟩

theorem holds_stitchTarget_9 : ∃ (s : State),
    (s.fabric.inReq ≠ []) :=
  ⟨requested, by
    (repeat' apply And.intro) <;> first | decide +kernel | rfl | exact fun _ _ => rfl⟩

theorem holds_memoryCommands_1 : ∃ (t : Fin 64) (w : Nat) (s : State) (k : Nat),
    (Fed s) ∧
    (w < 2 ^ 20) ∧
    (k = t.val * 2 ^ 20 + w) ∧
    (s.mem.sramRewrites.contains k = true) :=
  ⟨0, 5, { up with mem := { sramBad := [(5, 1)], sramRewrites := [5] } }, 5, by
    (repeat' apply And.intro) <;> first | decide +kernel | rfl | exact fun _ _ => rfl⟩

theorem holds_memoryCommands_2 : ∃ (t : Fin 64) (w : Nat) (s : State),
    (Fed s) ∧
    ((2 ^ 20 ≤ w ∨ s.mem.sramRewrites.contains (t.val * 2 ^ 20 + w) = false)) :=
  ⟨0, 5, up, by
    (repeat' apply And.intro) <;> first | decide +kernel | rfl | exact fun _ _ => rfl⟩

theorem holds_memoryCommands_3 : ∃ (t : Fin 64) (b : Fin 48) (flaws : List Flaw) (s u : State),
    (Fed s) ∧
    (u = inject flaws s) :=
  ⟨3, 0, [], up, up, by
    (repeat' apply And.intro) <;> first | decide +kernel | rfl | exact fun _ _ => rfl⟩

theorem holds_memoryCommands_4 : ∃ (c : Fin 12) (line : Nat) (s : State) (r : Nat × List Byte),
    (Fed s) ∧
    (line < 2 ^ 32) ∧
    ((chanOf s c).inService = true) ∧
    (s.mem.rewrites.find? (·.1 = c.val * 2 ^ 32 + line) = some r) :=
  ⟨0, 5, { memoried with mem := { memoried.mem with rewrites := [(5, List.replicate 64 7)] } }, (5, List.replicate 64 7), by
    (repeat' apply And.intro) <;> first | decide +kernel | rfl | exact fun _ _ => rfl⟩

theorem holds_memoryCommands_5 : ∃ (c : Fin 12) (line : Nat) (s : State),
    (Fed s) ∧
    ((2 ^ 32 ≤ line ∨ (chanOf s c).inService = false ∨ s.mem.rewrites.find? (·.1 = c.val * 2 ^ 32 + line) = none)) :=
  ⟨0, 5, memoried, by
    (repeat' apply And.intro) <;> first | decide +kernel | rfl | exact fun _ _ => rfl⟩

theorem holds_memoryCommands_7 : ∃ (c : Fin 12) (sub : Fin 2) (flaws : List Flaw) (s u : State) (ch : Chan) (n : Nat) (k : LineClass) (v : State),
    (Fed s) ∧
    (u = inject flaws s) ∧
    (ch = chanOf u c) ∧
    (ch.inService = true) ∧
    (n = (if sub.val = 0 then ch.scrub else ch.scrub1)) ∧
    (n < ch.spdGiB * 2 ^ 23) ∧
    (k = lineClass c (2 * n + sub.val) u) ∧
    (v = lineRead c readerScrub (2 * n + sub.val) u) :=
  ⟨0, 0, [], memoried, memoried, chanOf memoried 0, 0, lineClass 0 0 memoried, lineRead 0 readerScrub 0 memoried, by
    (repeat' apply And.intro) <;> first | decide +kernel | rfl | exact fun _ _ => rfl⟩

theorem holds_memoryCommands_8 : ∃ (c : Fin 12) (sub : Fin 2) (flaws : List Flaw) (s u : State),
    (Fed s) ∧
    (u = inject flaws s) ∧
    (((chanOf u c).inService = false ∨ (chanOf u c).spdGiB * 2 ^ 23 ≤ (if sub.val = 0 then (chanOf u c).scrub else (chanOf u c).scrub1))) :=
  ⟨0, 0, [], up, up, by
    (repeat' apply And.intro) <;> first | decide +kernel | rfl | exact fun _ _ => rfl⟩

theorem holds_memoryCommands_9 : ∃ (c : Nat) (s : State) (ch : Chan),
    (ch = chanOf s c) :=
  ⟨0, passDone, chanOf passDone 0, by
    (repeat' apply And.intro) <;> first | decide +kernel | rfl | exact fun _ _ => rfl⟩

theorem holds_memoryCommands_10 : ∃ (c : Fin 12) (s : State),
    (Fed s) ∧
    ((chanOf s c).inService = true) ∧
    ((chanOf s c).fast = false) ∧
    (1024 < ((chanOf s c).ceTimes.filter (fun t => since t s < ticksS 3600)).length) :=
  ⟨0, noisy, by
    (repeat' apply And.intro) <;> first | decide +kernel | rfl | exact fun _ _ => rfl⟩

theorem holds_memoryCommands_11 : ∃ (c : Fin 12) (s : State),
    (Fed s) ∧
    ((chanOf s c).inService = true) ∧
    ((chanOf s c).fast = true) ∧
    (((chanOf s c).ceTimes.filter (fun t => since t s < ticksS 3600)).length ≤ 1024) ∧
    (ticksS 86400 ≤ since (chanOf s c).noisyAt s) :=
  ⟨0, quieted, by
    (repeat' apply And.intro) <;> first | decide +kernel | rfl | exact fun _ _ => rfl⟩

theorem holds_memoryCommands_12 : ∃ (c : Fin 12) (s : State) (n : Nat),
    (Fed s) ∧
    (n = ((chanOf s c).ceTimes.filter (fun t => since t s < ticksS 3600)).length) ∧
    (((chanOf s c).inService = false ∨ ((chanOf s c).fast = true ∧ 1024 < n) ∨ ((chanOf s c).fast = false ∧ n ≤ 1024) ∨ ((chanOf s c).fast = true ∧ since (chanOf s c).noisyAt s < ticksS 86400))) :=
  ⟨0, up, 0, by
    (repeat' apply And.intro) <;> first | decide +kernel | rfl | exact fun _ _ => rfl⟩

theorem holds_memoryCommands_13 : ∃ (c : Fin 12) (temp : Int) (s : State) (a b : Bool) (u : State),
    (Fed s) ∧
    ((chanOf s c).inService = true) ∧
    (temp < 105) ∧
    (a = hotNow (chanOf s c).hot85 85 temp) ∧
    (b = hotNow (chanOf s c).hot95 95 temp) ∧
    (u = modChan c (fun x => { x with hot85 := a, hot95 := b }) s) :=
  ⟨0, 90, memoried, true, false, modChan 0 (fun x => { x with hot85 := true, hot95 := false }) memoried, by
    (repeat' apply And.intro) <;> first | decide +kernel | rfl | exact fun _ _ => rfl⟩

theorem holds_memoryCommands_14 : ∃ (c : Fin 12) (temp : Int) (s : State),
    (Fed s) ∧
    ((chanOf s c).inService = true) ∧
    (105 ≤ temp) :=
  ⟨0, 105, memoried, by
    (repeat' apply And.intro) <;> first | decide +kernel | rfl | exact fun _ _ => rfl⟩

theorem holds_memoryCommands_15 : ∃ (c : Fin 12) (temp : Int) (n : Fin 5) (s : State),
    (Fed s) ∧
    ((chanOf s c).inService = false) :=
  ⟨0, 90, 4, up, by
    (repeat' apply And.intro) <;> first | decide +kernel | rfl | exact fun _ _ => rfl⟩

theorem holds_memoryCommands_16 : ∃ (c : Fin 12) (s : State),
    (Fed s) :=
  ⟨0, memoried, by
    (repeat' apply And.intro) <;> first | decide +kernel | rfl | exact fun _ _ => rfl⟩

theorem holds_memoryCommands_17a : ∃ (c : Fin 12) (n : Fin 5) (s : State) (ch : Chan) (re : Bool) (times : List Nat) (t : State),
    (Fed s) ∧
    (ch = chanOf s c) ∧
    (ch.inService = true) ∧
    (n.val ≠ 0) ∧
    (re = (decide (n.val = 4) && !ch.retrained && !ch.retraining)) ∧
    (times = (if ch.retrained then List.replicate n.val s.clk ++ ch.parityTimes.filter (fun t => since t s < ticksS 1) else [])) ∧
    (t = raiseLimited 0x2009 1 c.val (ticksS 10) (min n.val 3)
        (fun k => [word c.val, word k, word (b2n (ch.retrained || ch.retraining || re))])
        (modChan c (fun x => { x with retraining := x.retraining || re, parityTimes := times }) s)) :=
  ⟨0, 2, memoried, chanOf memoried 0, false, [], raiseLimited 0x2009 1 0 (ticksS 10) 2 (fun k => [0, word k, 0]) (modChan 0 (fun x => { x with parityTimes := [] }) memoried), by
    (repeat' apply And.intro) <;> first | decide +kernel | rfl | exact fun _ _ => rfl⟩

theorem holds_memoryCommands_17b : ∃ (c : Fin 12) (n : Fin 5) (s : State) (ch : Chan) (re : Bool) (times : List Nat) (t : State),
    (Fed s) ∧
    (ch = chanOf s c) ∧
    (ch.inService = true) ∧
    (n.val ≠ 0) ∧
    (re = (decide (n.val = 4) && !ch.retrained && !ch.retraining)) ∧
    (times = (if ch.retrained then List.replicate n.val s.clk ++ ch.parityTimes.filter (fun t => since t s < ticksS 1) else [])) ∧
    (t = raiseLimited 0x2009 1 c.val (ticksS 10) (min n.val 3)
        (fun k => [word c.val, word k, word (b2n (ch.retrained || ch.retraining || re))])
        (modChan c (fun x => { x with retraining := x.retraining || re, parityTimes := times }) s)) :=
  ⟨0, 4, memoried, chanOf memoried 0, true, [], raiseLimited 0x2009 1 0 (ticksS 10) 3 (fun k => [0, word k, 1]) (modChan 0 (fun x => { x with retraining := true, parityTimes := [] }) memoried), by
    (repeat' apply And.intro) <;> first | decide +kernel | rfl | exact fun _ _ => rfl⟩

theorem holds_memoryCommands_18 : ∃ (c : Fin 12) (ok : Bool) (s u : State),
    (Fed s) ∧
    ((chanOf s c).retraining = true) ∧
    (u = modChan c (fun x => { x with retraining := false, retrained := true, parityTimes := [] }) s) :=
  ⟨0, true, { memoried with mem := { chans := [(0, { retraining := true })] } }, modChan 0 (fun x => { x with retraining := false, retrained := true, parityTimes := [] }) { memoried with mem := { chans := [(0, { retraining := true })] } }, by
    (repeat' apply And.intro) <;> first | decide +kernel | rfl | exact fun _ _ => rfl⟩

theorem holds_memoryCommands_19 : ∃ (c : Fin 12) (ok : Bool) (s : State),
    (Fed s) ∧
    ((chanOf s c).retraining = false) :=
  ⟨0, true, memoried, by
    (repeat' apply And.intro) <;> first | decide +kernel | rfl | exact fun _ _ => rfl⟩

theorem holds_memoryCommands_20 : ∃ (c : Fin 12) (s : State),
    (Fed s) :=
  ⟨0, memoried, by
    (repeat' apply And.intro) <;> first | decide +kernel | rfl | exact fun _ _ => rfl⟩

theorem holds_memoryCommands_21 : ∃ (c cause : Nat) (s u v : State),
    ((chanOf s c).inService = true) ∧
    (u = modChan c (fun x => { x with inService := false, out := true, retraining := false }) (refuseChannel c s)) ∧
    (v = raise 0x2005 3 [word c, word cause] { u with place := { u.place with owned := u.place.owned.filter (fun o => o.chan ≠ c) } }) :=
  ⟨0, 1, memoried, modChan 0 (fun x => { x with inService := false, out := true, retraining := false }) (refuseChannel 0 memoried), raise 0x2005 3 [0, 1] (modChan 0 (fun x => { x with inService := false, out := true, retraining := false }) (refuseChannel 0 memoried)), by
    (repeat' apply And.intro) <;> first | decide +kernel | rfl | exact fun _ _ => rfl⟩

theorem holds_memoryCommands_22 : ∃ (c cause : Nat) (s : State),
    ((chanOf s c).inService = false) :=
  ⟨0, 1, up, by
    (repeat' apply And.intro) <;> first | decide +kernel | rfl | exact fun _ _ => rfl⟩

theorem holds_memoryCommands_23 : ∃ (c : Fin 12) (x : Spd) (s : State) (good : Bool) (u v : State),
    (Fed s) ∧
    (s.glb.yarlerUp = true) ∧
    ((chanOf s c).tried = false) ∧
    (good = (x.populated && decide (spdRefused x = 0))) ∧
    (u = modChan c (fun ch => { ch with tried := true, trained := good && x.trained, spdGiB := (if good then x.capGiB else 0), out := good && !x.trained }) s) ∧
    (v = (if x.populated && decide (spdRefused x ≠ 0) then raise 0x2006 2 [word c, word x.capGiB, word (spdRefused x)] u
        else if good && !x.trained then raise 0x2005 3 [word c, 0] u else u)) :=
  ⟨0, ⟨true, 0, 64, true⟩, up, true, modChan 0 (fun ch => { ch with tried := true, trained := true, spdGiB := 64, out := false }) up, modChan 0 (fun ch => { ch with tried := true, trained := true, spdGiB := 64, out := false }) up, by
    (repeat' apply And.intro) <;> first | decide +kernel | rfl | exact fun _ _ => rfl⟩

theorem holds_memoryCommands_24 : ∃ (c : Fin 12) (x : Spd) (s : State),
    (Fed s) ∧
    (((chanOf s c).tried = true ∨ s.glb.yarlerUp = false)) :=
  ⟨0, ⟨true, 0, 64, true⟩, trainedAll, by
    (repeat' apply And.intro) <;> first | decide +kernel | rfl | exact fun _ _ => rfl⟩

theorem holds_memoryCommands_26 : ∃ (c : Fin 12) (s : State),
    (Fed s) ∧
    ((chanOf s c).trained = true) ∧
    ((chanOf s c).inService = false) ∧
    ((chanOf s c).out = false) ∧
    (allTried s = true) :=
  ⟨0, trainedAll, by
    (repeat' apply And.intro) <;> first | decide +kernel | rfl | exact fun _ _ => rfl⟩

theorem holds_memoryCommands_27 : ∃ (c : Fin 12) (s : State),
    (Fed s) ∧
    (((chanOf s c).trained = false ∨ (chanOf s c).inService = true ∨ (chanOf s c).out = true ∨ allTried s = false)) :=
  ⟨0, up, by
    (repeat' apply And.intro) <;> first | decide +kernel | rfl | exact fun _ _ => rfl⟩

theorem holds_moveCommands_1 : ∃ (flaws : List Flaw) (s t : State) (m : Move) (v : State),
    (Alive s) ∧
    (t = inject flaws s) ∧
    (t.place.move = some m) ∧
    (m.phase = 1) ∧
    (copyDone m t = true) ∧
    (v = holdWrites m.job m.region (rmMod m.job m.region (fun e => { e with move := 2 }) t)) :=
  ⟨[], movingJob, movingJob, { job := 1, oldBase := ownPga 0 0 up, newBase := ownPga 0 64 up }, holdWrites 1 0 (rmMod 1 0 (fun e => { e with move := 2 }) movingJob), by
    (repeat' apply And.intro) <;> first | decide +kernel | rfl | exact fun _ _ => rfl⟩

theorem holds_moveCommands_2 : ∃ (flaws : List Flaw) (s t : State),
    (Alive s) ∧
    (t = inject flaws s) ∧
    ((t.place.move = none ∨ ∃ m, t.place.move = some m ∧ (m.phase ≠ 1 ∨ copyDone m t = false))) :=
  ⟨[], drainingJob, drainingJob, by
    (repeat' apply And.intro) <;> first | decide +kernel | rfl | exact fun _ _ => rfl⟩

theorem holds_moveCommands_4 : ∃ (s : State) (m : Move) (off n : Nat) (l : List (Nat × Nat)),
    (s.place.move = some m) ∧
    (m.todo = (off, n) :: l) ∧
    (n ≤ 65536) :=
  ⟨{ movingJob with place := { movingJob.place with move := some { todo := [(0, 64)] } } }, { todo := [(0, 64)] }, 0, 64, [], by
    (repeat' apply And.intro) <;> first | decide +kernel | rfl | exact fun _ _ => rfl⟩

theorem holds_moveCommands_5 : ∃ (s : State) (m : Move) (off n : Nat) (l : List (Nat × Nat)),
    (s.place.move = some m) ∧
    (m.todo = (off, n) :: l) ∧
    (65536 < n) :=
  ⟨{ movingJob with place := { movingJob.place with move := some { todo := [(0, 65600)] } } }, { todo := [(0, 65600)] }, 0, 65600, [], by
    (repeat' apply And.intro) <;> first | decide +kernel | rfl | exact fun _ _ => rfl⟩

theorem holds_moveCommands_6 : ∃ (n : BitVec 16) (flaws : List Flaw) (s t : State) (m : Move),
    (Alive s) ∧
    (t = inject flaws s) ∧
    (t.place.move = some m) ∧
    (m.phase = 2) ∧
    (m.waiting.contains n.toNat = true) ∧
    ((n.toNat ≠ ownId t ∨ writesInFlight m.job m.region t = false)) ∧
    (m.waiting.filter (· ≠ n.toNat) ≠ []) :=
  ⟨5, [], { up with place := { move := some { phase := 2, waiting := [5, 6] } } }, { up with place := { move := some { phase := 2, waiting := [5, 6] } } }, { phase := 2, waiting := [5, 6] }, by
    (repeat' apply And.intro) <;> first | decide +kernel | rfl | exact fun _ _ => rfl⟩

theorem holds_moveCommands_7 : ∃ (n : BitVec 16) (flaws : List Flaw) (s t : State) (m : Move) (k : Nat),
    (Alive s) ∧
    (t = inject flaws s) ∧
    (t.place.move = some m) ∧
    (m.phase = 2) ∧
    (m.waiting.contains n.toNat = true) ∧
    ((n.toNat ≠ ownId t ∨ writesInFlight m.job m.region t = false)) ∧
    (m.waiting.filter (· ≠ n.toNat) = []) ∧
    (k = (match rmLookup m.job m.region t with | some e => e.size | none => 0)) :=
  ⟨5, [], drainingJob, drainingJob, { job := 1, oldBase := ownPga 0 0 up, newBase := ownPga 0 64 up, phase := 2, waiting := [5] }, 64, by
    (repeat' apply And.intro) <;> first | decide +kernel | rfl | exact fun _ _ => rfl⟩

theorem holds_moveCommands_8 : ∃ (n : BitVec 16) (flaws : List Flaw) (s t : State),
    (Alive s) ∧
    (t = inject flaws s) ∧
    ((t.place.move = none ∨ ∃ m, t.place.move = some m ∧ (m.phase ≠ 2 ∨ m.waiting.contains n.toNat = false ∨ (n.toNat = ownId t ∧ writesInFlight m.job m.region t = true)))) :=
  ⟨5, [], movingJob, movingJob, by
    (repeat' apply And.intro) <;> first | decide +kernel | rfl | exact fun _ _ => rfl⟩

theorem holds_moveCommands_9 : ∃ (s : State) (m : Move) (n : Nat) (w u v : State),
    (Alive s) ∧
    (s.place.move = some m) ∧
    (m.phase = 3) ∧
    (copyDone m s = true) ∧
    (s.resil.draining = none) ∧
    (n = (match rmLookup m.job m.region s with | some e => e.size | none => 0)) ∧
    (w = rmMod m.job m.region (fun e => { e with move := 0, base := m.newBase, newBase := 0, place := if pgaSpace m.newBase = 1 then 1 else 2, lost := false }) s) ∧
    (u = (match regionOf m.job m.region w with
        | some x => setRegion m.job m.region (some { x with base := some m.newBase, pin := repin x.pin m.newBase }) w
        | none => w)) ∧
    (v = { u with place := { u.place with move := none, settling := u.place.settling ++ [{ job := m.job, region := m.region, oldBase := m.oldBase, size := n, flipAt := u.clk, waiting := otherModules m.job u, lastAck := u.clk }] } }) :=
  ⟨flippingJob, flipMove, 64, flipW, flipU, flipV, by
    (repeat' apply And.intro) <;> first | decide +kernel | rfl | exact fun _ _ => rfl⟩

theorem holds_moveCommands_10 : ∃ (s : State),
    (Alive s) ∧
    ((s.place.move = none ∨ ∃ m, s.place.move = some m ∧ (m.phase ≠ 3 ∨ copyDone m s = false ∨ s.resil.draining ≠ none))) :=
  ⟨up, by
    (repeat' apply And.intro) <;> first | decide +kernel | rfl | exact fun _ _ => rfl⟩

theorem holds_moveCommands_11 : ∃ (n : BitVec 16) (s : State),
    (Alive s) :=
  ⟨5, up, by
    (repeat' apply And.intro) <;> first | decide +kernel | rfl | exact fun _ _ => rfl⟩

theorem holds_moveCommands_12 : ∃ (s : State) (due : Settle → Bool),
    (Alive s) ∧
    (due = (fun x => x.waiting.isEmpty && ticksMs 40 ≤ since x.lastAck s)) :=
  ⟨{ up with clk := 20000000, place := { settling := [{ job := 1, flipAt := 0, lastAck := 0 }] } }, fun x => x.waiting.isEmpty && ticksMs 40 ≤ since x.lastAck { up with clk := 20000000, place := { settling := [{ job := 1, flipAt := 0, lastAck := 0 }] } }, by
    (repeat' apply And.intro) <;> first | decide +kernel | rfl | exact fun _ _ => rfl⟩

theorem holds_moveCommands_13 : ∃ (s : State) (m : Move) (w : Nat) (l : List Nat),
    (Alive s) ∧
    (s.place.move = some m) ∧
    (m.phase = 2) ∧
    (m.waiting = w :: l) ∧
    (ticksMs 50 ≤ since m.drainAt s) :=
  ⟨{ up with clk := 25000000, place := { move := some { phase := 2, waiting := [5] } } }, { phase := 2, waiting := [5] }, 5, [], by
    (repeat' apply And.intro) <;> first | decide +kernel | rfl | exact fun _ _ => rfl⟩

theorem holds_moveCommands_14 : ∃ (s : State),
    (Alive s) ∧
    ((s.place.move = none ∨ ∃ m, s.place.move = some m ∧ (m.phase ≠ 2 ∨ m.waiting = [] ∨ since m.drainAt s < ticksMs 50))) :=
  ⟨up, by
    (repeat' apply And.intro) <;> first | decide +kernel | rfl | exact fun _ _ => rfl⟩

theorem holds_moveCommands_15 : ∃ (s : State) (late : Settle → Option Nat) (x : Settle) (m : Nat),
    (Alive s) ∧
    (late = (fun x => if ticksMs 50 ≤ since x.flipAt s then x.waiting.find? (fun m => !x.told.contains m) else none)) ∧
    (s.place.settling.find? (fun x => (late x).isSome) = some x) ∧
    (late x = some m) :=
  ⟨lateFlip, fun x => if ticksMs 50 ≤ since x.flipAt lateFlip then x.waiting.find? (fun m => !x.told.contains m) else none, { job := 1, flipAt := 0, waiting := [5], lastAck := 0 }, 5, by
    (repeat' apply And.intro) <;> first | decide +kernel | rfl | exact fun _ _ => rfl⟩

theorem holds_moveCommands_16 : ∃ (s : State),
    (Alive s) ∧
    (s.place.settling.all (fun x => decide (since x.flipAt s < ticksMs 50) || x.waiting.all (fun m => x.told.contains m)) = true) :=
  ⟨up, by
    (repeat' apply And.intro) <;> first | decide +kernel | rfl | exact fun _ _ => rfl⟩

theorem holds_moveCommands_17a : ∃ (u : MoveUpdate) (s : State) (j k : Nat) (e : RmEntry),
    (serving s = true) ∧
    (s.glb.state ≠ .halted) ∧
    (jobOfTag u.jobTag s = some j) ∧
    (k = u.region.toNat) ∧
    (rmLookup j k s = some e) ∧
    (e.remote = true) ∧
    (pgaModule e.base = u.fromModule.toNat) :=
  ⟨⟨5, 9, 0, 2, 0, 77⟩, importing, 1, 0, rmEntry importing 0, by
    (repeat' apply And.intro) <;> first | decide +kernel | rfl | exact fun _ _ => rfl⟩

theorem holds_moveCommands_17b : ∃ (u : MoveUpdate) (s : State) (j k : Nat) (e : RmEntry),
    (serving s = true) ∧
    (s.glb.state ≠ .halted) ∧
    (jobOfTag u.jobTag s = some j) ∧
    (k = u.region.toNat) ∧
    (rmLookup j k s = some e) ∧
    (e.remote = true) ∧
    (pgaModule e.base = u.fromModule.toNat) :=
  ⟨⟨5, 9, 0, 0, 0, 77⟩, importing, 1, 0, rmEntry importing 0, by
    (repeat' apply And.intro) <;> first | decide +kernel | rfl | exact fun _ _ => rfl⟩

theorem holds_moveCommands_17c : ∃ (u : MoveUpdate) (s : State) (j k : Nat) (e : RmEntry),
    (serving s = true) ∧
    (s.glb.state ≠ .halted) ∧
    (jobOfTag u.jobTag s = some j) ∧
    (k = u.region.toNat) ∧
    (rmLookup j k s = some e) ∧
    (e.remote = true) ∧
    (pgaModule e.base = u.fromModule.toNat) :=
  ⟨⟨5, 9, 0, 1, 0, 77⟩, importing, 1, 0, rmEntry importing 0, by
    (repeat' apply And.intro) <;> first | decide +kernel | rfl | exact fun _ _ => rfl⟩

theorem holds_moveCommands_18 : ∃ (u : MoveUpdate) (s : State),
    (serving s = true) ∧
    (s.glb.state = .halted) :=
  ⟨⟨5, 9, 0, 2, 0, 77⟩, windowHalted, by
    (repeat' apply And.intro) <;> first | decide +kernel | rfl | exact fun _ _ => rfl⟩

theorem holds_laneCommands_1 : ∃ (u : Fin 22) (n : Fin 32) (s : State),
    (Fed s) ∧
    (u.val < 6) ∧
    (n.val < 8) ∧
    ((unitOf s u).trained = true) :=
  ⟨2, 3, trained2, by
    (repeat' apply And.intro) <;> first | decide +kernel | rfl | exact fun _ _ => rfl⟩

theorem holds_laneCommands_2 : ∃ (u : Fin 22) (n : Fin 32) (s : State),
    (Fed s) ∧
    (6 ≤ u.val) ∧
    (s.welt.powered = true) ∧
    ((laceOf s.welt.active n).isSome = true) ∧
    (hasLane u n s = true) :=
  ⟨8, 0, lacedEye, by
    (repeat' apply And.intro) <;> first | decide +kernel | rfl | exact fun _ _ => rfl⟩

theorem holds_laneCommands_3 : ∃ (u : Fin 22) (n : Fin 32) (s : State),
    (Fed s) ∧
    (6 ≤ u.val) ∧
    (s.welt.powered = true) ∧
    ((laceOf s.welt.active n).isSome = true) ∧
    ((List.range 16).all (fun e => match eyeletOf s e with | some x => !bit x.lanes n.val | none => true) = true) ∧
    (hasLane u n s = false) :=
  ⟨8, 7, { lacedEye with welt := { lacedEye.welt with active := [(7, some {}), (167, some {})] } }, by
    (repeat' apply And.intro) <;> first | decide +kernel | rfl | exact fun _ _ => rfl⟩

theorem holds_laneCommands_4 : ∃ (u : Fin 22) (n : Fin 32) (s : State),
    (Fed s) ∧
    (((u.val < 6 ∧ (8 ≤ n.val ∨ (unitOf s u).trained = false)) ∨ (6 ≤ u.val ∧ (s.welt.powered = false ∨ laceOf s.welt.active n = none)))) :=
  ⟨2, 3, up, by
    (repeat' apply And.intro) <;> first | decide +kernel | rfl | exact fun _ _ => rfl⟩

theorem holds_laneCommands_5 : ∃ (u : Fin 22) (n : Fin 32) (body : List Byte) (s : State) (l : Lane) (m : Nat) (v w : State),
    (Fed s) ∧
    (body.length = 505) ∧
    (hasLane u n s = true) ∧
    (l = laneOf s (laneKey u n)) ∧
    ((l.svc ≠ .out ∨ l.tried = true)) ∧
    (m = leNat (body.take 2)) ∧
    (v = modUnit u (fun x => { x with seenModule := m, seenUnit := leNat ((body.drop 2).take 1) }) (setLane (laneKey u n) { l with hello := true, seenModule := m, seenUnit := leNat ((body.drop 2).take 1), seenLane := leNat ((body.drop 3).take 1) } (bump u 1 1 s))) ∧
    (w = evalUnit 0x4001 u (forAll (unitLanes u v) (fun k w =>
        modLane (laneKey u k) (fun l => { l with heard := leNat ((body.drop 8).take 4) / 2 ^ k % 2 = 1 }) w) v)) :=
  ⟨2, 3, List.replicate 505 0, trained2, laneOf trained2 (laneKey 2 3), 0, modUnit 2 (fun x => { x with seenModule := 0, seenUnit := 0 }) (setLane (laneKey 2 3) { laneOf trained2 (laneKey 2 3) with hello := true, seenModule := 0, seenUnit := 0, seenLane := 0 } (bump 2 1 1 trained2)), evalUnit 0x4001 2 (let v := modUnit 2 (fun x => { x with seenModule := 0, seenUnit := 0 }) (setLane (laneKey 2 3) { laneOf trained2 (laneKey 2 3) with hello := true, seenModule := 0, seenUnit := 0, seenLane := 0 } (bump 2 1 1 trained2)); forAll (unitLanes 2 v) (fun k w => modLane (laneKey 2 k) (fun l => { l with heard := false }) w) v), by
    (repeat' apply And.intro) <;> first | decide +kernel | rfl | exact fun _ _ => rfl⟩

theorem holds_laneCommands_6 : ∃ (u : Fin 22) (n : Fin 32) (body : List Byte) (s : State),
    (Fed s) ∧
    (body.length = 505) ∧
    (hasLane u n s = false) :=
  ⟨8, 3, List.replicate 505 0, up, by
    (repeat' apply And.intro) <;> first | decide +kernel | rfl | exact fun _ _ => rfl⟩

theorem holds_laneCommands_7 : ∃ (u : Fin 22) (n : Fin 32) (body : List Byte) (s : State),
    (Fed s) ∧
    (body.length = 505) ∧
    (hasLane u n s = true) ∧
    ((laneOf s (laneKey u n)).svc = .out) ∧
    ((laneOf s (laneKey u n)).tried = false) :=
  ⟨2, 3, List.replicate 505 0, lanesWith { svc := .out }, by
    (repeat' apply And.intro) <;> first | decide +kernel | rfl | exact fun _ _ => rfl⟩

theorem holds_laneCommands_8 : ∃ (u : Fin 22) (n : Fin 32) (body : List Byte) (s : State),
    (body.length ≠ 505) :=
  ⟨2, 3, [], up, by
    (repeat' apply And.intro) <;> first | decide +kernel | rfl | exact fun _ _ => rfl⟩

theorem holds_laneCommands_9a : ∃ (u : Fin 22) (n : Fin 32) (s : State) (l : Lane) (v : State),
    (Fed s) ∧
    (hasLane u n s = true) ∧
    (l = laneOf s (laneKey u n)) ∧
    (v = (if 6 ≤ u.val ∧ l.locked = true ∧ l.lock = false then bump u 5 1 s else s)) :=
  ⟨2, 3, trained2, laneOf trained2 (laneKey 2 3), trained2, by
    (repeat' apply And.intro) <;> first | decide +kernel | rfl | exact fun _ _ => rfl⟩

theorem holds_laneCommands_9b : ∃ (u : Fin 22) (n : Fin 32) (s : State) (l : Lane) (v : State),
    (Fed s) ∧
    (hasLane u n s = true) ∧
    (l = laneOf s (laneKey u n)) ∧
    (v = (if 6 ≤ u.val ∧ l.locked = true ∧ l.lock = false then bump u 5 1 s else s)) :=
  ⟨8, 0, lacedLost, laneOf lacedLost (laneKey 8 0), bump 8 5 1 lacedLost, by
    (repeat' apply And.intro) <;> first | decide +kernel | rfl | exact fun _ _ => rfl⟩

theorem holds_laneCommands_10 : ∃ (u : Fin 22) (n : Fin 32) (s : State),
    (Fed s) ∧
    (hasLane u n s = false) :=
  ⟨8, 3, up, by
    (repeat' apply And.intro) <;> first | decide +kernel | rfl | exact fun _ _ => rfl⟩

theorem holds_laneCommands_11 : ∃ (u : Fin 22) (n : Fin 32) (s : State) (l : Lane) (v : State),
    (Fed s) ∧
    (hasLane u n s = true) ∧
    (laneLive u n s = true) ∧
    (l = laneOf s (laneKey u n)) ∧
    (l.svc ≠ .out) ∧
    ((∀ t, l.quiet = some t → 5000000 ≤ siteDiff (siteNow s) t)) ∧
    (v = modLane (laneKey u n) (fun l => { l with lock := false, hello := false }) s) :=
  ⟨2, 3, { trained2 with fabric := { trained2.fabric with lanes := [(20, { lock := true, svc := .inService })] } }, {}, modLane (laneKey 2 3) (fun l => { l with lock := false, hello := false }) { trained2 with fabric := { trained2.fabric with lanes := [(20, { lock := true, svc := .inService })] } }, by
    (repeat' apply And.intro) <;> first | exact (fun _ h => nomatch h) | decide +kernel | rfl | exact fun _ _ => rfl⟩

theorem holds_laneCommands_12 : ∃ (u : Fin 22) (n : Fin 32) (s : State) (l : Lane),
    (Fed s) ∧
    (hasLane u n s = true) ∧
    (laneLive u n s = true) ∧
    (l = laneOf s (laneKey u n)) ∧
    (l.svc ≠ .out) ∧
    ((∀ t, l.quiet = some t → 5000000 ≤ siteDiff (siteNow s) t)) :=
  ⟨2, 3, lanesWith { svc := .inService }, { svc := .inService }, by
    (repeat' apply And.intro) <;> first | exact (fun _ h => nomatch h) | decide +kernel | rfl | exact fun _ _ => rfl⟩

theorem holds_laneCommands_13 : ∃ (u : Fin 22) (n : Fin 32) (deaf : Bool) (s : State),
    (Fed s) ∧
    ((hasLane u n s = false ∨ laneLive u n s = false ∨ (laneOf s (laneKey u n)).svc = .out ∨ ∃ t, (laneOf s (laneKey u n)).quiet = some t ∧ siteDiff (siteNow s) t < 5000000)) :=
  ⟨2, 3, true, up, by
    (repeat' apply And.intro) <;> first | decide +kernel | rfl | exact fun _ _ => rfl⟩

theorem holds_laneCommands_14a : ∃ (u : Fin 22) (n : Fin 32) (unc corr recv : Nat) (s v : State),
    (Fed s) ∧
    (hasLane u n s = true) ∧
    ((laneOf s (laneKey u n)).svc = .inService) ∧
    (v = (if unc = 0 then s else setLane (laneKey u n) { laneOf s (laneKey u n) with badAt := some s.clk } s)) :=
  ⟨2, 3, 17, 0, 20, lanesWith { svc := .inService }, lanesWith { svc := .inService, badAt := some 0 }, by
    (repeat' apply And.intro) <;> first | decide +kernel | rfl | exact fun _ _ => rfl⟩

theorem holds_laneCommands_14b : ∃ (u : Fin 22) (n : Fin 32) (unc corr recv : Nat) (s v : State),
    (Fed s) ∧
    (hasLane u n s = true) ∧
    ((laneOf s (laneKey u n)).svc = .inService) ∧
    (v = (if unc = 0 then s else setLane (laneKey u n) { laneOf s (laneKey u n) with badAt := some s.clk } s)) :=
  ⟨2, 3, 0, 1, 9999, lanesWith { svc := .inService }, lanesWith { svc := .inService }, by
    (repeat' apply And.intro) <;> first | decide +kernel | rfl | exact fun _ _ => rfl⟩

theorem holds_laneCommands_15 : ∃ (u : Fin 22) (n : Fin 32) (unc corr recv : Nat) (s : State),
    (Fed s) ∧
    (hasLane u n s = false) :=
  ⟨8, 3, 17, 0, 20, up, by
    (repeat' apply And.intro) <;> first | decide +kernel | rfl | exact fun _ _ => rfl⟩

theorem holds_laneCommands_16 : ∃ (u : Fin 22) (n : Fin 32) (s : State) (l : Lane) (q : Bool),
    (Fed s) ∧
    (l = laneOf s (laneKey u n)) ∧
    (q = (hasLane u n s && (decide (l.svc = .out) || l.deaf) && decide (ticksS 10 ≤ since l.outAt s))) :=
  ⟨2, 3, { lanesWith { svc := .out } with clk := 5000000000 }, { svc := .out }, true, by
    (repeat' apply And.intro) <;> first | decide +kernel | rfl | exact fun _ _ => rfl⟩

theorem holds_laneCommands_17 : ∃ (u : Fin 22) (n : Fin 32) (s : State) (l : Lane),
    (Fed s) ∧
    (hasLane u n s = true) ∧
    (l = laneOf s (laneKey u n)) ∧
    ((l.svc = .out ∨ l.deaf = true)) ∧
    (l.tried = true) ∧
    (l.lock = true) ∧
    (ticksS 1 ≤ since l.lockAt s) ∧
    ((∀ t, l.badAt = some t → ticksS 1 ≤ since t s)) :=
  ⟨2, 3, { lanesWith { svc := .out, tried := true, lock := true } with clk := 5000000000 }, { svc := .out, tried := true, lock := true }, by
    (repeat' apply And.intro) <;> first | decide +kernel | rfl | exact fun _ _ => rfl⟩

theorem holds_laneCommands_18 : ∃ (u : Fin 22) (n : Fin 32) (s : State) (l : Lane),
    (Fed s) ∧
    (l = laneOf s (laneKey u n)) ∧
    ((hasLane u n s = false ∨ (l.svc ≠ .out ∧ l.deaf = false) ∨ l.tried = false ∨ l.lock = false ∨ since l.lockAt s < ticksS 1 ∨ ∃ t, l.badAt = some t ∧ since t s < ticksS 1)) :=
  ⟨2, 3, trained2, laneOf trained2 (laneKey 2 3), by
    (repeat' apply And.intro) <;> first | decide +kernel | rfl | exact fun _ _ => rfl⟩

theorem holds_laneCommands_19 : ∃ (u : Fin 22) (s : State) (n : Nat),
    (Fed s) ∧
    ((unitOf s u).badSince = some n) ∧
    ((unitOf s u).missing = false) ∧
    (ticksMs 1 ≤ since n s) ∧
    ((unitOf s u).graceEnd ≤ s.clk) :=
  ⟨2, { trained2 with clk := 600000, fabric := { trained2.fabric with units := [(2, { badSince := some 0 })] } }, 0, by
    (repeat' apply And.intro) <;> first | decide +kernel | rfl | exact fun _ _ => rfl⟩

theorem holds_laneCommands_20 : ∃ (u : Fin 22) (s : State),
    (Fed s) ∧
    (((unitOf s u).missing = true ∨ s.clk < (unitOf s u).graceEnd ∨ ∀ n, (unitOf s u).badSince = some n → since n s < ticksMs 1)) :=
  ⟨2, up, by
    (repeat' apply And.intro) <;> first | decide +kernel | rfl | exact fun _ _ => rfl⟩

theorem holds_laneCommands_21 : ∃ (p : Fin 6) (s t : State),
    (Fed s) ∧
    ((unitOf s p).retrainAt = none) ∧
    (t = setUnit p { unitOf s p with trained := true } s) :=
  ⟨2, up, setUnit 2 { unitOf up 2 with trained := true } up, by
    (repeat' apply And.intro) <;> first | decide +kernel | rfl | exact fun _ _ => rfl⟩

theorem holds_laneCommands_22 : ∃ (p : Fin 6) (s : State) (k : Nat) (u v w : State),
    (Fed s) ∧
    ((unitOf s p).retrainAt = some k) ∧
    (u = setUnit p { unitOf s p with retrainAt := none } s) ∧
    (v = forAll (List.range 8) (fun n w => modLane (8 * p.val + n) (fun l => { l with lock := true, lockAt := u.clk }) w) u) ∧
    (w = evalUnit 0x400A p (raise 0x400A 1 [word p, 1, word (since k v / 500)] v)) :=
  ⟨2, retraining2, 0, setUnit 2 { unitOf retraining2 2 with retrainAt := none } retraining2, forAll (List.range 8) (fun n w => modLane (16 + n) (fun l => { l with lock := true, lockAt := retraining2.clk }) w) (setUnit 2 { unitOf retraining2 2 with retrainAt := none } retraining2), (let v := forAll (List.range 8) (fun n w => modLane (16 + n) (fun l => { l with lock := true, lockAt := retraining2.clk }) w) (setUnit 2 { unitOf retraining2 2 with retrainAt := none } retraining2); evalUnit 0x400A 2 (raise 0x400A 1 [2, 1, word (since 0 v / 500)] v)), by
    (repeat' apply And.intro) <;> first | decide +kernel | rfl | exact fun _ _ => rfl⟩

theorem holds_laneCommands_23 : ∃ (p : Fin 6) (s : State),
    (Fed s) :=
  ⟨2, up, by
    (repeat' apply And.intro) <;> first | decide +kernel | rfl | exact fun _ _ => rfl⟩

theorem holds_laneCommands_24 : ∃ (q : BitVec 16) (s : State) (i : Nat) (e : Entry) (u : State),
    (Fed s) ∧
    (s.sched.entries.find? (fun e => e.2.st = .armed && e.2.action = 1 && e.2.seq = q && !e.2.quiesced) = some (i, e)) ∧
    (-100000 ≤ siteDiff (siteNow s) e.instant) ∧
    (u = setSched i { e with quiesced := true } s) :=
  ⟨7, { up with sched := { entries := [(3, { st := .armed, action := 1, seq := 7 })] } }, 3, { st := .armed, action := 1, seq := 7 }, setSched 3 { st := .armed, action := 1, seq := 7, quiesced := true } { up with sched := { entries := [(3, { st := .armed, action := 1, seq := 7 })] } }, by
    (repeat' apply And.intro) <;> first | decide +kernel | rfl | exact fun _ _ => rfl⟩

theorem holds_laneCommands_25 : ∃ (q : BitVec 16) (s : State),
    (Fed s) ∧
    ((∀ i e, s.sched.entries.find? (fun e => e.2.st = .armed && e.2.action = 1 && e.2.seq = q && !e.2.quiesced) = some (i, e) → siteDiff (siteNow s) e.instant < -100000)) :=
  ⟨7, up, by
    (repeat' apply And.intro) <;> first | exact (fun _ _ h => nomatch h) | decide +kernel | rfl | exact fun _ _ => rfl⟩

theorem holds_laneCommands_26 : ∃ (n : Fin 32) (s : State) (t : BitVec 48),
    (Fed s) ∧
    ((laneOf s (48 + n.val)).quiet = some t) ∧
    ((laneOf s (48 + n.val)).lock = true) ∧
    ((laneOf s (48 + n.val)).heard = true) ∧
    (0 ≤ siteDiff (siteNow s) t) :=
  ⟨3, { up with fabric := { lanes := [(51, { lock := true, heard := true, quiet := some 0 })] } }, 0, by
    (repeat' apply And.intro) <;> first | decide +kernel | rfl | exact fun _ _ => rfl⟩

theorem holds_laneCommands_27 : ∃ (n : Fin 32) (s : State),
    (Fed s) ∧
    ((∀ t, (laneOf s (48 + n.val)).quiet = some t → ((laneOf s (48 + n.val)).lock = false ∨ (laneOf s (48 + n.val)).heard = false ∨ siteDiff (siteNow s) t < 0))) :=
  ⟨3, up, by
    (repeat' apply And.intro) <;> first | exact (fun _ h => nomatch h) | decide +kernel | rfl | exact fun _ _ => rfl⟩

theorem holds_packetCommands_1 : ∃ (u : Fin 22) (n : Fin 32) (cw : Codeword) (s : State),
    (Fed s) ∧
    (cw.body.length = 505) ∧
    (hasLane u n s = true) ∧
    (16 < cw.symErrs) :=
  ⟨2, 3, ⟨17, 0, List.replicate 505 0⟩, trained2, by
    (repeat' apply And.intro) <;> first | decide +kernel | rfl | exact fun _ _ => rfl⟩

theorem holds_packetCommands_2 : ∃ (u : Fin 22) (n : Fin 32) (cw : Codeword) (s : State),
    (Fed s) ∧
    (cw.body.length = 505) ∧
    (hasLane u n s = true) ∧
    (cw.symErrs ≤ 16) ∧
    (((laneOf s (laneKey u n)).svc ≠ .out ∨ (laneOf s (laneKey u n)).tried = true)) :=
  ⟨2, 3, ⟨0, 0, List.replicate 505 0⟩, trained2, by
    (repeat' apply And.intro) <;> first | decide +kernel | rfl | exact fun _ _ => rfl⟩

theorem holds_packetCommands_3a : ∃ (u : Fin 22) (n : Fin 32) (cw : Codeword) (s : State),
    (Fed s) ∧
    (cw.body.length = 505) ∧
    ((hasLane u n s = false ∨ (cw.symErrs ≤ 16 ∧ (laneOf s (laneKey u n)).svc = .out ∧ (laneOf s (laneKey u n)).tried = false))) :=
  ⟨8, 3, ⟨0, 0, List.replicate 505 0⟩, up, by
    (repeat' apply And.intro) <;> first | decide +kernel | rfl | exact fun _ _ => rfl⟩

theorem holds_packetCommands_3b : ∃ (u : Fin 22) (n : Fin 32) (cw : Codeword) (s : State),
    (Fed s) ∧
    (cw.body.length = 505) ∧
    ((hasLane u n s = false ∨ (cw.symErrs ≤ 16 ∧ (laneOf s (laneKey u n)).svc = .out ∧ (laneOf s (laneKey u n)).tried = false))) :=
  ⟨2, 3, ⟨0, 0, List.replicate 505 0⟩, lanesWith { svc := .out }, by
    (repeat' apply And.intro) <;> first | decide +kernel | rfl | exact fun _ _ => rfl⟩

theorem holds_packetCommands_4 : ∃ (u : Fin 22) (n : Fin 32) (cw : Codeword) (s : State),
    (cw.body.length ≠ 505) :=
  ⟨2, 3, ⟨0, 0, []⟩, up, by
    (repeat' apply And.intro) <;> first | decide +kernel | rfl | exact fun _ _ => rfl⟩

theorem holds_packetCommands_5 : ∃ (p : Fin 6) (ack : BitVec 16) (s : State),
    (Fed s) :=
  ⟨2, 0, trained2, by
    (repeat' apply And.intro) <;> first | decide +kernel | rfl | exact fun _ _ => rfl⟩

theorem holds_packetCommands_6a : ∃ (p : Nat) (ack : BitVec 16) (k : Nat) (s : State),
    (k = (match (unitOf s p).replay with | some r => if r.1 = ack then r.2 + 1 else 1 | none => 1)) :=
  ⟨2, 0, 1, trained2, by
    (repeat' apply And.intro) <;> first | decide +kernel | rfl | exact fun _ _ => rfl⟩

theorem holds_packetCommands_6b : ∃ (p : Nat) (ack : BitVec 16) (k : Nat) (s : State),
    (k = (match (unitOf s p).replay with | some r => if r.1 = ack then r.2 + 1 else 1 | none => 1)) :=
  ⟨2, 0, 8, { up with fabric := { units := [(2, { trained := true, replay := some (0, 7) })] } }, by
    (repeat' apply And.intro) <;> first | decide +kernel | rfl | exact fun _ _ => rfl⟩

theorem holds_packetCommands_7 : ∃ (e : Fin 16) (s : State) (t : Nat),
    (Fed s) ∧
    ((unitOf s (6 + e.val)).gapAt = some t) :=
  ⟨2, { up with clk := 5000, fabric := { units := [(8, { gapAt := some 0 })] } }, 0, by
    (repeat' apply And.intro) <;> first | decide +kernel | rfl | exact fun _ _ => rfl⟩

theorem holds_packetCommands_8 : ∃ (e : Fin 16) (s : State),
    (Fed s) ∧
    ((unitOf s (6 + e.val)).gapAt = none) :=
  ⟨2, up, by
    (repeat' apply And.intro) <;> first | decide +kernel | rfl | exact fun _ _ => rfl⟩

theorem holds_packetCommands_9 : ∃ (u : Fin 22) (s v : State),
    (Fed s) ∧
    (v = meshSettle s) ∧
    (unitCarries u v = true) ∧
    ((dealLane u true v).isSome = true) :=
  ⟨2, sending, sending, by
    (repeat' apply And.intro) <;> first | decide +kernel | rfl | exact fun _ _ => rfl⟩

theorem holds_packetCommands_10 : ∃ (u : Fin 22) (s v : State),
    (Fed s) ∧
    (v = meshSettle s) ∧
    ((unitCarries u v = false ∨ dealLane u true v = none)) :=
  ⟨2, trained2, trained2, by
    (repeat' apply And.intro) <;> first | decide +kernel | rfl | exact fun _ _ => rfl⟩

theorem holds_packetCommands_11a : ∃ (u : Fin 22) (b : Fin 8) (s : State) (p : Pkt) (l : List Pkt) (v : State),
    (Fed s) ∧
    (tget [] (unitOf s u).rxq b = p :: l) ∧
    (v = popBuffer u b s) :=
  ⟨2, 1, forwarding, sendPkt, [], popBuffer 2 1 forwarding, by
    (repeat' apply And.intro) <;> first | decide +kernel | rfl | exact fun _ _ => rfl⟩

theorem holds_packetCommands_11b : ∃ (u : Fin 22) (b : Fin 8) (s : State) (p : Pkt) (l : List Pkt) (v : State),
    (Fed s) ∧
    (tget [] (unitOf s u).rxq b = p :: l) ∧
    (v = popBuffer u b s) :=
  ⟨8, 1, arrived, { cls := 1 }, [], popBuffer 8 1 arrived, by
    (repeat' apply And.intro) <;> first | decide +kernel | rfl | exact fun _ _ => rfl⟩

theorem holds_packetCommands_11c : ∃ (u : Fin 22) (b : Fin 8) (s : State) (p : Pkt) (l : List Pkt) (v : State),
    (Fed s) ∧
    (tget [] (unitOf s u).rxq b = p :: l) ∧
    (v = popBuffer u b s) :=
  ⟨8, 1, { up with fabric := { units := [(8, { rxq := [(1, [{ cls := 1, dest := 9 }])] })] } }, { cls := 1, dest := 9 }, [], popBuffer 8 1 { up with fabric := { units := [(8, { rxq := [(1, [{ cls := 1, dest := 9 }])] })] } }, by
    (repeat' apply And.intro) <;> first | decide +kernel | rfl | exact fun _ _ => rfl⟩

theorem holds_packetCommands_12 : ∃ (u : Fin 22) (b : Fin 8) (s : State),
    (Fed s) ∧
    (tget [] (unitOf s u).rxq b = []) :=
  ⟨2, 1, up, by
    (repeat' apply And.intro) <;> first | decide +kernel | rfl | exact fun _ _ => rfl⟩

theorem holds_scheduleEvents_1 : ∃ (s : State) (i : Nat) (e : Entry),
    (Alive s) ∧
    (firstEntry (entDue s) s = some (i, e)) :=
  ⟨dueUp, 2, tget {} dueUp.sched.entries 2, by
    (repeat' apply And.intro) <;> first | decide +kernel | rfl | exact fun _ _ => rfl⟩

theorem holds_scheduleEvents_2 : ∃ (s : State),
    (Alive s) ∧
    (firstEntry (entDue s) s = none) :=
  ⟨up, by
    (repeat' apply And.intro) <;> first | decide +kernel | rfl | exact fun _ _ => rfl⟩

theorem holds_scheduleEvents_3a : ∃ (i : Nat) (e : Entry) (s u : State),
    (u = setSched i { e with st := .firing, late := e.passed } s) :=
  ⟨2, { action := 5 }, dueUp, setSched 2 { action := 5, st := .firing } dueUp, by
    (repeat' apply And.intro) <;> first | decide +kernel | rfl | exact fun _ _ => rfl⟩

theorem holds_scheduleEvents_3b : ∃ (i : Nat) (e : Entry) (s u : State),
    (u = setSched i { e with st := .firing, late := e.passed } s) :=
  ⟨2, { action := 2, arg := 1 }, dueUp, setSched 2 { action := 2, arg := 1, st := .firing } dueUp, by
    (repeat' apply And.intro) <;> first | decide +kernel | rfl | exact fun _ _ => rfl⟩

theorem holds_scheduleEvents_4 : ∃ (s : State),
    (Fed s) ∧
    (s.welt.relace = none) :=
  ⟨up, by
    (repeat' apply And.intro) <;> first | decide +kernel | rfl | exact fun _ _ => rfl⟩

theorem holds_scheduleEvents_5 : ∃ (s : State) (x : Relace) (us : Nat) (u : State),
    (Fed s) ∧
    (s.welt.relace = some x) ∧
    (relaceDone x s = true) ∧
    (us = since x.tick s / 500) ∧
    (u = relaceEvent x us false s) :=
  ⟨relaced, { t := 5, tick := 0, touched := [], failed := [], entry := 3 }, 2000, relaceEvent { t := 5, tick := 0, touched := [], failed := [], entry := 3 } 2000 false relaced, by
    (repeat' apply And.intro) <;> first | decide +kernel | rfl | exact fun _ _ => rfl⟩

theorem holds_scheduleEvents_6 : ∃ (s : State) (x : Relace),
    (Fed s) ∧
    (s.welt.relace = some x) ∧
    (relaceDone x s = false) :=
  ⟨{ relaced with welt := { relaced.welt with active := [(8, some { outlet := 96 })], relace := some { t := 5, tick := 0, touched := [8], failed := [], entry := 3 } } }, { t := 5, tick := 0, touched := [8], failed := [], entry := 3 }, by
    (repeat' apply And.intro) <;> first | decide +kernel | rfl | exact fun _ _ => rfl⟩

theorem holds_laceEvents_1 : ∃ (i : Fin 320) (n : Nat) (s u : State),
    (Fed s) ∧
    ((runOf s i).darkSince = some n) ∧
    (50000 ≤ since n s) ∧
    (((runOf s i).st = .settling ∨ (runOf s i).st = .locked ∨ (runOf s i).st = .unlocked)) ∧
    (inletPower i s < -1966080) ∧
    (u = { s with welt := { s.welt with laces := tset {} s.welt.laces i { st := .dark } } }) :=
  ⟨7, 0, { laced { st := .locked, darkSince := some 0 } (-3000000) with clk := 50000 }, { laced { st := .locked } (-3000000) with clk := 50000, welt := { (laced { st := .locked } (-3000000)).welt with laces := [(7, { st := .dark })] } }, by
    (repeat' apply And.intro) <;> first | decide +kernel | rfl | exact fun _ _ => rfl⟩

theorem holds_laceEvents_2 : ∃ (i : Fin 320) (s u : State),
    (Fed s) ∧
    ((runOf s i).st = .dark) ∧
    (-1835008 < inletPower i s) ∧
    (u = settle i s) :=
  ⟨7, laced { st := .dark } 0, settle 7 (laced { st := .dark } 0), by
    (repeat' apply And.intro) <;> first | decide +kernel | rfl | exact fun _ _ => rfl⟩

theorem holds_laceEvents_3 : ∃ (i : Fin 320) (s : State),
    (Fed s) ∧
    ((runOf s i).st = .settling) ∧
    (5000000 ≤ since (runOf s i).settleAt s) :=
  ⟨7, laced { st := .settling } 0, by
    (repeat' apply And.intro) <;> first | decide +kernel | rfl | exact fun _ _ => rfl⟩

theorem holds_laceEvents_4 : ∃ (i : Fin 320) (s : State) (t : Nat),
    (Fed s) ∧
    ((runOf s i).st = .locked) ∧
    ((runOf s i).outSince = some t) ∧
    (500000 ≤ since t s) ∧
    (-1966080 ≤ inletPower i s) :=
  ⟨7, laced { st := .locked, outSince := some 0 } 0, 0, by
    (repeat' apply And.intro) <;> first | decide +kernel | rfl | exact fun _ _ => rfl⟩

theorem holds_laceEvents_5 : ∃ (i : Fin 320) (s : State) (t : Nat) (u : State),
    (Fed s) ∧
    ((runOf s i).st = .locked) ∧
    ((runOf s i).lossSince = some t) ∧
    ((runOf s i).lossTold = false) ∧
    (500000000 ≤ since t s) ∧
    (u = setRun i { runOf s i with lossTold := true } s) :=
  ⟨7, laced { st := .locked, lossSince := some 0 } 0, 0, setRun 7 { runOf (laced { st := .locked, lossSince := some 0 } 0) 7 with lossTold := true } (laced { st := .locked, lossSince := some 0 } 0), by
    (repeat' apply And.intro) <;> first | decide +kernel | rfl | exact fun _ _ => rfl⟩

theorem holds_laceEvents_6 : ∃ (p : Fin 2) (s : State),
    (Fed s) ∧
    (s.welt.powered = true) ∧
    ((planeOf s p).origin + (planeOf s p).k * ((planeOf s p).ts / 2) ≤ s.clk) :=
  ⟨1, relaced, by
    (repeat' apply And.intro) <;> first | decide +kernel | rfl | exact fun _ _ => rfl⟩

theorem holds_laceEvents_7 : ∃ (p : Fin 2) (s : State),
    (Fed s) ∧
    ((s.welt.powered = false ∨ s.clk < (planeOf s p).origin + (planeOf s p).k * ((planeOf s p).ts / 2))) :=
  ⟨1, up, by
    (repeat' apply And.intro) <;> first | decide +kernel | rfl | exact fun _ _ => rfl⟩

theorem holds_laceEvents_8a : ∃ (i : Fin 320) (s : State),
    (Fed s) ∧
    (((runOf s i).st = .idle ∨ (runOf s i).st = .forced)) :=
  ⟨7, up, by
    (repeat' apply And.intro) <;> first | decide +kernel | rfl | exact fun _ _ => rfl⟩

theorem holds_laceEvents_8b : ∃ (i : Fin 320) (s : State),
    (Fed s) ∧
    (((runOf s i).st = .idle ∨ (runOf s i).st = .forced)) :=
  ⟨7, laced { st := .forced } 0, by
    (repeat' apply And.intro) <;> first | decide +kernel | rfl | exact fun _ _ => rfl⟩

theorem holds_laceEvents_9 : ∃ (i : Fin 320) (s : State),
    (Fed s) ∧
    (((runOf s i).darkSince = none ∨ -1966080 ≤ inletPower i s ∨ ∃ n, (runOf s i).darkSince = some n ∧ since n s < 50000)) :=
  ⟨7, laced { st := .locked } 0, by
    (repeat' apply And.intro) <;> first | decide +kernel | rfl | exact fun _ _ => rfl⟩

theorem holds_laceEvents_10 : ∃ (i : Fin 320) (s : State),
    (Fed s) ∧
    (((runOf s i).st ≠ .dark ∨ inletPower i s ≤ -1835008)) :=
  ⟨7, laced { st := .locked } 0, by
    (repeat' apply And.intro) <;> first | decide +kernel | rfl | exact fun _ _ => rfl⟩

theorem holds_laceEvents_11 : ∃ (i : Fin 320) (s : State),
    (Fed s) ∧
    (((runOf s i).st ≠ .settling ∨ since (runOf s i).settleAt s < 5000000)) :=
  ⟨7, laced { st := .locked } 0, by
    (repeat' apply And.intro) <;> first | decide +kernel | rfl | exact fun _ _ => rfl⟩

theorem holds_laceEvents_12 : ∃ (i : Fin 320) (s : State),
    (Fed s) ∧
    (((runOf s i).st ≠ .locked ∨ inletPower i s < -1966080 ∨ (∀ t, (runOf s i).outSince = some t → since t s < 500000))) :=
  ⟨7, laced { st := .locked } 0, by
    (repeat' apply And.intro) <;> first | decide +kernel | rfl | exact fun _ _ => rfl⟩

theorem holds_laceEvents_13 : ∃ (i : Fin 320) (s : State),
    (Fed s) ∧
    (((runOf s i).st ≠ .locked ∨ (runOf s i).lossTold = true ∨ (∀ t, (runOf s i).lossSince = some t → since t s < 500000000))) :=
  ⟨7, laced { st := .locked } 0, by
    (repeat' apply And.intro) <;> first | decide +kernel | rfl | exact fun _ _ => rfl⟩

theorem holds_laceEvents_14 : ∃ (i : Nat) (s u : State),
    (s.welt.relace = none) ∧
    (u = setRun i { st := .unlocked } s) :=
  ⟨7, up, setRun 7 { st := .unlocked } up, by
    (repeat' apply And.intro) <;> first | decide +kernel | rfl | exact fun _ _ => rfl⟩

theorem holds_calibrationEvents_1 : ∃ (g : Fin 32) (l : List Reading) (s t u : State),
    (Alive s) ∧
    (t = forAll (groupSlow g) (fun k => setStale k (refHolds g (runProgress s))) (runProgress s)) ∧
    (u = forAll (groupTaps g ++ (slowReading g t).toList) (deliverReading g l) t) :=
  ⟨3, [], up, forAll (groupSlow 3) (fun k => setStale k (refHolds 3 (runProgress up))) (runProgress up), (let t := forAll (groupSlow 3) (fun k => setStale k (refHolds 3 (runProgress up))) (runProgress up); forAll (groupTaps 3 ++ (slowReading 3 t).toList) (deliverReading 3 []) t), by
    (repeat' apply And.intro) <;> first | decide +kernel | rfl | exact fun _ _ => rfl⟩

theorem holds_calibrationEvents_2 : ∃ (g : Nat) (l : List Reading) (key : Nat) (s u : State),
    (refHolds g s = false) ∧
    (procHolds key s = false) ∧
    (u = useFresh 1 (setStale key false s)) :=
  ⟨3, [⟨1, 0, 65536⟩], 8192, up, useFresh 1 (setStale 8192 false up), by
    (repeat' apply And.intro) <;> first | decide +kernel | rfl | exact fun _ _ => rfl⟩

theorem holds_calibrationEvents_4a : ∃ (a b : Int) (s : State),
    (Alive s) :=
  ⟨1200000, 1203000, up, by
    (repeat' apply And.intro) <;> first | decide +kernel | rfl | exact fun _ _ => rfl⟩

theorem holds_calibrationEvents_4b : ∃ (a b : Int) (s : State),
    (Alive s) :=
  ⟨1200000, 1202400, up, by
    (repeat' apply And.intro) <;> first | decide +kernel | rfl | exact fun _ _ => rfl⟩

theorem holds_calibrationEvents_5 : ∃ (s : State) (t : Nat),
    (Alive s) ∧
    (s.mon.bgSince = some t) ∧
    (5000000 ≤ since t s) ∧
    (s.mon.bgTold = false) :=
  ⟨apart, 0, by
    (repeat' apply And.intro) <;> first | decide +kernel | rfl | exact fun _ _ => rfl⟩

theorem holds_calibrationEvents_6 : ∃ (s : State),
    (Alive s) ∧
    ((s.mon.bgTold = true ∨ ∀ t, s.mon.bgSince = some t → since t s < 5000000)) :=
  ⟨up, by
    (repeat' apply And.intro) <;> first | decide +kernel | rfl | exact fun _ _ => rfl⟩

theorem holds_calibrationEvents_7a : ∃ (s : State) (i : Nat) (t : Q) (u : State),
    (Alive s) ∧
    (calBusy s = false) ∧
    (drifted s = some (i, t)) ∧
    (u = raise 0x6004 1 [word i, qWord (reading 1 i s), qWord t] s) :=
  ⟨driftedUp, 0, 1310720, raise 0x6004 1 [word 0, qWord (reading 1 0 driftedUp), qWord 1310720] driftedUp, by
    (repeat' apply And.intro) <;> first | decide +kernel | rfl | exact fun _ _ => rfl⟩

theorem holds_calibrationEvents_7b : ∃ (s : State) (i : Nat) (t : Q) (u : State),
    (Alive s) ∧
    (calBusy s = false) ∧
    (drifted s = some (i, t)) ∧
    (u = raise 0x6004 1 [word i, qWord (reading 1 i s), qWord t] s) :=
  ⟨{ driftedUp with welt := relaced.welt }, 0, 1310720, raise 0x6004 1 [word 0, qWord (reading 1 0 { driftedUp with welt := relaced.welt }), qWord 1310720] { driftedUp with welt := relaced.welt }, by
    (repeat' apply And.intro) <;> first | decide +kernel | rfl | exact fun _ _ => rfl⟩

theorem holds_calibrationEvents_8 : ∃ (s : State),
    (Alive s) ∧
    ((calBusy s = true ∨ drifted s = none)) :=
  ⟨up, by
    (repeat' apply And.intro) <;> first | decide +kernel | rfl | exact fun _ _ => rfl⟩

theorem holds_calibrationEvents_11 : ∃ (s : State) (t : Nat),
    (Alive s) ∧
    (s.mon.deferred = some t) ∧
    ((relaceNear s = false ∨ 5000000000 ≤ since t s)) :=
  ⟨{ up with mon := { deferred := some 0 } }, 0, by
    (repeat' apply And.intro) <;> first | decide +kernel | rfl | exact fun _ _ => rfl⟩

theorem holds_calibrationEvents_12 : ∃ (s : State),
    (Alive s) ∧
    ((∀ t, s.mon.deferred = some t → (relaceNear s = true ∧ since t s < 5000000000))) :=
  ⟨up, by
    (repeat' apply And.intro) <;> first | decide +kernel | rfl | exact fun _ _ => rfl⟩

theorem holds_calibrationEvents_13 : ∃ (items l : List CalItem) (s : State) (skipped : Nat) (ran : List Nat) (e : State × Nat) (u : State),
    (Alive s) ∧
    (s.mon.running ≠ 0) ∧
    (s.mon.proc = 6) ∧
    (l = items.filter itemOk) ∧
    (skipped = (if s.welt.powered then 0 else s.mon.running &&& 48)) ∧
    (ran = (List.range 6).filter (fun b => s.mon.running / 2 ^ b % 2 = 1 && skipped / 2 ^ b % 2 = 0)) ∧
    (e = ran.foldl (fun a p => endProcedure l p a) (s, 0)) ∧
    (u = { e.1 with mon := { e.1.mon with
        running := 0, proc := 6, stale := [], lastMask := s.mon.running,
        failed := ((63 - (s.mon.running - skipped)) &&& e.1.mon.failed) ||| e.2,
        count := e.1.mon.count + 1, runCount := e.1.mon.count + 1, opsec := e.1.glb.opsec, pcycle := e.1.glb.pcycle,
        lastTemp := (if ran.contains 1 then (List.range 96).map (fun i => (i, some (reading 1 i e.1))) else e.1.mon.lastTemp),
        writeDue := true, atStart := e.1.mon.atStart || e.1.mon.trigger = .powerUp } }) :=
  ⟨[], [], calibrating, 0, [0], endProcedure [] 0 (calibrating, 0), (let e := endProcedure [] 0 (calibrating, 0); { e.1 with mon := { e.1.mon with running := 0, proc := 6, stale := [], lastMask := 1, failed := ((63 - (1 - 0)) &&& e.1.mon.failed) ||| e.2, count := e.1.mon.count + 1, runCount := e.1.mon.count + 1, opsec := e.1.glb.opsec, pcycle := e.1.glb.pcycle, lastTemp := e.1.mon.lastTemp, writeDue := true, atStart := e.1.mon.atStart || e.1.mon.trigger = .powerUp } }), by
    (repeat' apply And.intro) <;> first | decide +kernel | rfl | exact fun _ _ => rfl⟩

theorem holds_calibrationEvents_14 : ∃ (l : List CalItem) (p n : Nat) (s v : State),
    (v = (if p = 5 then storeFf s
        else forAll (l.filter (fun x => x.proc.val = p && !itemFails x)) (fun x => newCorrection (itemKey x) x.value) s)) :=
  ⟨[], 0, 0, up, up, by
    (repeat' apply And.intro) <;> first | decide +kernel | rfl | exact fun _ _ => rfl⟩

theorem holds_calibrationEvents_15 : ∃ (l : List CalItem) (s : State),
    (Alive s) ∧
    ((s.mon.running = 0 ∨ s.mon.proc ≠ 6)) :=
  ⟨[], up, by
    (repeat' apply And.intro) <;> first | decide +kernel | rfl | exact fun _ _ => rfl⟩

theorem holds_calibrationEvents_16 : ∃ (s : State) (n : Nat) (r : CalRec),
    (Alive s) ∧
    (s.mon.writeDue = true) ∧
    ((s.fw.migrateDue && !s.fw.converted) = false) ∧
    (n = (if s.mon.current = some 1 then 2 else 1)) ∧
    (r = calRecord s) :=
  ⟨{ up with mon := { writeDue := true } }, 1, calRecord { up with mon := { writeDue := true } }, by
    (repeat' apply And.intro) <;> first | decide +kernel | rfl | exact fun _ _ => rfl⟩

theorem holds_calibrationEvents_17 : ∃ (s : State) (n : Nat),
    (Alive s) ∧
    (s.mon.writeDue = true) ∧
    ((s.fw.migrateDue && !s.fw.converted) = false) ∧
    (n = (if s.mon.current = some 1 then 2 else 1)) :=
  ⟨{ up with mon := { writeDue := true, current := some 1 } }, 2, by
    (repeat' apply And.intro) <;> first | decide +kernel | rfl | exact fun _ _ => rfl⟩

theorem holds_calibrationEvents_18 : ∃ (ok : Bool) (s : State),
    (Alive s) ∧
    ((s.mon.writeDue = false ∨ (s.fw.migrateDue && !s.fw.converted) = true)) :=
  ⟨true, up, by
    (repeat' apply And.intro) <;> first | decide +kernel | rfl | exact fun _ _ => rfl⟩

theorem holds_stepRunsCommand_1 : ∃ (c : Instr) (rest : List Instr) (s : State),
    (s.pending = c :: rest) :=
  ⟨.powerOn, [.modResetRelease], { up with pending := [.powerOn, .modResetRelease] }, by
    (repeat' apply And.intro) <;> first | decide +kernel | rfl | exact fun _ _ => rfl⟩

theorem holds_stepRunsCommand_2 : ∃ (s : State),
    (s.pending = []) :=
  ⟨up, by
    (repeat' apply And.intro) <;> first | decide +kernel | rfl | exact fun _ _ => rfl⟩

theorem holds_stepRunsCommand_3 : ∃ (s : State),
    (s.mbx.waiting = []) :=
  ⟨up, by
    (repeat' apply And.intro) <;> first | decide +kernel | rfl | exact fun _ _ => rfl⟩

theorem holds_stepRunsCommand_5 : ∃ (s : State),
    ((∀ t, s.fw.restartAt = some t → since t s < min Config.restartTicks (ticksMs 50))) :=
  ⟨up, by
    (repeat' apply And.intro) <;> first | exact Nat.le_trans (Nat.min_le_right _ _) (by decide +kernel) | exact (fun _ h => nomatch h) | decide +kernel | rfl | exact fun _ _ => rfl⟩

theorem holds_stepRunsCommand_6 : ∃ (s : State) (t : Nat),
    (s.fw.restartAt = some t) ∧
    (min Config.restartTicks (ticksMs 50) ≤ since t s) :=
  ⟨{ up with fw := { restartAt := some 0 }, clk := 250000000 }, 0, by
    (repeat' apply And.intro) <;> first | exact Nat.le_trans (Nat.min_le_right _ _) (by decide +kernel) | exact (fun _ h => nomatch h) | decide +kernel | rfl | exact fun _ _ => rfl⟩

theorem holds_stepRunsCommand_7 : ∃ (s : State),
    (s.power.on = false) ∧
    (s.fw.restartAt = none) :=
  ⟨{ up with power := { on := false } }, by
    (repeat' apply And.intro) <;> first | decide +kernel | rfl | exact fun _ _ => rfl⟩

theorem holds_memoryStaysCanonical_1 : ∃ (s t : State),
    (MemoryWf s.mem.sram) ∧
    (MemoryWf s.mem.dram) ∧
    (step s = .next t) :=
  ⟨up, startWaiting (clock up), by
    (repeat' apply And.intro) <;> first | decide +kernel | rfl | exact fun _ _ => rfl⟩

theorem holds_clockStaysInRange_1 : ∃ (s t : State),
    (1400 ≤ s.power.eclk) ∧
    (s.power.eclk ≤ 2200) ∧
    (s.power.eclk % 25 = 0) ∧
    (step s = .next t) :=
  ⟨up, startWaiting (clock up), by
    (repeat' apply And.intro) <;> first | decide +kernel | rfl | exact fun _ _ => rfl⟩

theorem holds_queueAndIdentityStay_1 : ∃ (c : Instr) (s t : State),
    (exec c s = .next t) :=
  ⟨.modResetRelease, up, up, by
    (repeat' apply And.intro) <;> first | decide +kernel | rfl | exact fun _ _ => rfl⟩

theorem holds_memoryFrame_1 : ∃ (c : Instr) (s t : State),
    (mayStore c = false) ∧
    (exec c s = .next t) :=
  ⟨.modResetRelease, up, up, by
    (repeat' apply And.intro) <;> first | decide +kernel | rfl | exact fun _ _ => rfl⟩

theorem holds_memoryFrame_2 : ∃ (a : BitVec 34) (bs : List Byte) (fl : List Flaw) (s u : State),
    (a.toNat % 4096 + bs.length ≤ 4096) ∧
    (u = inject fl s) :=
  ⟨0, [1, 2, 3, 4], [], windowed, windowed, by
    (repeat' apply And.intro) <;> first | decide +kernel | rfl | exact fun _ _ => rfl⟩

theorem holds_memoryFrame_3 : ∃ (fl : List Flaw) (s u : State),
    (Fed s) ∧
    (u = nextRequest s) :=
  ⟨[], requested, requested, by
    (repeat' apply And.intro) <;> first | ((with_reducible refine nextRequest_ready _ ?_); rfl) | decide +kernel | rfl | exact fun _ _ => rfl⟩

theorem holds_memoryFrame_4 : ∃ (t : Fin 64) (s : State) (st : BitVec 256),
    (Fed s) ∧
    (toIssue 6 t s = some st) ∧
    ((sb st 2 3 = false ∨ sf st 3 0 17 < 98304)) :=
  ⟨3, stepped 6 31 0 0, 6 + 2 ^ 64 * 31, by
    (repeat' apply And.intro) <;> first | decide +kernel | rfl | exact fun _ _ => rfl⟩

theorem holds_memoryFrame_5 : ∃ (t : Fin 64) (s : State) (bits line : Nat),
    (Fed s) ∧
    ((tileOf s t).hold = .fence bits line) :=
  ⟨3, held3 (.fence 15 0), 15, 0, by
    (repeat' apply And.intro) <;> first | decide +kernel | rfl | exact fun _ _ => rfl⟩

theorem holds_memoryFrame_6 : ∃ (t : Fin 64) (flaws : List Flaw) (s : State) (st : BitVec 256) (u : State) (m : MatStep) (p : MatPlaces),
    (Fed s) ∧
    (toIssue 1 t s = some st) ∧
    ((tileOf s t).matrixOp = none) ∧
    (u = inject flaws s) ∧
    (m = matStep st) ∧
    (p = matPlaces (tileOf s t) st) ∧
    (matInRange m p = true) ∧
    ((m.mode = 2 → scaleOk (nth 0 (bytesWords (stepBytes t m.param 64 u)) 1) = true ∧ scaleOk (nth 0 (bytesWords (stepBytes t m.param 64 u)) 2) = true)) :=
  ⟨3, [], stepped 1 0 0 0, 1, stepped 1 0 0 0, matStep 1, matPlaces (tileOf (stepped 1 0 0 0) 3) 1, by
    (repeat' apply And.intro) <;> first | decide +kernel | rfl | exact fun _ _ => rfl⟩

theorem holds_memoryFrame_7 : ∃ (t : Fin 64) (flaws : List Flaw) (s : State) (st : BitVec 256) (u : State) (v : VecStep) (param : List Word),
    (Fed s) ∧
    (toIssue 2 t s = some st) ∧
    ((tileOf s t).vectorOp = none) ∧
    (u = inject flaws s) ∧
    (v = vecStep (tileOf s t) st) ∧
    (param = (if v.readsParam && inSram v.param 64 then bytesWords (stepBytes t v.param 64 u) else [])) ∧
    ((v.insSpans param ++ v.outSpans param).all (fun p => inSram p.1 p.2) = true) ∧
    ((v.mode = 2 → scaleOk (nth 0 param 0) = true)) ∧
    (v.out.sel ≤ 1) ∧
    ((v.out.fmt = 11 ↔ v.op = 0x29)) :=
  ⟨3, [], vecState, 2, vecState, vecStep0, vecParam, by
    (repeat' apply And.intro) <;> first | decide +kernel | rfl | exact fun _ _ => rfl⟩

theorem holds_memoryFrame_8 : ∃ (mark : Bool) (w c a : Nat) (bs : List Byte) (s : State) (x : Nat),
    ((∀ k ∈ linesOf a bs.length, lineFrom c k s = k ∧ lineClass c k s = .clean [])) ∧
    ((x < dramAddr c a ∨ dramAddr c a + bs.length ≤ x)) :=
  ⟨true, 0, 0, 4, [1, 2], up, 6, by
    (repeat' apply And.intro) <;> first | decide +kernel | rfl | exact fun _ _ => rfl⟩

theorem holds_bootAndDead_1 : ∃ (s : State),
    (s.power.on = true) ∧
    (s.power.held = false) ∧
    (s.irq.d3hot = false) ∧
    ((s.glb.state = .boot ∨ s.glb.state = .dead)) :=
  ⟨booting, by
    (repeat' apply And.intro) <;> first | decide +kernel | rfl | exact fun _ _ => rfl⟩

theorem holds_bootAndDead_2 : ∃ (hi : Bool) (v : Word) (n : Fin 8) (f : Bool) (s : State),
    ((s.glb.state = .boot ∨ s.glb.state = .dead)) :=
  ⟨true, 0xFFFFFFFF, 3, true, booting, by
    (repeat' apply And.intro) <;> first | decide +kernel | rfl | exact fun _ _ => rfl⟩

theorem holds_bootAndDead_3 : ∃ (off : BitVec 26) (v : DWord) (s : State),
    ((s.glb.state = .boot ∨ s.glb.state = .dead)) ∧
    (off.toNat % 4 = 0) ∧
    (off.toNat ≠ 0x34) :=
  ⟨0x20008, 0, booting, by
    (repeat' apply And.intro) <;> first | decide +kernel | rfl | exact fun _ _ => rfl⟩

theorem holds_bootAndDead_4 : ∃ (v : DWord) (s : State),
    (answersBar s = true) :=
  ⟨77, booting, by
    (repeat' apply And.intro) <;> first | decide +kernel | rfl | exact fun _ _ => rfl⟩

theorem holds_bootAndDead_5 : ∃ (addr : BitVec 34) (n : Nat) (flaws : List Flaw) (s : State),
    (s.power.on = true) ∧
    (s.power.held = false) ∧
    (s.irq.d3hot = false) ∧
    ((s.glb.state = .boot ∨ s.glb.state = .dead)) ∧
    (0 < n) ∧
    (addr.toNat % 4096 + n ≤ 4096) :=
  ⟨0x1000, 8, [], booting, by
    (repeat' apply And.intro) <;> first | decide +kernel | rfl | exact fun _ _ => rfl⟩

theorem holds_stateEvaluation_1 : ∃ (cause : BitVec 16) (s : State),
    (operating s = true) ∧
    (degrading s ≠ 0) :=
  ⟨5, { up with mon := { failed := 1 } }, by
    (repeat' apply And.intro) <;> first | decide +kernel | rfl | exact fun _ _ => rfl⟩

theorem holds_stateEvaluation_2 : ∃ (cause : BitVec 16) (s : State),
    (operating s = true) ∧
    (degrading s = 0) ∧
    (anyRunning s = true) :=
  ⟨5, runningJob, by
    (repeat' apply And.intro) <;> first | decide +kernel | rfl | exact fun _ _ => rfl⟩

theorem holds_stateEvaluation_3 : ∃ (cause : BitVec 16) (s : State),
    (operating s = true) ∧
    (degrading s = 0) ∧
    (anyRunning s = false) :=
  ⟨5, up, by
    (repeat' apply And.intro) <;> first | decide +kernel | rfl | exact fun _ _ => rfl⟩

theorem holds_stateEvaluation_4 : ∃ (cause : BitVec 16) (s : State),
    (operating s = false) :=
  ⟨5, booting, by
    (repeat' apply And.intro) <;> first | decide +kernel | rfl | exact fun _ _ => rfl⟩

theorem holds_stateEvaluation_5 : ∃ (new : ModState) (cause : BitVec 16) (s : State),
    (s.glb.state ≠ new) :=
  ⟨.running, 0x3010, up, by
    (repeat' apply And.intro) <;> first | decide +kernel | rfl | exact fun _ _ => rfl⟩

theorem holds_stateEvaluation_7 : ∃ (new : ModState) (cause : BitVec 16) (s : State),
    (s.glb.state ≠ new) :=
  ⟨.running, 0x3010, up, by
    (repeat' apply And.intro) <;> first | decide +kernel | rfl | exact fun _ _ => rfl⟩

theorem holds_stateEvaluation_8 : ∃ (v : Fin 8) (s : State),
    (s.irq.cause.getLsbD v = false) :=
  ⟨0, up, by
    (repeat' apply And.intro) <;> first | decide +kernel | rfl | exact fun _ _ => rfl⟩

theorem holds_eventStore_1 : ∃ (code : BitVec 16) (sev : Nat) (items : List Word) (s : State) (r : Record),
    (filtered code sev s = false) ∧
    (s.log.mediaFail = false) ∧
    (s.log.pf = false) ∧
    (r = { mkRecord code sev items s with seq := nextSeq s.log.seqNew }) ∧
    (sev ≤ 1) ∧
    (fill s + recLen r ≤ 229376) :=
  ⟨0x1001, 1, [], up, { mkRecord 0x1001 1 [] up with seq := nextSeq up.log.seqNew }, by
    (repeat' apply And.intro) <;> first | decide +kernel | rfl | exact fun _ _ => rfl⟩

theorem holds_eventStore_2 : ∃ (code : BitVec 16) (sev : Nat) (items : List Word) (s : State) (r : Record),
    (filtered code sev s = false) ∧
    (s.log.mediaFail = false) ∧
    (s.log.pf = false) ∧
    (r = { mkRecord code sev items s with seq := nextSeq s.log.seqNew }) ∧
    (2 ≤ sev) ∧
    (fill s + recLen r ≤ 262144) :=
  ⟨0x1001, 2, [], fullUp, { mkRecord 0x1001 2 [] fullUp with seq := nextSeq fullUp.log.seqNew }, by
    (repeat' apply And.intro) <;> first | decide +kernel | rfl | exact fun _ _ => rfl⟩

theorem holds_eventStore_3 : ∃ (code : BitVec 16) (sev : Nat) (items : List Word) (s : State) (r : Record),
    (filtered code sev s = false) ∧
    (s.log.mediaFail = false) ∧
    (s.log.pf = false) ∧
    (r = mkRecord code sev items s) ∧
    ((if sev ≤ 1 then 229376 else 262144) < fill s + recLen r) :=
  ⟨0x1001, 1, [], fullUp, mkRecord 0x1001 1 [] fullUp, by
    (repeat' apply And.intro) <;> first | decide +kernel | rfl | exact fun _ _ => rfl⟩

theorem holds_eventStore_4 : ∃ (sev : Nat) (q : Option Word) (s : State),
    ((3 ≤ sev ∨ s.irq.evtLevel.toNat ≤ sev)) :=
  ⟨3, none, up, by
    (repeat' apply And.intro) <;> first | decide +kernel | rfl | exact fun _ _ => rfl⟩

theorem holds_eventStore_5 : ∃ (code : BitVec 16) (sev : Nat) (items : List Word) (s : State),
    (filtered code sev s = true) :=
  ⟨0x1001, 0, [], { up with log := { up.log with filter := 0xFFFFFFFF }, irq := { evtLevel := 4 } }, by
    (repeat' apply And.intro) <;> first | decide +kernel | rfl | exact fun _ _ => rfl⟩

theorem holds_eventStore_6 : ∃ (code : BitVec 16) (opsec : Word) (l : Rec),
    ((∃ p ∈ l.counts, p.1 = code)) :=
  ⟨5, 0, { up.log with counts := [(5, 2)] }, by
    (repeat' apply And.intro) <;> first | decide +kernel | rfl | exact fun _ _ => rfl⟩

theorem holds_eventStore_7 : ∃ (code : BitVec 16) (opsec : Word) (l : Rec),
    ((∀ p ∈ l.counts, p.1 ≠ code)) ∧
    (l.counts.length < 246) :=
  ⟨5, 0, { up.log with counts := [(4, 2)] }, by
    (repeat' apply And.intro) <;> first | decide +kernel | rfl | exact fun _ _ => rfl⟩

theorem holds_checkOrder_1 : ∃ (t : Taken) (s : State),
    ((commandOf t.opcode.toNat).isNone = true) :=
  ⟨⟨0x01FF, ask 2 [], 0, 0⟩, up, by
    (repeat' apply And.intro) <;> first | decide +kernel | rfl | exact fun _ _ => rfl⟩

theorem holds_checkOrder_2 : ∃ (c : Cmd) (r : Req) (s : State),
    ((reqLength r < 2 ∨ 512 < reqLength r ∨ c.len (reqLength r) = false)) :=
  ⟨sysResetCmd, ask 3 [1], up, by
    (repeat' apply And.intro) <;> first | decide +kernel | rfl | exact fun _ _ => rfl⟩

theorem holds_checkOrder_3 : ∃ (c : Cmd) (r : Req) (s : State),
    (2 ≤ reqLength r) ∧
    (reqLength r ≤ 512) ∧
    (c.len (reqLength r) = true) ∧
    (headerOk r = false) :=
  ⟨sysResetCmd, { ask 4 [1, 0x2460] with flags := 0x8040 }, up, by
    (repeat' apply And.intro) <;> first | decide +kernel | rfl | exact fun _ _ => rfl⟩

theorem holds_checkOrder_4 : ∃ (c : Cmd) (r : Req) (s : State),
    (2 ≤ reqLength r) ∧
    (reqLength r ≤ 512) ∧
    (c.len (reqLength r) = true) ∧
    (headerOk r = true) ∧
    (admits c.op s = false) :=
  ⟨jobStartCmd, ask 4 [1, 0], { up with glb := { state := .halted, yarlerUp := true } }, by
    (repeat' apply And.intro) <;> first | decide +kernel | rfl | exact fun _ _ => rfl⟩

theorem holds_checkOrder_5 : ∃ (c : Cmd) (r : Req) (s : State) (st : Status) (ws : List Word),
    (2 ≤ reqLength r) ∧
    (reqLength r ≤ 512) ∧
    (c.len (reqLength r) = true) ∧
    (headerOk r = true) ∧
    (admits c.op s = true) ∧
    (c.object r s = some (st, ws)) :=
  ⟨jobStartCmd, ask 4 [1, 0], up, .wrongState, [1], by
    (repeat' apply And.intro) <;> first | decide +kernel | rfl | exact fun _ _ => rfl⟩

theorem holds_checkOrder_6 : ∃ (c : Cmd) (r : Req) (s : State) (st : Status) (ws : List Word),
    (2 ≤ reqLength r) ∧
    (reqLength r ≤ 512) ∧
    (c.len (reqLength r) = true) ∧
    (headerOk r = true) ∧
    (admits c.op s = true) ∧
    (c.object r s = none) ∧
    (c.args r s = some (st, ws)) :=
  ⟨sysResetCmd, ask 4 [0, 0x2461], up, .badArg, [], by
    (repeat' apply And.intro) <;> first | decide +kernel | rfl | exact fun _ _ => rfl⟩

theorem holds_checkOrder_7 : ∃ (c : Cmd) (r : Req) (s : State),
    (2 ≤ reqLength r) ∧
    (reqLength r ≤ 512) ∧
    (c.len (reqLength r) = true) ∧
    (headerOk r = true) ∧
    (admits c.op s = true) ∧
    (c.object r s = none) ∧
    (c.args r s = none) :=
  ⟨sysResetCmd, ask 4 [0, 0x2460], up, by
    (repeat' apply And.intro) <;> first | decide +kernel | rfl | exact fun _ _ => rfl⟩

theorem holds_checkOrder_8 : ∃ (c : Cmd) (r : Req) (s : State),
    (serving s = false) :=
  ⟨sysResetCmd, ask 4 [0, 0x2460], booting, by
    (repeat' apply And.intro) <;> first | decide +kernel | rfl | exact fun _ _ => rfl⟩

theorem holds_deviceFailure_1a : ∃ (i : Nat) (l : List Nat) (mark : Option Nat),
    (i < 10) ∧
    (l.length = 16) ∧
    ((∀ v ∈ l, v < 16)) ∧
    ((∃ v ∈ l, v ≠ 0)) ∧
    ((mark = none ∨ mark = some i)) :=
  ⟨9, List.replicate 15 0 ++ [15], none, by
    (repeat' apply And.intro) <;> first | decide +kernel | rfl | exact fun _ _ => rfl⟩

theorem holds_deviceFailure_1b : ∃ (i : Nat) (l : List Nat) (mark : Option Nat),
    (i < 10) ∧
    (l.length = 16) ∧
    ((∀ v ∈ l, v < 16)) ∧
    ((∃ v ∈ l, v ≠ 0)) ∧
    ((mark = none ∨ mark = some i)) :=
  ⟨0, List.replicate 16 7, some 0, by
    (repeat' apply And.intro) <;> first | decide +kernel | rfl | exact fun _ _ => rfl⟩

theorem holds_deviceFailure_2 : ∃ (i j : Nat) (v w : Nat) (l m : List (BitVec 40)),
    (i < 10) ∧
    (j < 10) ∧
    (i ≠ j) ∧
    (0 < v) ∧
    (v < 16) ∧
    (0 < w) ∧
    (w < 16) ∧
    (l.length + m.length = 14) :=
  ⟨0, 9, 1, 15, [], List.replicate 14 0, by
    (repeat' apply And.intro) <;> first | decide +kernel | rfl | exact fun _ _ => rfl⟩

theorem holds_deviceFailure_3 : ∃ (i k : Nat) (v : Nat) (l m : List (BitVec 40)),
    (i < 10) ∧
    (k ≠ i) ∧
    (0 < v) ∧
    (v < 16) ∧
    (l.length + m.length = 15) :=
  ⟨0, 9, 1, [], List.replicate 15 0, by
    (repeat' apply And.intro) <;> first | decide +kernel | rfl | exact fun _ _ => rfl⟩

theorem holds_deviceFailure_5 : ∃ (c line : Nat) (s : State) (p : Nat) (l : List (BitVec 40)) (i : Nat),
    (lineFrom c line s = line) ∧
    ((lineClass c line s = .clean l ∨ lineClass c line s = .ce p l)) ∧
    (l.all (fun b => b = 0) = true) ∧
    (i < 64) :=
  ⟨0, 0, { memoried with mem := { memoried.mem with lineErr := [(0, List.replicate 16 1)] } }, 0, List.replicate 16 0, 5, by
    (repeat' apply And.intro) <;> first | decide +kernel | rfl | exact fun _ _ => rfl⟩

theorem holds_ternCodes_1 : ∃ (c i : Nat),
    (c < 243) ∧
    (i < 5) :=
  ⟨242, 4, by
    (repeat' apply And.intro) <;> first | decide +kernel | rfl | exact fun _ _ => rfl⟩

theorem holds_ternCodes_2 : ∃ (a b c d e : Int),
    ((a = -1 ∨ a = 0 ∨ a = 1)) ∧
    ((b = -1 ∨ b = 0 ∨ b = 1)) ∧
    ((c = -1 ∨ c = 0 ∨ c = 1)) ∧
    ((d = -1 ∨ d = 0 ∨ d = 1)) ∧
    ((e = -1 ∨ e = 0 ∨ e = 1)) :=
  ⟨-1, 0, 1, -1, 1, by
    (repeat' apply And.intro) <;> first | decide +kernel | rfl | exact fun _ _ => rfl⟩

theorem holds_ternCodes_4 : ∃ (c : Nat),
    (243 ≤ c) :=
  ⟨255, by
    (repeat' apply And.intro) <;> first | decide +kernel | rfl | exact fun _ _ => rfl⟩

theorem holds_ternCodes_5 : ∃ (m : MatStep) (w : Nat) (l : List Nat) (r k j : Nat),
    (r < l.length) ∧
    (k < m.K / 128) ∧
    (j < 26) ∧
    (243 ≤ byteAt (l.getD r 0) (32 * k + j)) :=
  ⟨{ matStep 0 with K := 128 }, 0, [243], 0, 0, 0, by
    (repeat' apply And.intro) <;> first | decide +kernel | rfl | exact fun _ _ => rfl⟩

theorem holds_ternCodes_6 : ∃ (t : Nat) (a : Arith) (s : State),
    (a.ternInv.isSome = true) :=
  ⟨3, { lfsr := 1, ternInv := some 0 }, up, by
    (repeat' apply And.intro) <;> first | decide +kernel | rfl | exact fun _ _ => rfl⟩

theorem holds_ternCodes_7 : ∃ (t : Fin 64) (flaws : List Flaw) (s : State) (st : BitVec 256) (u : State) (m : MatStep) (p : MatPlaces) (r k j : Nat),
    (Fed s) ∧
    (toIssue 1 t s = some st) ∧
    ((tileOf s t).matrixOp = none) ∧
    (u = inject flaws s) ∧
    (m = matStep st) ∧
    (p = matPlaces (tileOf s t) st) ∧
    (matInRange m p = true) ∧
    ((m.mode = 2 → scaleOk (nth 0 (bytesWords (stepBytes t m.param 64 u)) 1) = true ∧ scaleOk (nth 0 (bytesWords (stepBytes t m.param 64 u)) 2) = true)) ∧
    (m.wf = 11) ∧
    (r < 128) ∧
    (k < m.K / 128) ∧
    (j < 26) ∧
    (243 ≤ byteAt (stepBits t (p.w.toNat + r * m.wPitch) (rowBytes 11 m.K) u) (32 * k + j)) :=
  ⟨3, [], ternState 1 (11 * 2 ^ 28) (127 * 2 ^ 17), ternBits 1 (11 * 2 ^ 28) (127 * 2 ^ 17), ternState 1 (11 * 2 ^ 28) (127 * 2 ^ 17), matStep (ternBits 1 (11 * 2 ^ 28) (127 * 2 ^ 17)), matPlaces (tileOf (ternState 1 (11 * 2 ^ 28) (127 * 2 ^ 17)) 3) (ternBits 1 (11 * 2 ^ 28) (127 * 2 ^ 17)), 5, 0, 0, by
    (repeat' apply And.intro) <;> first | decide +kernel | rfl | exact fun _ _ => rfl⟩

theorem holds_ternCodes_8 : ∃ (t : Fin 64) (flaws : List Flaw) (s : State) (st : BitVec 256) (u : State) (v : VecStep) (param : List Word) (o : VecOperand) (b : Nat),
    (Fed s) ∧
    (toIssue 2 t s = some st) ∧
    ((tileOf s t).vectorOp = none) ∧
    (u = inject flaws s) ∧
    (v = vecStep (tileOf s t) st) ∧
    (param = (if v.readsParam && inSram v.param 64 then bytesWords (stepBytes t v.param 64 u) else [])) ∧
    ((v.insSpans param ++ v.outSpans param).all (fun p => inSram p.1 p.2) = true) ∧
    ((v.mode = 2 → scaleOk (nth 0 param 0) = true)) ∧
    (o ∈ v.operands) ∧
    (o.sel = 0) ∧
    (o.fmt = 11) ∧
    (b < vecBytes 11 v.n) ∧
    (b % 32 < 26) ∧
    (243 ≤ byteAt (stepBits t (64 * o.off).toNat (vecBytes 11 v.n) u) b) :=
  ⟨3, [], ternState 2 (11 * 2 ^ 17) 0, ternBits 2 (11 * 2 ^ 17) 0, ternState 2 (11 * 2 ^ 17) 0, vecStep (tileOf (ternState 2 (11 * 2 ^ 17) 0) 3) (ternBits 2 (11 * 2 ^ 17) 0), [], (vecStep (tileOf (ternState 2 (11 * 2 ^ 17) 0) 3) (ternBits 2 (11 * 2 ^ 17) 0)).a, 0, by
    (repeat' apply And.intro) <;> first | decide +kernel | exact List.Mem.head _ | rfl⟩

theorem holds_deferral_2 : ∃ (s : State) (i : Nat) (t : Q) (u : State),
    (Alive s) ∧
    (calBusy s = false) ∧
    (drifted s = some (i, t)) ∧
    (u = raise 0x6004 1 [word i, qWord (reading 1 i s), qWord t] s) ∧
    (relaceNear u = true) :=
  ⟨{ driftedUp with welt := relaced.welt }, 0, 1310720, raise 0x6004 1 [word 0, qWord (reading 1 0 { driftedUp with welt := relaced.welt }), qWord 1310720] { driftedUp with welt := relaced.welt }, by
    (repeat' apply And.intro) <;> first | decide +kernel | rfl | exact fun _ _ => rfl⟩

theorem holds_deferral_3 : ∃ (s : State) (t : Nat),
    (Alive s) ∧
    (s.mon.deferred = some t) ∧
    ((relaceNear s = false ∨ 5000000000 ≤ since t s)) :=
  ⟨{ up with mon := { deferred := some 0 } }, 0, by
    (repeat' apply And.intro) <;> first | decide +kernel | rfl | exact fun _ _ => rfl⟩

theorem holds_deferral_4 : ∃ (s : State) (t : Nat),
    (Alive s) ∧
    (s.mon.deferred = some t) ∧
    (relaceNear s = true) ∧
    (since t s < 5000000000) :=
  ⟨deferredUp, 900000, by
    (repeat' apply And.intro) <;> first | decide +kernel | rfl | exact fun _ _ => rfl⟩

theorem holds_deferral_5 : ∃ (r : Req) (s : State),
    (Asked 0x0701 3 r s) ∧
    (relaceNear s = true) ∧
    (calBusy s = false) ∧
    (zeroFrom r 2 6 = true) ∧
    (rf r 2 0 6 ≠ 0) :=
  ⟨ask 3 [63], relaced, by
    (repeat' apply And.intro) <;> first | decide +kernel | rfl | exact fun _ _ => rfl⟩

theorem holds_statusLeds_1 : ∃ (s : State),
    (s.power.on = true) ∧
    (s.power.failing = true) :=
  ⟨{ up with power := { failing := true } }, by
    (repeat' apply And.intro) <;> first | decide +kernel | rfl | exact fun _ _ => rfl⟩

theorem holds_statusLeds_2 : ∃ (s : State),
    (s.power.on = false) :=
  ⟨{ up with power := { on := false } }, by
    (repeat' apply And.intro) <;> first | decide +kernel | rfl | exact fun _ _ => rfl⟩

theorem holds_statusLeds_3 : ∃ (s : State) (k : Nat),
    (s.glb.state = .boot ∨ s.glb.state = .dead) :=
  ⟨State.reset, 0, by
    (repeat' apply And.intro) <;> first | decide +kernel | rfl | exact fun _ _ => rfl⟩

theorem holds_statusLeds_4 : ∃ (s : State),
    (ledsDriven s = true) ∧
    (s.fw.unlocked = true) :=
  ⟨{ up with fw := { unlocked := true } }, by
    (repeat' apply And.intro) <;> first | decide +kernel | rfl | exact fun _ _ => rfl⟩

theorem holds_statusLeds_5 : ∃ (s : State) (k : Nat),
    (s.welt.powered = false) :=
  ⟨up, 3, by
    (repeat' apply And.intro) <;> first | decide +kernel | rfl | exact fun _ _ => rfl⟩

theorem holds_statusLeds_6 : ∃ (s : State) (i : Nat) (x : Lace) (k : Nat),
    (ledsDriven s = true) ∧
    (s.welt.powered = true) ∧
    ((i, some x) ∈ s.welt.active) ∧
    (onReceptacle k (i % 160) = true ∨ onReceptacle k x.outlet = true) ∧
    ((runOf s i).st = .unlocked) :=
  ⟨{ up with welt := { powered := true, active := [(8, some { outlet := 96 })], laces := [(8, { st := .unlocked })] } }, 8, { outlet := 96 }, 4, by
    (repeat' apply And.intro) <;> first | decide +kernel | rfl | exact fun _ _ => rfl⟩

end Sys2Proof.Tests
end

section
/-! PROOFS. The host's view of a module in Boot or in Dead, where only the GLB_ block answers (R26). -/

namespace Sys2Proof.Machine

/-! Accesses while the blocks beyond GLB_ do not answer. -/

/-- In Boot and in Dead Yarler serves nothing (R26, R57). -/
theorem serving_eq_false_of_boot_or_dead {s : State} (h : s.glb.state = .boot ∨ s.glb.state = .dead) :
    serving s = false := by
  rcases h with h | h <;> simp [serving, h]

/-- In Boot and in Dead BAR0 does not answer beyond the GLB_ block (R26). -/
theorem reachable_eq_false_of_boot_or_dead {s : State} (h : s.glb.state = .boot ∨ s.glb.state = .dead) :
    reachable s = false := by
  simp [reachable, serving_eq_false_of_boot_or_dead h]

/-- Powered, out of reset and in D0, the function completes accesses (R20, R454). -/
theorem answersBar_of_powered {s : State} (hon : s.power.on = true) (hheld : s.power.held = false)
    (hd0 : s.irq.d3hot = false) : answersBar s = true := by
  simp [answersBar, hon, hheld, hd0]

/-- A host write that does not reach its register changes nothing (R20, R26). -/
theorem onWrite_still {f : State → State} {s : State} (h : reachable s = false) : onWrite f s = .next s := by
  simp [onWrite, h]

/-- A host read that the function completes but that does not reach its register reads as zero (R26). -/
theorem onRead_zero {off : Nat} {f : State → State} {s : State} (h : reachable s = false)
    (hbar : answersBar s = true) : onRead off f s = .next (emit (.regValue off 0) s) := by
  simp [onRead, h, hbar]

/-! Register writes of 32 bits. -/

/-- An aligned access of 32 bits is good at every offset (R7). -/
theorem goodAccess_four {off : Nat} (h : off % 4 = 0) : goodAccess off 4 = true := by
  simp [goodAccess, h]

/-- A register write to a function that completes no access changes nothing (R20, R454). -/
theorem registerWrite_of_not_answersBar {off : Nat} {v : DWord} {wide : Bool} {s : State}
    (h : answersBar s = false) : registerWrite off v wide s = s := by
  simp [registerWrite, h]

/-- An aligned register write of 32 bits is the write of its word (R7). -/
theorem registerWrite_word {off : Nat} {v : DWord} {s : State} (hbar : answersBar s = true)
    (halign : off % 4 = 0) : registerWrite off v false s = wordWrite off (v.setWidth 32) s := by
  simp [registerWrite, hbar, goodAccess_four halign]

/-- A word written where only the GLB_ block answers changes nothing but the scratch register (R26). -/
theorem wordWrite_of_not_reachable {off : Nat} {v : Word} {s : State} (h : reachable s = false)
    (hoff : off ≠ 0x34) : wordWrite off v s = s := by
  simp [wordWrite, h, hoff]

/-- The scratch register takes a word in every state (R24, R26). -/
theorem wordWrite_scratch (v : Word) (s : State) :
    wordWrite 0x34 v s = { s with glb := { s.glb with scratch := v } } := by
  simp [wordWrite]

/-- Where only the GLB_ block answers, an aligned register write of 32 bits to any offset but the scratch register's
changes nothing (R26). -/
theorem registerWrite_of_not_reachable {off : Nat} {v : DWord} {s : State} (h : reachable s = false)
    (halign : off % 4 = 0) (hoff : off ≠ 0x34) : registerWrite off v false s = s := by
  cases hbar : answersBar s with
  | false => exact registerWrite_of_not_answersBar hbar
  | true => rw [registerWrite_word hbar halign, wordWrite_of_not_reachable h hoff]

/-! BAR2 reads. -/

/-- While Yarler serves nothing, a BAR2 read that stays in its 4 KiB returns all ones (R26). -/
theorem execBar2Read_allOnes {addr : BitVec 34} {n : Nat} {flaws : List Flaw} {s : State}
    (hbar : answersBar s = true) (h : serving s = false) (hn : 0 < n) (hin : addr.toNat % 4096 + n ≤ 4096) :
    execBar2Read addr n flaws s = .next (emit (.bar2Data (allOnes n)) s) := by
  simp [execBar2Read, hbar, h, Nat.ne_of_gt hn, Nat.not_lt.mpr hin]

/-- Settles O53: each access is one that does not reach its register, but for the write of the scratch register. -/
theorem bootAndDead : Obligations.BootAndDead := by
  unfold Obligations.BootAndDead
  refine ⟨?reads, ?writes, ?registers, ?scratch, ?bar2⟩
  case reads =>
    intro s hon hheld hd0 hst
    have zero {off : Nat} {f : State → State} : onRead off f s = .next (emit (.regValue off 0) s) :=
      onRead_zero (reachable_eq_false_of_boot_or_dead hst) (answersBar_of_powered hon hheld hd0)
    exact ⟨zero, zero, zero, zero, zero⟩
  case writes =>
    intro hi v n f s hst
    have still {g : State → State} : onWrite g s = .next s :=
      onWrite_still (reachable_eq_false_of_boot_or_dead hst)
    have tail : execTpmTxTailWrite v s = .next s := still
    exact ⟨still, still, still, still, still, still, still, tail, still, still, still, still, still, still,
      still⟩
  case registers =>
    intro off v s hst halign hoff
    exact congrArg Host.Outcome.next
      (registerWrite_of_not_reachable (reachable_eq_false_of_boot_or_dead hst) halign hoff)
  case scratch =>
    intro v s hbar
    exact congrArg Host.Outcome.next
      ((registerWrite_word (off := 0x34) hbar rfl).trans (wordWrite_scratch (v.setWidth 32) s))
  case bar2 =>
    intro addr n flaws s hon hheld hd0 hst hn hin
    exact execBar2Read_allOnes (answersBar_of_powered hon hheld hd0) (serving_eq_false_of_boot_or_dead hst) hn hin

end Sys2Proof.Machine
end

section
/-! PROOFS. TERN: the code of five elements, and the tern_inv flag of the steps that decode an invalid code (R87). -/

namespace Sys2Proof.Machine

/-! The code as a number in base 3. -/

/-- An element that TERN can hold (R87). -/
def IsTrit (x : Int) : Prop := x = -1 ∨ x = 0 ∨ x = 1

/-- The digit of an element is below 3. -/
theorem IsTrit.toNat_lt {x : Int} (h : IsTrit x) : (x + 1).toNat < 3 := by
  unfold IsTrit at h
  omega

/-- The digit of an element is one above it. -/
theorem IsTrit.cast_toNat {x : Int} (h : IsTrit x) : ((x + 1).toNat : Int) = x + 1 := by
  unfold IsTrit at h
  omega

theorem tritCode_lt {l : List Int} (h : ∀ x ∈ l, IsTrit x) : tritCode l < 3 ^ l.length := by
  induction l with
  | nil => simp [tritCode]
  | cons x l ih =>
    obtain ⟨hx, hl⟩ := List.forall_mem_cons.mp h
    have hdigit := hx.toNat_lt
    have hrest := ih hl
    rw [tritCode, List.length_cons, Nat.pow_succ]
    omega

/-- Digit `i` of a code is one above element `i`. -/
theorem tritCode_digit {l : List Int} (h : ∀ x ∈ l, IsTrit x) {i : Nat} (hi : i < l.length) :
    ((tritCode l / 3 ^ i % 3 : Nat) : Int) - 1 = l[i] := by
  induction l generalizing i with
  | nil => simp at hi
  | cons x l ih =>
    obtain ⟨hx, hl⟩ := List.forall_mem_cons.mp h
    have hdigit := hx.toNat_lt
    cases i with
    | zero =>
      have hcast := hx.cast_toNat
      simp only [tritCode, Nat.pow_zero, Nat.div_one, List.getElem_cons_zero]
      omega
    | succ i =>
      have hrest : tritCode (x :: l) / 3 = tritCode l := by
        rw [tritCode]
        omega
      rw [Nat.pow_succ', ← Nat.div_div_eq_div_mul, hrest]
      exact ih hl (Nat.lt_of_succ_lt_succ hi)

/-- Packing the low `n` base 3 digits of a number, each as the element one below it, gives the number they write. -/
theorem tritCode_digits (n c : Nat) :
    tritCode ((List.range n).map (fun i => ((c / 3 ^ i % 3 : Nat) : Int) - 1)) = c % 3 ^ n := by
  induction n generalizing c with
  | zero => simp [tritCode, Nat.mod_one]
  | succ n ih =>
    have hshift (i : Nat) : c / 3 ^ (i + 1) = c / 3 / 3 ^ i := by
      rw [Nat.pow_succ', Nat.div_div_eq_div_mul]
    have hfirst : (((c % 3 : Nat) : Int) - 1 + 1).toNat = c % 3 := by omega
    simp only [List.range_succ_eq_map, List.map_cons, List.map_map, Function.comp_def, Nat.succ_eq_add_one, hshift,
      tritCode, ih, Nat.pow_zero, Nat.div_one, hfirst]
    rw [Nat.pow_succ', Nat.mod_mul]

/-! Packing and unpacking. -/

theorem trits_of_valid {c : Nat} (h : c < 243) :
    trits c = (List.range 5).map (fun i => ((c / 3 ^ i % 3 : Nat) : Int) - 1) := by
  simp [trits, Nat.not_le.mpr h]

theorem trits_of_invalid {c : Nat} (h : 243 ≤ c) : trits c = [0, 0, 0, 0, 0] := by
  simp [trits, h]

theorem length_trits (c : Nat) : (trits c).length = 5 := by
  unfold trits
  split <;> simp

theorem nth_trits {c i : Nat} (hc : c < 243) (hi : i < 5) : nth 0 (trits c) i = (c / 3 ^ i % 3 : Nat) - 1 := by
  simp [nth, trits_of_valid hc, hi]

/-- Unpacking a valid code and packing it gives it back. -/
theorem tritCode_trits {c : Nat} (h : c < 243) : tritCode (trits c) = c := by
  rw [trits_of_valid h, tritCode_digits]
  exact Nat.mod_eq_of_lt h

/-- Five elements pack to a valid code. -/
theorem tritCode_valid {l : List Int} (hlen : l.length = 5) (h : ∀ x ∈ l, IsTrit x) : tritCode l < 243 := by
  simpa [hlen] using tritCode_lt h

/-- Packing five elements and unpacking them gives them back. -/
theorem trits_tritCode {l : List Int} (hlen : l.length = 5) (h : ∀ x ∈ l, IsTrit x) : trits (tritCode l) = l := by
  refine List.ext_getElem (by rw [length_trits, hlen]) (fun i _ hi => ?_)
  simpa [trits_of_valid (tritCode_valid hlen h)] using tritCode_digit h hi

/-! What finds an invalid code. -/

/-- An invalid code byte of a record of a weight row is found (R87). -/
theorem firstInvalid_isSome {m : MatStep} {w : Nat} {l : List Nat} {r k j : Nat} (hr : r < l.length)
    (hk : k < m.K / 128) (hj : j < 26) (hbad : 243 ≤ byteAt (l.getD r 0) (32 * k + j)) :
    (firstInvalid m w l).isSome = true := by
  have hrow : (l[r], r) ∈ l.zipIdx := by simp [List.mem_zipIdx_iff_getElem?, hr]
  have hbyte : 32 * k + j ∈ (List.range (m.K / 128)).flatMap (fun q => (List.range 26).map (fun b => 32 * q + b)) :=
    List.mem_flatMap.mpr ⟨k, List.mem_range.mpr hk, List.mem_map.mpr ⟨j, List.mem_range.mpr hj, rfl⟩⟩
  have hget : l.getD r 0 = l[r] := by rw [List.getD_eq_getElem?_getD, List.getElem?_eq_getElem hr, Option.getD_some]
  rw [hget] at hbad
  refine List.findSome?_isSome_iff.mpr ⟨_, hrow, List.findSome?_isSome_iff.mpr ⟨_, hbyte, ?_⟩⟩
  simp [hbad]

/-- An invalid code byte of a record of a TERN operand is found (R87). -/
theorem vecInvalid_isSome {t n b : Nat} {o : VecOperand} {s : State} (hsel : o.sel = 0) (hfmt : o.fmt = 11)
    (hb : b < vecBytes 11 n) (hcode : b % 32 < 26)
    (hbad : 243 ≤ byteAt (stepBits t (64 * o.off).toNat (vecBytes 11 n) s) b) :
    (vecInvalid t n o s).isSome = true := by
  have htern : o.tern = true := by simp [VecOperand.tern, hsel, hfmt]
  simp only [vecInvalid, htern, if_true]
  refine List.findSome?_isSome_iff.mpr ⟨b, List.mem_range.mpr hb, ?_⟩
  simp [hcode, hbad]

/-! A step that issues. -/

/-- A step that is due issues (R114). -/
theorem issue_of_due {kind t : Nat} {f : BitVec 256 → State → State} {s : State} {st : BitVec 256}
    (h : toIssue kind t s = some st) : issue kind t f s = f st s := by
  simp [issue, h]

theorem exec_matrix_of_due {t : Fin 64} {flaws : List Flaw} {s : State} {st : BitVec 256} (hs : Fed s)
    (h : toIssue 1 t s = some st) : exec (.matrix t flaws) s = .next (matIssue t flaws st s) := by
  obtain ⟨⟨hon, hheld⟩, hfed⟩ := hs
  calc exec (.matrix t flaws) s = fed (issue 1 t (matIssue t flaws)) s := rfl
    _ = .next (issue 1 t (matIssue t flaws) s) := fed_next hon hheld hfed
    _ = .next (matIssue t flaws st s) := by rw [issue_of_due h]

theorem exec_vector_of_due {t : Fin 64} {flaws : List Flaw} {s : State} {st : BitVec 256} (hs : Fed s)
    (h : toIssue 2 t s = some st) : exec (.vector t flaws) s = .next (vecIssue t flaws st s) := by
  obtain ⟨⟨hon, hheld⟩, hfed⟩ := hs
  calc exec (.vector t flaws) s = fed (issue 2 t (vecIssue t flaws)) s := rfl
    _ = .next (issue 2 t (vecIssue t flaws) s) := fed_next hon hheld hfed
    _ = .next (vecIssue t flaws st s) := by rw [issue_of_due h]

/-- The tern_inv flag of a tile outlives a change of the tile that leaves it. -/
theorem ternInv_modTile {t : Nat} {f : Tile → Tile} {s : State} (hf : ∀ x, (f x).ternInv = x.ternInv) :
    (tileOf (modTile t f s) t).ternInv = (tileOf s t).ternInv := by
  simp [modTile, hf]

/-! MATRIX. -/

/-- The bits of the weight rows that a step reads (R77, R82). -/
def weightBits (t : Nat) (m : MatStep) (p : MatPlaces) (s : State) : List Nat :=
  ((rows p.w.toNat m.wPitch 128 (rowBytes m.wf m.K)).map (fun r => stepBits t r.1 r.2 s)).map (elemBits m.wf m.K)

theorem length_weightBits (t : Nat) (m : MatStep) (p : MatPlaces) (s : State) :
    (weightBits t m p s).length = 128 := by
  simp [weightBits, rows]

/-- A TERN row is read whole: its bits hold scales beside the elements (R88). -/
theorem weightBits_tern {t : Nat} {m : MatStep} {p : MatPlaces} {s : State} (hwf : m.wf = 11) {r : Nat}
    (hr : r < 128) :
    (weightBits t m p s).getD r 0 = stepBits t (p.w.toNat + r * m.wPitch) (rowBytes 11 m.K) s := by
  simp [weightBits, rows, elemBits, hwf, hr]

/-- A MATRIX step ends with its flags: of the invalid codes, those of its weight rows (R103). -/
theorem matRun_keepArith (t : Nat) (m : MatStep) (p : MatPlaces) (s : State) : ∃ (a : Arith) (u : State),
    matRun t m p s = keepArith t a u ∧
      a.ternInv = if m.wf = 11 then firstInvalid m p.w.toNat (weightBits t m p s) else none := by
  unfold matRun
  dsimp only
  split
  · refine ⟨_, _, rfl, ?_⟩
    refine List.foldlRecOn (motive := fun q : State × Arith => q.2.ternInv = _) _ _ (matEntries_tern ..) ?_
    intro q hq i _
    exact (outRow_tern ..).trans hq
  · exact ⟨_, _, rfl, matEntries_tern ..⟩

/-- A MATRIX step that reads an invalid code in a weight row sets the tile's flag (R87). -/
theorem matRun_ternInv {t : Nat} {m : MatStep} {p : MatPlaces} {s : State} {r k j : Nat} (hwf : m.wf = 11)
    (hr : r < 128) (hk : k < m.K / 128) (hj : j < 26)
    (hbad : 243 ≤ byteAt (stepBits t (p.w.toNat + r * m.wPitch) (rowBytes 11 m.K) s) (32 * k + j)) :
    (tileOf (matRun t m p s) t).ternInv = true := by
  obtain ⟨a, u, hrun, ha⟩ := matRun_keepArith t m p s
  rw [hrun]
  refine keepArith_ternInv t a u ?_
  rw [ha, if_pos hwf]
  rw [← weightBits_tern hwf hr] at hbad
  exact firstInvalid_isSome (by rwa [length_weightBits]) hk hj hbad

/-- A MATRIX step that finds its unit free, its footprints in tile SRAM and its scales good runs; what then
occupies the unit changes no flag (R115, R116, R141). -/
theorem matIssue_runs {t : Nat} {flaws : List Flaw} {st : BitVec 256} {s : State}
    (hfree : (tileOf s t).matrixOp = none)
    (hrange : matInRange (matStep st) (matPlaces (tileOf s t) st) = true)
    (hscale : (matStep st).mode = 2 →
      scaleOk (nth 0 (bytesWords (stepBytes t (matStep st).param 64 (inject flaws s))) 1) = true ∧
      scaleOk (nth 0 (bytesWords (stepBytes t (matStep st).param 64 (inject flaws s))) 2) = true) :
    ∃ f : Tile → Tile, (∀ x, (f x).ternInv = x.ternInv) ∧ matIssue t flaws st s =
      modTile t f (matRun t (matStep st) (matPlaces (tileOf s t) st) (inject flaws s)) := by
  unfold matIssue
  dsimp only
  rw [if_neg (by simp [hfree]), if_neg (by simp [hrange]), if_neg (by simpa using hscale)]
  refine ⟨_, ?_, rfl⟩
  exact fun _ => rfl

/-! VECTOR. -/

/-- The parameter words of a VECTOR step (R127). -/
def vecParam (t : Nat) (v : VecStep) (s : State) : List Word :=
  if v.readsParam && inSram v.param 64 then bytesWords (stepBytes t v.param 64 s) else []

/-- A VECTOR step that finds its unit free, its footprints in tile SRAM and its scale good keeps its flags, of the
invalid codes those of its operands; what then occupies the unit changes no flag (R103, R115, R116, R141). -/
theorem vecIssue_runs {t : Nat} {flaws : List Flaw} {st : BitVec 256} {s u : State} {v : VecStep}
    (hfree : (tileOf s t).vectorOp = none) (hu : u = inject flaws s) (hv : v = vecStep (tileOf s t) st)
    (hrange : (v.insSpans (vecParam t v u) ++ v.outSpans (vecParam t v u)).all (fun p => inSram p.1 p.2) = true)
    (hscale : v.mode = 2 → scaleOk (nth 0 (vecParam t v u) 0) = true) :
    ∃ (f : Tile → Tile) (a : Arith) (w : State), (∀ x, (f x).ternInv = x.ternInv) ∧
      vecIssue t flaws st s = modTile t f (keepArith t a w) ∧
      a.ternInv = v.operands.findSome? (fun o => vecInvalid t v.n o u) := by
  subst hu hv
  unfold vecParam at hrange hscale
  unfold vecIssue
  dsimp only
  rw [if_neg (by simp [hfree]), if_neg (by rw [hrange]; simp), if_neg (by simpa using hscale)]
  refine ⟨_, _, _, ?_, rfl, vecResult_tern ..⟩
  exact fun _ => rfl

/-! The statement. -/

/-- Settles O58: a code is a number of five base 3 digits, and a step that decodes an invalid one keeps the place where
it found it among its flags. -/
theorem ternCodes : Obligations.TernCodes := by
  unfold Obligations.TernCodes
  refine ⟨?unpack, ?pack, ?zeros, fun c => trits_of_invalid, ?found, keepArith_ternInv, ?matrix, ?vector⟩
  case unpack =>
    intro c i hc hi
    exact ⟨nth_trits hc hi, length_trits c, tritCode_trits hc⟩
  case pack =>
    intro a b c d e ha hb hc hd he
    have htrit : ∀ x ∈ [a, b, c, d, e], IsTrit x := by
      simp only [List.forall_mem_cons]
      exact ⟨ha, hb, hc, hd, he, by simp⟩
    refine ⟨?_, tritCode_valid rfl htrit, trits_tritCode rfl htrit⟩
    simp only [tritCode]
    omega
  case zeros => decide
  case found =>
    intro m w l r k j
    exact firstInvalid_isSome
  case matrix =>
    intro t flaws s st u m p r k j hfed hdue hfree hu hm hp hrange hscale hwf hr hk hj hbad
    subst hu hm hp
    obtain ⟨f, hf, hissue⟩ := matIssue_runs hfree hrange hscale
    refine ⟨_, exec_matrix_of_due hfed hdue, ?_⟩
    rw [hissue, ternInv_modTile hf]
    exact matRun_ternInv hwf hr hk hj hbad
  case vector =>
    intro t flaws s st u v param o b hfed hdue hfree hu hv hparam hrange hscale ho hsel hfmt hb hcode hbad
    subst hparam
    obtain ⟨f, a, w, hf, hissue, ha⟩ := vecIssue_runs hfree hu hv hrange hscale
    refine ⟨_, exec_vector_of_due hfed hdue, ?_⟩
    rw [hissue, ternInv_modTile hf]
    refine keepArith_ternInv t a w ?_
    rw [ha]
    exact List.findSome?_isSome_iff.mpr ⟨o, ho, vecInvalid_isSome hsel hfmt hb hcode hbad⟩

end Sys2Proof.Machine
end

section
/-! PROOFS. The recorder: which events are stored, which are counted, which are discarded (R402, R403). -/

namespace Sys2Proof.Machine

/-! What an event's vector and the buffer leave of the recorder and of IRQ_EVT_SEQ. -/

@[simp] theorem sendMsix_log (v : Nat) (s : State) : (sendMsix v s).log = s.log := by
  obtain ⟨irq, out, h⟩ := sendMsix_eq v s
  rw [h]

@[simp] theorem sendMsix_evtSeq (v : Nat) (s : State) : (sendMsix v s).irq.evtSeq = s.irq.evtSeq := by
  unfold sendMsix
  dsimp only
  split
  · rfl
  · split <;> rfl

@[simp] theorem setCause_log (v : Nat) (s : State) : (setCause v s).log = s.log := by
  unfold setCause
  dsimp only
  split
  · rfl
  · split
    · rfl
    · exact sendMsix_log v _

@[simp] theorem setCause_evtSeq (v : Nat) (s : State) : (setCause v s).irq.evtSeq = s.irq.evtSeq := by
  unfold setCause
  dsimp only
  split
  · rfl
  · split
    · rfl
    · exact sendMsix_evtSeq v _

@[simp] theorem gasp_irq (r : Record) (s : State) : (gasp r s).irq = s.irq := by
  unfold gasp
  split <;> rfl

/-- The vector of an event that is not stored leaves IRQ_EVT_SEQ (R402). -/
@[simp] theorem fireVector_none_evtSeq (sev : Nat) (s : State) :
    (fireVector sev none s).irq.evtSeq = s.irq.evtSeq := by
  unfold fireVector
  split
  · exact setCause_evtSeq _ s
  · rfl

/-- An event of a severity that has a vector sets the vector's cause bit, and a stored one leaves its seq in
IRQ_EVT_SEQ (R46, R47). -/
theorem fireVector_of_fires {sev : Nat} {s : State} (h : 3 ≤ sev ∨ s.irq.evtLevel.toNat ≤ sev) (q : Option Word) :
    fireVector sev q s = setCause (if 3 ≤ sev then 0 else 1) (match q with
      | some n => { s with irq := { s.irq with evtSeq := n } }
      | none => s) := by
  have hfires : (decide (3 ≤ sev) || decide (s.irq.evtLevel.toNat ≤ sev)) = true := by
    rw [← Bool.decide_or]
    exact decide_eq_true h
  refine (if_pos hfires).trans ?_
  cases q <;> rfl

@[simp] theorem growBuffer_buf (l : List Record) (s : State) : (growBuffer l s).log.buf = l := by
  unfold growBuffer
  dsimp only
  split
  · rw [setCause_log]
  · rfl

@[simp] theorem growBuffer_counts (l : List Record) (s : State) : (growBuffer l s).log.counts = s.log.counts := by
  unfold growBuffer
  dsimp only
  split
  · rw [setCause_log]
  · rfl

/-! The three rows of R402. -/

/-- An event that the filter excludes changes nothing. -/
theorem raise_of_filtered {code : BitVec 16} {sev : Nat} {s : State} (h : filtered code sev s = true)
    (items : List Word) : raise code sev items s = s := by
  unfold raise
  exact if_pos h

/-- An event that fits under the limit of its severity is stored with the next seq. -/
theorem raise_of_fits {code : BitVec 16} {sev : Nat} {items : List Word} {s : State} {r : Record}
    (hfilter : filtered code sev s = false) (hmedia : s.log.mediaFail = false) (hpf : s.log.pf = false)
    (hr : r = { mkRecord code sev items s with seq := nextSeq s.log.seqNew })
    (hfits : fill s + recLen r ≤ fillLimit sev) :
    raise code sev items s = fireVector sev (some r.seq) (gasp r (bufferRecord r s)) := by
  subst hr
  have hraw : fill s + recLen (mkRecord code sev items s) ≤ fillLimit sev := hfits
  simp only [raise, hfilter, hmedia, hpf, decide_eq_true hraw, Bool.false_and, Bool.not_false, Bool.and_true,
    Bool.false_eq_true, if_false, if_true]

/-- An event that does not fit is counted by its code. -/
theorem raise_of_full {code : BitVec 16} {sev : Nat} {items : List Word} {s : State} {r : Record}
    (hfilter : filtered code sev s = false) (hmedia : s.log.mediaFail = false) (hr : r = mkRecord code sev items s)
    (hfull : fillLimit sev < fill s + recLen r) :
    raise code sev items s = fireVector sev none (gasp r { s with log := countEvent code r.opsec s.log }) := by
  subst hr
  simp only [raise, hfilter, hmedia, decide_eq_false (Nat.not_le.mpr hfull), Bool.false_and, Bool.and_false,
    Bool.false_eq_true, if_false]

/-! The counts (R403). -/

/-- A code that has a count adds one to it, up to the top of 16 bits. -/
theorem countEvent_counts_of_known {code : BitVec 16} {l : Rec} (h : ∃ p ∈ l.counts, p.1 = code) (opsec : Word) :
    (countEvent code opsec l).counts =
      l.counts.map (fun p => if p.1 = code then (p.1, min (p.2 + 1) 0xFFFF) else p) := by
  have hknown : l.counts.any (fun p => p.1 = code) = true := by
    obtain ⟨p, hp, hcode⟩ := h
    exact List.any_eq_true.mpr ⟨p, hp, decide_eq_true hcode⟩
  simp only [countEvent, hknown, if_true]

/-- A code that has no count takes one while fewer than 246 are held. -/
theorem countEvent_counts_of_new {code : BitVec 16} {l : Rec} (hnew : ∀ p ∈ l.counts, p.1 ≠ code)
    (hroom : l.counts.length < 246) (opsec : Word) :
    (countEvent code opsec l).counts = l.counts ++ [(code, 1)] := by
  have hknown : l.counts.any (fun p => p.1 = code) = false :=
    List.any_eq_false.mpr fun p hp => by rw [decide_eq_false (hnew p hp)]; exact Bool.false_ne_true
  simp only [countEvent, hknown, hroom, Bool.false_eq_true, if_false, if_true]

/-! The statement. -/

/-- Settles O55: the limit of the event's severity decides between the buffer and the counts, and only a stored event
moves IRQ_EVT_SEQ. -/
theorem eventStore : Obligations.EventStore := by
  unfold Obligations.EventStore
  refine ⟨?low, ?high, ?counted, fun sev q s h => fireVector_of_fires h q,
    fun code sev items s h => raise_of_filtered h items, fun code opsec l h => countEvent_counts_of_known h opsec,
    fun code opsec l hnew hroom => countEvent_counts_of_new hnew hroom opsec⟩
  case low =>
    intro code sev items s r hfilter hmedia hpf hr hsev hfits
    have hlimit : fillLimit sev = 229376 := if_pos hsev
    exact ⟨raise_of_fits hfilter hmedia hpf hr (hlimit ▸ hfits), growBuffer_buf _ _, growBuffer_counts _ _⟩
  case high =>
    intro code sev items s r hfilter hmedia hpf hr hsev hfits
    have hlimit : fillLimit sev = 262144 := if_neg (by omega)
    exact raise_of_fits hfilter hmedia hpf hr (hlimit ▸ hfits)
  case counted =>
    intro code sev items s r hfilter hmedia hpf hr hfull
    have hraise := raise_of_full hfilter hmedia hr hfull
    refine ⟨hraise, ?_⟩
    rw [hraise, fireVector_none_evtSeq, gasp_irq]

end Sys2Proof.Machine
end

section
/-! PROOFS. The check units: a check enters the queue of its unit, and compares when it is applied (R417, R419). -/

namespace Sys2Proof.Machine

/-! A write to a unit's register (R417). -/

/-- A write to a register of a unit whose queue has room enters the queue (R417). -/
theorem cvuWrite_of_room {n off : Nat} {s : State} (hoff : cvuHas off = true)
    (hroom : (cvuOf s n).queue.length < 16) (v : Word) :
    cvuWrite n off v s =
      setCvu n { cvuOf s n with queue := (cvuOf s n).queue ++ [{ off := off, value := v }] } s := by
  simp [cvuWrite, hoff, Nat.not_le.mpr hroom]

/-- A write to a register of a unit whose queue is full is dropped and sets overrun (R417). -/
theorem cvuWrite_of_full {n off : Nat} {s : State} (hoff : cvuHas off = true)
    (hfull : 16 ≤ (cvuOf s n).queue.length) (v : Word) :
    cvuWrite n off v s = setCvu n { cvuOf s n with overrun := true } s := by
  simp [cvuWrite, hoff, hfull]

/-- CVU_CHECK, where the host reaches the units, is a write of check to CVUn_CMD (R419). -/
theorem exec_cvuCheck_of_reachable {s : State} (n : Fin 8) (h : reachable s = true) :
    exec (.cvuCheck n) s = .next (cvuWrite n 0x10 2 s) :=
  onWrite_next h

/-! The comparison (R419). -/

/-- The unit's result and expect are equal over the low width bits (R419). -/
def CvuAgrees (u : Cvu) : Prop := (cvuResult u).toNat % 2 ^ u.width = u.expect.toNat % 2 ^ u.width

/-- A check of equal values sets match and checked. -/
theorem cvuCheckOp_of_agrees {n : Nat} {s : State} (h : CvuAgrees (cvuOf s n)) :
    cvuCheckOp n s = setCvu n { cvuOf s n with matched := true, checked := true } s :=
  if_pos h

/-- A check of different values clears match, sets mismatch and checked, and with irq_en sets IRQ_CAUSE bit 6. -/
theorem cvuCheckOp_of_not_agrees {n : Nat} {s t : State} (h : ¬ CvuAgrees (cvuOf s n))
    (ht : t = setCvu n { cvuOf s n with matched := false, mismatch := true, checked := true } s) :
    cvuCheckOp n s = if (cvuOf s n).irqEn = true then setCause 6 t else t := by
  subst ht
  exact if_neg h

/-- Before the comparison, a write of check alone leaves the unit's registers. -/
theorem cvuEffect_check (u : Cvu) : cvuEffect { off := 0x10, value := 2 } u = u := rfl

/-- A write of check applied: the comparison, and then CVUn_RESULT shows the final value (R415, R419). -/
theorem cvuApply_check (n : Nat) (s : State) :
    cvuApply n { off := 0x10, value := 2 } s =
      modCvu n (fun u => { u with result := cvuResult u }) (cvuCheckOp n (setCvu n (cvuOf s n) s)) := by
  have hcheck : (decide (0x10 = 0x10) && bit (2 : Word) 1) = true := rfl
  have heffect : modCvu n (cvuEffect { off := 0x10, value := 2 }) s = setCvu n (cvuOf s n) s :=
    congrArg (setCvu n · s) (cvuEffect_check (cvuOf s n))
  unfold cvuApply
  dsimp only
  rw [if_pos hcheck, heffect]

/-- A cause bit leaves the check units (R48). -/
@[simp] theorem cvuOf_setCause (v : Nat) (s : State) (n : Nat) : cvuOf (setCause v s) n = cvuOf s n := by
  have h : Loud s (setCause v s) := loud_setCause v s
  unfold Loud at h
  rw [h]
  rfl

/-- A check of equal values, applied, writes its unit and nothing else: no interrupt and no event (R419). -/
theorem cvuApply_check_of_agrees {n : Nat} {s : State} (h : CvuAgrees (cvuOf s n)) :
    cvuApply n { off := 0x10, value := 2 } s =
      setCvu n { cvuOf s n with matched := true, checked := true, result := cvuResult (cvuOf s n) }
        (setCvu n { cvuOf s n with matched := true, checked := true } (setCvu n (cvuOf s n) s)) := by
  rw [cvuApply_check, cvuCheckOp_of_agrees (by rwa [cvuOf_setCvu_same])]
  simp only [modCvu, cvuOf_setCvu_same]
  rfl

/-- A check of different values, applied: the outcome in its unit, then the interrupt of irq_en, and CVUn_RESULT last
(R415, R419). -/
theorem cvuApply_check_of_not_agrees {n : Nat} {s t : State} (h : ¬ CvuAgrees (cvuOf s n))
    (ht : t = setCvu n { cvuOf s n with matched := false, mismatch := true, checked := true }
      (setCvu n (cvuOf s n) s)) :
    cvuApply n { off := 0x10, value := 2 } s =
      setCvu n { cvuOf s n with matched := false, mismatch := true, checked := true, result := cvuResult (cvuOf s n) }
        (if (cvuOf s n).irqEn = true then setCause 6 t else t) := by
  have hsame : cvuOf (setCvu n (cvuOf s n) s) n = cvuOf s n := cvuOf_setCvu_same n _ s
  have hunit : cvuOf (if (cvuOf s n).irqEn = true then setCause 6 t else t) n =
      { cvuOf s n with matched := false, mismatch := true, checked := true } := by
    rw [apply_ite (cvuOf · n), cvuOf_setCause, ite_self, ht, cvuOf_setCvu_same]
  rw [cvuApply_check, cvuCheckOp_of_not_agrees (t := t) (by rwa [hsame]) (by rw [hsame, ht]), hsame, modCvu, hunit]
  rfl

/-! The statement. -/

/-- Settles O28: the write enters the queue or is dropped, and what is applied is one comparison of the unit's own
registers, of which only a mismatch reaches the interrupt block. -/
theorem checkUnitCompares : Obligations.CheckUnitCompares := by
  unfold Obligations.CheckUnitCompares
  refine ⟨?queued, ?dropped, ?equal, ?different⟩
  case queued =>
    intro n s hreach hroom
    rw [exec_cvuCheck_of_reachable n hreach, cvuWrite_of_room rfl hroom]
  case dropped =>
    intro n s hreach hfull
    rw [exec_cvuCheck_of_reachable n hreach, cvuWrite_of_full rfl hfull]
  case equal =>
    intro n s u hu h
    subst hu
    rw [cvuApply_check_of_agrees h]
    exact ⟨cvuOf_setCvu_same _ _ _, rfl, rfl⟩
  case different =>
    intro n s u hu h
    subst hu
    refine ⟨_, ?_, ?_, ?_, cvuApply_check_of_not_agrees h rfl⟩
    · exact cvuOf_setCvu_same _ _ _
    · rfl
    · rfl

end Sys2Proof.Machine
end

section
/-! PROOFS. What every step keeps: the canonical form of both memories, the range of ECLK, the queue and the fused
identity; and the commands that leave both memories alone. -/

namespace Sys2Proof.Machine

/-! A guard answers the state itself or the state that its command makes of it. -/

section guards
variable {P : State → Prop} {f : State → State} {s t : State}

theorem live_keeps (h : live f s = .next t) (h0 : P s) (hf : P (f s)) : P t := by
  cases h
  split
  · exact hf
  · exact h0

theorem fed_keeps (h : fed f s = .next t) (h0 : P s) (hf : P (f s)) : P t := by
  cases h
  split
  · exact hf
  · exact h0

theorem sends_keeps (h : sends f s = .next t) (h0 : P s) (hf : P (f s)) : P t := by
  refine fed_keeps h h0 ?_
  split
  · exact h0
  · exact hf

theorem powered_keeps (h : powered f s = .next t) (h0 : P s) (hf : P (f s)) : P t := by
  cases h
  split
  · exact hf
  · exact h0

theorem onWrite_keeps (h : onWrite f s = .next t) (h0 : P s) (hf : P (f s)) : P t := by
  cases h
  split
  · exact hf
  · exact h0

theorem onRead_keeps {off : Nat} (h : onRead off f s = .next t) (h0 : P s) (hz : P (emit (.regValue off 0) s))
    (hf : P (f s)) : P t := by
  cases h
  split
  · exact hf
  split
  · exact hz
  · exact h0

end guards

/-! The mailbox commands that store nothing. -/

/-- A command that its own checks refuse, or that runs and stores nothing, leaves the memories and the clock. -/
theorem runCmd_quiet {c : Cmd} {r : Req} {s : State} (hr : quietOf (c.refused r s) = quietOf s)
    (hc : quietOf (c.run r s).state = quietOf s) : quietOf (runCmd c r s) = quietOf s := by
  have ha : quietOf (answer c r s).state = quietOf s := by
    unfold answer
    split
    · exact (apply_ite quietOf _ _ _).trans (by rw [hr, ite_self])
    · exact hc
  unfold runCmd deliver
  split
  · cases h : answer c r s with
    | reply st ws bulk u => simpa [h] using ha
    | later u => simpa [h] using ha
  · rfl

theorem dmaFailed_quiet (op : Nat) (r : Req) (n : Nat) (ws : List Word) (s : State) :
    quietOf (dmaFailed op r n ws s).state = quietOf s := by
  simp [dmaFailed, apply_ite quietOf]

theorem armWith_quiet {action lead arg i : Nat} {at0 tag : Word} {notify : Bool} {s u : State}
    (h : armWith action lead at0 notify arg tag s = .ok (i, u)) : quietOf u = quietOf s := by
  unfold armWith at h
  split at h
  · cases h
  split at h
  · cases h
  · cases h
    exact armAt_quiet _ _ _ _ _ _ _

theorem schedArmCmd_quiet (r : Req) (s : State) : quietOf (schedArmCmd.run r s).state = quietOf s := by
  dsimp only [schedArmCmd]
  split
  · rfl
  · next h => exact armWith_quiet h

theorem epochConfigCmd_quiet (r : Req) (s : State) : quietOf (epochConfigCmd.run r s).state = quietOf s := by
  dsimp only [epochConfigCmd]
  split
  · simp
  split
  · rfl
  · next h => simpa using armWith_quiet h

theorem fwArmCmd_quiet (r : Req) (s : State) : quietOf (fwArmCmd.run r s).state = quietOf s := by
  dsimp only [fwArmCmd]
  split
  · rfl
  · next h => simpa using armWith_quiet h

/-- The mailbox commands that store nothing and arm no entry of the schedule. -/
def storelessCommands : List Cmd :=
  [sysInfoCmd, sysCommitConfigCmd, sysDeconfigCmd, sysMaintenanceCmd, sysResetCmd, sysPowerStatusCmd,
    mapWindowCmd, jobDefineCmd, jobLoadPatternCmd, jobStatusCmd, jobTallyReadCmd, regionDeclareCmd,
    roleDeclareCmd, regionPinCmd, rolePinCmd, regionQueryCmd, roleQueryCmd, regionMoveCmd, fabricPlanLoadCmd,
    fabricStatusCmd, routeLoadCmd, eyeletDefineCmd, classWeightsCmd, fabricCountersCmd, lacePlanCompileCmd,
    laceBankQueryCmd, laceStatusCmd, weltPowerCmd, weltForceCmd, shankCoefLoadCmd, shankCoefSwapCmd,
    shankLimitsCmd, shankRateCmd, shankStatusCmd, calRunCmd, calStatusCmd, monitorReadCmd, schedDisarmCmd,
    schedQueryCmd, timePortConfigCmd, ppsConfigCmd, heartbeatConfigCmd, resilienceStatusCmd, logReadCmd,
    logFreezeCmd, logLastgaspCmd, logFilterCmd, fwBeginCmd, fwBlockCmd, fwVerifyCmd, fwStatusCmd, fwAbortCmd,
    idCertReadCmd, attestReportCmd, svcTokenKeyCmd, testUnlockCmd]

theorem storelessCommands_quiet {c : Cmd} (hc : c ∈ storelessCommands) (r : Req) (s : State) :
    quietOf (c.run r s).state = quietOf s := by
  unfold storelessCommands at hc
  repeat' rcases hc with _ | ⟨_, hc⟩
  all_goals
    dsimp only [sysInfoCmd, sysCommitConfigCmd, sysDeconfigCmd, sysMaintenanceCmd, sysResetCmd, sysPowerStatusCmd,
      mapWindowCmd, jobDefineCmd, jobLoadPatternCmd, jobStatusCmd, jobTallyReadCmd, regionDeclareCmd,
      roleDeclareCmd, regionPinCmd, rolePinCmd, regionQueryCmd, roleQueryCmd, regionMoveCmd, fabricPlanLoadCmd,
      fabricStatusCmd, routeLoadCmd, eyeletDefineCmd, classWeightsCmd, fabricCountersCmd, lacePlanCompileCmd,
      laceBankQueryCmd, laceStatusCmd, weltPowerCmd, weltForceCmd, shankCoefLoadCmd, shankCoefSwapCmd,
      shankLimitsCmd, shankRateCmd, shankStatusCmd, calRunCmd, calStatusCmd, monitorReadCmd, schedDisarmCmd,
      schedQueryCmd, timePortConfigCmd, ppsConfigCmd, heartbeatConfigCmd, resilienceStatusCmd, logReadCmd,
      logFreezeCmd, logLastgaspCmd, logFilterCmd, fwBeginCmd, fwBlockCmd, fwVerifyCmd, fwStatusCmd, fwAbortCmd,
      idCertReadCmd, attestReportCmd, svcTokenKeyCmd, testUnlockCmd]
    (repeat' split) <;> simp [dmaFailed_quiet]

/-! The commands that leave both memories alone. -/

/-- The commands of the power loop, which alone write ECLK outside a reset (R451). -/
def movesClock : Instr → Bool
  | .powerLoopSample _ | .eclkStepUp => true
  | _ => false

/-- A command that stores nothing leaves the memories, and unless it is of the power loop the clock. -/
theorem exec_quiet {c : Instr} {s t : State} (hm : mayStore c = false) (hk : movesClock c = false)
    (h : exec c s = .next t) : quietOf t = quietOf s := by
  cases c with dsimp only [exec] at h
  | sysInfo _ | sysCommitConfig _ | sysDeconfig _ | sysMaintenance _ | sysReset _ | sysPowerStatus _ | mapWindow _
  | jobDefine _ | jobLoadPattern _ | jobStatus _ | jobTallyRead _ | regionDeclare _ | roleDeclare _ | regionPin _
  | rolePin _ | regionQuery _ | roleQuery _ | regionMove _ | fabricPlanLoad _ | fabricStatus _ | routeLoad _
  | eyeletDefine _ | classWeights _ | fabricCounters _ | lacePlanCompile _ | laceBankQuery _ | laceStatus _
  | weltPower _ | weltForce _ | shankCoefLoad _ | shankCoefSwap _ | shankLimits _ | shankRate _ | shankStatus _
  | calRun _ | calStatus _ | monitorRead _ | schedDisarm _ | schedQuery _ | timePortConfig _ | ppsConfig _
  | heartbeatConfig _ | resilienceStatus _ | logRead _ | logFreeze _ | logLastgaspRead _ | logFilter _ | fwBegin _
  | fwBlock _ | fwVerify _ | fwStatus _ | fwAbort _ | idCertRead _ | attestReport _ | svcTokenKey _
  | testUnlock _ =>
    exact Host.Outcome.next.inj h ▸
      runCmd_quiet (by simp) (storelessCommands_quiet (by simp [storelessCommands]) _ _)
  | schedArm r => exact Host.Outcome.next.inj h ▸ runCmd_quiet (by simp) (schedArmCmd_quiet r s)
  | epochConfig r => exact Host.Outcome.next.inj h ▸ runCmd_quiet (by simp) (epochConfigCmd_quiet r s)
  | fwArm r => exact Host.Outcome.next.inj h ▸ runCmd_quiet (by simp) (fwArmCmd_quiet r s)
  | mbxRingWrite _ _ | mbxDoneWrite _ _ | irqMaskWrite _ | irqJobMaskWrite _ | tmuAddendWrite _ | tmuStepWrite _
  | tmuWdogWrite _ | tpmTxTailWrite _ | tpmRingSizeWrite _ _ | cvuStart _ _ | cvuCheck _ | cvuFeedB _ _
  | cvuFeedH _ _ | cvuFeedW _ _ | cvuCtrlWrite _ _ =>
    exact onWrite_keeps (P := fun t => quietOf t = quietOf s) h rfl (by simp)
  | mbxErrRead | tmuNsRead | tpmDropRead | logFillPeakRead | logLostRead =>
    exact onRead_keeps (P := fun t => quietOf t = quietOf s) h rfl (by simp) (by simp)
  | coalesceGapEnd _ | functionLevelReset | d3hotEntry | d0Return | hostLinkReset | bootRomStart | migration _
  | startupComplete _ | glbHeartbeatTick | holdupCheck _ _ | moveUpdateReceive _ | moveCopyComplete _
  | moveDrainAck _ _ | moveFlipAck _ | moveOldPlaceRelease | moveFlipAckTimeout | monitorScan _ _
  | bandgapCompare _ _ | bandgapFail | calDriftTest | calDeferredStart | calRunComplete _ | calRecordWrite _
  | holdoverEnter | nsWrap | secondBoundary | ppsInputEdge _ _ | ppsLost | schedRecordExpire _ | tpmFrameReceive _ _
  | tpmFrameTransmit _ | timePortLinkChange _ | mirrorSeal | svcSessionIdleTimeout | svcSessionClose
  | testNonceExpiry | ppsOutRise | ppsOutFall =>
    exact live_keeps (P := fun t => quietOf t = quietOf s) h rfl (by simp [apply_ite quietOf])
  | matrixComplete _ | vectorComplete _ =>
    refine fed_keeps (P := fun t => quietOf t = quietOf s) h rfl ?_
    split <;> simp
  | waitMet _ | timewaitRelease _ | roleEnd _ | quarantineEnd _ | sramCorrectionRewrite _ _ | sramBankScrub _ _ _
  | patrolScrubRead _ _ _ | scrubPeriodChange _ | helloSend _ _ | replayRequestReceive _ _ | eyeletSeqGapTimeout _
  | packetSend _ | packetForward _ _ | laneLockTimeout _ _ _ | laneErrorCheck _ _ _ _ _ | laneRetry _ _
  | laneReturn _ _ | unitMissing _ | relaceQuiesce _ | laneDealResume _ | relaceComplete | laceDark _
  | laceLightReturn _ | laceSettleTimeout _ | laceLockLoss _ | laceLossAlarm _ | shankSample _
  | dimmTrainingComplete _ _ | linkTrainingComplete _ _ | laneLockGained _ _ =>
    exact fed_keeps (P := fun t => quietOf t = quietOf s) h rfl (by simp [apply_ite quietOf])
  | heldOperationRelease _ | dirtyDrainEnd | heartbeatSend =>
    exact sends_keeps (P := fun t => quietOf t = quietOf s) h rfl (by simp [apply_ite quietOf])
  | trialTimeout | opsecTick | inputRangeChange _ | converterTempChange _ | logChunkWrite | logChunkComplete _
  | lossRecordWrite | toeEraseComplete _ | logFreezeTimeout | logScanComplete _ | modResetRelease
  | holdupStoreCharged _ =>
    exact powered_keeps (P := fun t => quietOf t = quietOf s) h rfl (by simp)
  | registerWrite _ _ _ | bar0BadAccess _ _ _ | svcSessionOpen _ _ =>
    exact Host.Outcome.next.inj h ▸ (by simp [apply_ite quietOf])
  | bar2Read a n fl =>
    unfold execBar2Read at h
    dsimp only at h
    split at h
    · cases h
    · exact Host.Outcome.next.inj h ▸ (by simp [apply_ite quietOf])
  | heartbeatReceive record =>
    unfold execHeartbeatReceive at h
    exact live_keeps (P := fun t => quietOf t = quietOf s) h rfl (by simp [apply_ite quietOf])
  | helloReceive u l b =>
    unfold execHelloReceive at h
    split at h
    · cases h
    · exact fed_keeps (P := fun t => quietOf t = quietOf s) h rfl (by simp)
  | frameReceive u l cw =>
    unfold execFrameReceive at h
    split at h
    · cases h
    · exact fed_keeps (P := fun t => quietOf t = quietOf s) h rfl (by simp)
  | powerLoopSample _ | eclkStepUp => cases hk
  | jobStart _ | jobStop _ | jobRelease _ | placeJob _ | buddySet _ | recoverPromote _ | slotTake _ | powerOn
  | svcMessage _ _ | bar2Write _ _ _ | moduleReset | powerFail _ | holdupEnd _ | eventRaise _ | powerLimitTrip
  | dieOvertempTrip _ | moveFlip | moveDrainTimeout | scheduleEntryFire | shankThermalTrip _ | peerCheck _
  | resetDelayExpiry | matrix _ _ | vector _ _ | wait _ | waitTimeout _ | timewait _ | loop _ | fence _
  | fenceRelease _ | endStep _ | jobStartInstant _ | stitchRequestReceive _ | mrdimmCorrectionRewrite _ _
  | dimmTempRead _ _ | caParityError _ _ | channelZeroComplete _ | storeApply _ | dimmShutdownCondition _
  | memoryRetrainComplete _ _ | stitch _ _ | stitchEntryGrant | stitchSegmentSend _ _ _ | stitchResponseReceive
  | stitchTimeout _ | mirrorCopyStart _ | mirrorPageRead _ =>
    cases hm

/-! Every command. -/

section sound
variable {p e : Prop} {k : List Instr × DWord × Byte × Byte}

theorem ite_sound {c : Prop} [Decidable c] {s t : State} (hs : SoundQ p e k (quietOf s))
    (ht : SoundQ p e k (quietOf t)) : SoundQ p e k (quietOf (if c then s else t)) := by
  split
  · exact hs
  · exact ht

/-- A command that may store keeps both memories canonical, ECLK in its range, the queue and the identity. -/
theorem exec_sound_of_mayStore {c : Instr} {s t : State} (hm : mayStore c = true)
    (h0 : SoundQ p e k (quietOf s)) (h : exec c s = .next t) : SoundQ p e k (quietOf t) := by
  cases c with dsimp only [exec] at h
  | jobStart _ | jobStop _ | jobRelease _ | placeJob _ | buddySet _ | recoverPromote _ =>
    exact Host.Outcome.next.inj h ▸ runCmd_sound _ _ s h0 (by simp) (by simp [h0])
  | powerLimitTrip | dieOvertempTrip _ | moveFlip | moveDrainTimeout | scheduleEntryFire | shankThermalTrip _
  | resetDelayExpiry =>
    exact live_sound h0 (by simp [h0]) h
  | peerCheck _ => exact live_sound h0 (ite_sound (by simp [h0]) h0) h
  | matrix _ _ | vector _ _ | wait _ | timewait _ | loop _ | fence _ | endStep _ =>
    exact fed_sound h0 (issue_sound _ _ _ s (fun st u hu => by simp [hu]) h0) h
  | waitTimeout _ | fenceRelease _ | jobStartInstant _ | dimmTempRead _ _ | caParityError _ _
  | channelZeroComplete _ | storeApply _ | dimmShutdownCondition _ | memoryRetrainComplete _ _ =>
    exact fed_sound h0 (by simp [h0]) h
  | stitchRequestReceive _ | mrdimmCorrectionRewrite _ _ => exact fed_sound h0 (ite_sound (by simp [h0]) h0) h
  | stitch _ _ =>
    refine sends_sound h0 ?_ h
    exact issue_sound _ _ _ _ (fun st u hu => by simp [hu]) (by simp [h0])
  | stitchEntryGrant | stitchSegmentSend _ _ _ | stitchResponseReceive | stitchTimeout _ | mirrorCopyStart _
  | mirrorPageRead _ =>
    exact sends_sound h0 (by simp [h0]) h
  | moduleReset | powerFail _ | holdupEnd _ | eventRaise _ =>
    exact powered_sound h0 (by simp [h0]) h
  | slotTake _ | svcMessage _ _ => exact Host.Outcome.next.inj h ▸ ite_sound (by simp [h0]) h0
  | powerOn => exact Host.Outcome.next.inj h ▸ ite_sound h0 (by simp [h0])
  | bar2Write a bs fl =>
    unfold execBar2Write at h
    dsimp only at h
    split at h
    · cases h
    · exact Host.Outcome.next.inj h ▸ ite_sound h0 (by simp [h0])
  | sysInfo _ | sysCommitConfig _ | sysDeconfig _ | sysMaintenance _ | sysReset _ | sysPowerStatus _ | mapWindow _
  | jobDefine _ | jobLoadPattern _ | jobStatus _ | jobTallyRead _ | regionDeclare _ | roleDeclare _ | regionPin _
  | rolePin _ | regionQuery _ | roleQuery _ | regionMove _ | fabricPlanLoad _ | fabricStatus _ | routeLoad _
  | eyeletDefine _ | classWeights _ | fabricCounters _ | lacePlanCompile _ | laceBankQuery _ | laceStatus _
  | weltPower _ | weltForce _ | shankCoefLoad _ | shankCoefSwap _ | shankLimits _ | shankRate _ | shankStatus _
  | calRun _ | calStatus _ | monitorRead _ | schedArm _ | schedDisarm _ | schedQuery _ | timePortConfig _
  | ppsConfig _ | epochConfig _ | heartbeatConfig _ | resilienceStatus _ | logRead _ | logFreeze _
  | logLastgaspRead _ | logFilter _ | fwBegin _ | fwBlock _ | fwVerify _ | fwArm _ | fwStatus _ | fwAbort _
  | idCertRead _ | attestReport _ | svcTokenKey _ | testUnlock _ | mbxRingWrite _ _ | mbxDoneWrite _ _
  | irqMaskWrite _ | irqJobMaskWrite _ | tmuAddendWrite _ | tmuStepWrite _ | tmuWdogWrite _ | tpmTxTailWrite _
  | tpmRingSizeWrite _ _ | cvuStart _ _ | cvuCheck _ | cvuFeedB _ _ | cvuFeedH _ _ | cvuFeedW _ _ | cvuCtrlWrite _ _
  | mbxErrRead | tmuNsRead | tpmDropRead | logFillPeakRead | logLostRead | coalesceGapEnd _ | functionLevelReset
  | d3hotEntry | d0Return | hostLinkReset | bootRomStart | migration _ | startupComplete _ | glbHeartbeatTick
  | holdupCheck _ _ | powerLoopSample _ | eclkStepUp | moveUpdateReceive _ | moveCopyComplete _ | moveDrainAck _ _
  | moveFlipAck _ | moveOldPlaceRelease | moveFlipAckTimeout | monitorScan _ _ | bandgapCompare _ _ | bandgapFail
  | calDriftTest | calDeferredStart | calRunComplete _ | calRecordWrite _ | holdoverEnter | nsWrap | secondBoundary
  | ppsInputEdge _ _ | ppsLost | schedRecordExpire _ | tpmFrameReceive _ _ | tpmFrameTransmit _
  | timePortLinkChange _ | mirrorSeal | svcSessionIdleTimeout | svcSessionClose | testNonceExpiry | ppsOutRise
  | ppsOutFall | registerWrite _ _ _ | bar0BadAccess _ _ _ | svcSessionOpen _ _ | bar2Read _ _ _
  | heartbeatReceive _ | trialTimeout | opsecTick | inputRangeChange _ | converterTempChange _ | logChunkWrite
  | logChunkComplete _ | lossRecordWrite | toeEraseComplete _ | logFreezeTimeout | logScanComplete _
  | modResetRelease | holdupStoreCharged _ | matrixComplete _ | vectorComplete _ | waitMet _ | timewaitRelease _
  | roleEnd _ | quarantineEnd _ | sramCorrectionRewrite _ _ | sramBankScrub _ _ _ | patrolScrubRead _ _ _
  | scrubPeriodChange _ | helloSend _ _ | replayRequestReceive _ _ | eyeletSeqGapTimeout _ | packetSend _
  | packetForward _ _ | laneLockTimeout _ _ _ | laneErrorCheck _ _ _ _ _ | laneRetry _ _ | laneReturn _ _
  | unitMissing _ | relaceQuiesce _ | laneDealResume _ | relaceComplete | laceDark _ | laceLightReturn _
  | laceSettleTimeout _ | laceLockLoss _ | laceLossAlarm _ | shankSample _ | dimmTrainingComplete _ _
  | linkTrainingComplete _ _ | laneLockGained _ _ | heldOperationRelease _ | dirtyDrainEnd | heartbeatSend
  | helloReceive _ _ _ | frameReceive _ _ _ =>
    cases hm

/-- Every command keeps both memories canonical, ECLK in its range, the queue and the fused identity. -/
theorem exec_sound {c : Instr} {s t : State} (h0 : SoundQ p e k (quietOf s)) (h : exec c s = .next t) :
    SoundQ p e k (quietOf t) := by
  cases hm : mayStore c with
  | true => exact exec_sound_of_mayStore hm h0 h
  | false =>
    cases hk : movesClock c with
    | false => rwa [exec_quiet hm hk h]
    | true =>
      unfold movesClock at hk
      split at hk
      · exact live_sound h0 (powerSample_sound _ s h0) h
      · exact live_sound h0 (eclkStepUp_sound s h0) h
      · cases hk

/-- Every step keeps both memories canonical and ECLK in its range. -/
theorem step_sound {s t : State} (h0 : SoundQ p e (quietOf s).2.2.2 (quietOf s)) (h : step s = .next t) :
    (p → MemoryWf t.mem.sram ∧ MemoryWf t.mem.dram) ∧ (e → EclkOk t.power.eclk) := by
  unfold step at h
  split at h
  · cases h
    have ht := startWaiting_sound _ (clock_sound s h0)
    exact ⟨ht.1, ht.2.1⟩
  · next c rest _ =>
    have hs : SoundQ p e (quietOf { s with pending := rest }).2.2.2 (quietOf { s with pending := rest }) :=
      ⟨h0.1, h0.2.1, rfl⟩
    have ht := exec_sound hs h
    exact ⟨ht.1, ht.2.1⟩

end sound

/-! The statements. -/

/-- Settles O49, by what every step keeps. -/
theorem memoryStaysCanonical : Obligations.MemoryStaysCanonical := by
  unfold Obligations.MemoryStaysCanonical
  intro s t hsram hdram h
  have h0 : SoundQ True False (quietOf s).2.2.2 (quietOf s) := ⟨fun _ => ⟨hsram, hdram⟩, False.elim, rfl⟩
  exact (step_sound h0 h).1 trivial

/-- Settles O50, by what every step keeps. -/
theorem clockStaysInRange : Obligations.ClockStaysInRange := by
  unfold Obligations.ClockStaysInRange
  intro s t hlow hhigh hgrid h
  have h0 : SoundQ False True (quietOf s).2.2.2 (quietOf s) := ⟨False.elim, fun _ => ⟨hlow, hhigh, hgrid⟩, rfl⟩
  exact (step_sound h0 h).2 trivial

/-- Settles O51, by what every command keeps. -/
theorem queueAndIdentityStay : Obligations.QueueAndIdentityStay := by
  unfold Obligations.QueueAndIdentityStay
  intro c s t h
  have h0 : SoundQ False False (quietOf s).2.2.2 (quietOf s) := ⟨False.elim, False.elim, rfl⟩
  have ht := (exec_sound h0 h).2.2
  simp only [quietOf, Prod.mk.injEq] at ht
  exact ht

end Sys2Proof.Machine
end

section
/-! PROOFS. Completion of a command: its slot, and the frame of everything else (R36, R40). -/

namespace Sys2Proof.Machine

variable {r : Req} {now : Bool} {st : Status} {ws : List Word} {bulk : List (Nat × List Byte)} {s : State}

/-- Completion of a command of a slot: the slot is Done with its response, and only interrupts and outputs follow. -/
theorem complete_of_slot {n : Fin 64} (h : r.via = .slot n) :
    ∃ irq out, complete r now st ws bulk s =
      { modSlot n (fun x => { x with cond := .done, resp := putWords x.resp 0 (responseWords r st ws) }) s with
        irq := irq, out := out } := by
  obtain ⟨out, hdma⟩ := forAll_emit_eq bulk (fun p => Output.dma p.1 p.2) s
  obtain ⟨irq', out', hmsg⟩ := slotMessage_eq n (isNoIrq r) now
    (modSlot n (fun x => { x with cond := .done, resp := putWords x.resp 0 (responseWords r st ws) }) { s with out := out })
  refine ⟨irq', out', ?_⟩
  simp only [complete, h, hdma, hmsg]
  rfl

/-- Completion changes the slots, the interrupt block and the outputs alone. -/
theorem complete_eq : ∃ slots irq out,
    complete r now st ws bulk s = { s with mbx := { s.mbx with slots := slots }, irq := irq, out := out } := by
  cases h : r.via with
  | slot n =>
    obtain ⟨irq, out, hc⟩ := complete_of_slot (now := now) (st := st) (ws := ws) (bulk := bulk) (s := s) h
    exact ⟨_, irq, out, hc⟩
  | service => exact ⟨s.mbx.slots, s.irq, _, by simp only [complete, h]; rfl⟩
  | discarded n =>
    obtain ⟨out, hdma⟩ := forAll_emit_eq bulk (fun p => Output.dma p.1 p.2) s
    exact ⟨s.mbx.slots, s.irq, out, by simp only [complete, h, hdma]⟩

/-- Settles O15, by the state that completion leaves. -/
theorem commandCompletion : Obligations.CommandCompletion := by
  unfold Obligations.CommandCompletion
  refine ⟨?slot, ?frame⟩
  case slot =>
    intro r n now st ws bulk s h
    obtain ⟨irq, out, hc⟩ := complete_of_slot (now := now) (st := st) (ws := ws) (bulk := bulk) (s := s) h
    have hsame : slotOf (complete r now st ws bulk s) n =
        { slotOf s n with cond := .done, resp := putWords (slotOf s n).resp 0 (responseWords r st ws) } := by
      rw [hc]
      exact slotOf_setSlot_same _ _ _
    refine ⟨by rw [hsame], by rw [hsame], fun i hi => ?_, fun m hm => ?_⟩
    · rw [hsame]
      simpa using tget_putWords (slotOf s n).resp 0 (responseWords r st ws) hi
    · rw [hc]
      exact slotOf_setSlot_other _ _ hm
  case frame =>
    intro r now st ws bulk s
    exact complete_eq

end Sys2Proof.Machine
end

section
/-! PROOFS. The power loop: the clock that it lowers and raises, and what a sample leaves (R451, R452). -/

namespace Sys2Proof.Machine

theorem Loud.ite {c : Prop} [Decidable c] {s t u : State} (ht : Loud s t) (hu : Loud s u) :
    Loud s (if c then t else u) := by
  split
  · exact ht
  · exact hu

theorem loud_limitedEvent (was : Bool) (cause : Nat) (s : State) : Loud s (limitedEvent was cause s) :=
  .ite (.refl s) (loud_raiseLimited _ _ _ _ _ _ _)

/-- A sample lowers ECLK where a reading is over its limit, above the floor (R451). -/
theorem sample_lowers (r : PowerReading) (s : State) :
    ((overLimits r (dieTemp s)).any (·) && eclkMin < s.power.eclk : Bool) =
      decide ((1050 < r.pdieW ∨ 37500 < r.iinMa ∨ qi 100 < dieTemp s) ∧ 1400 < s.power.eclk) := by
  rw [Bool.eq_iff_iff]
  simp only [overLimits, List.any_cons, List.any_nil, Bool.or_false, Bool.and_eq_true, Bool.or_eq_true, decide_eq_true_eq]
  exact Iff.rfl

/-- A clock of a condition starts with the first sample that finds it. -/
theorem heldSince_eq (b : Bool) (old : Option Nat) (s : State) :
    heldSince b old s = if b then some (old.getD s.clk) else none := by
  cases b <;> cases old <;> rfl

/-- What a sample leaves: its readings, the clock that it lowered or kept, and the clock of the calm; outside the power
block there is an event at most (R451, R452). -/
theorem powerSample_spec {r : PowerReading} {s : State} {lower calm : Bool}
    (hl : lower = decide ((1050 < r.pdieW ∨ 37500 < r.iinMa ∨ qi 100 < dieTemp s) ∧ 1400 < s.power.eclk))
    (hc : calm = decide (r.pdieW * 100 < 95 * 1050 ∧ r.iinMa * 100 < 95 * 37500 ∧ dieTemp s < qi 95)) :
    ∃ p : Power, Loud { s with power := p } (powerSample r s) ∧ p.sample = r ∧
      p.eclk = (if lower then s.power.eclk - 25 else s.power.eclk) ∧
      p.stepsDown = (if lower then s.power.stepsDown + 1 else s.power.stepsDown) ∧
      p.calmSince = (if lower then none else if calm then some (s.power.calmSince.getD s.clk) else none) := by
  have hcalm : calmReading r (dieTemp s) = calm := by
    rw [hc, Bool.eq_iff_iff]
    simp only [calmReading, Bool.and_eq_true, decide_eq_true_eq, and_assoc]
    constructor <;> rintro ⟨hdie, hin, htemp⟩ <;> exact ⟨by omega, by omega, htemp⟩
  unfold powerSample
  dsimp only
  rw [sample_lowers, ← hl, hcalm, heldSince_eq]
  exact ⟨_, .trans (.ite (loud_raiseLimited _ _ _ _ _ _ _) (.refl _)) (loud_limitedEvent _ _ _), rfl, rfl, rfl, rfl⟩

/-- A calm of 1 ms below the top raises ECLK, and the 1 ms starts again (R451). -/
theorem loud_eclkStepUp {s : State} {n : Nat} (hcalm : s.power.calmSince = some n) (hlong : ticksMs 1 ≤ since n s)
    (htop : s.power.eclk < 2200) :
    Loud { s with power.eclk := s.power.eclk + 25, power.calmSince := some s.clk } (eclkStepUp s) := by
  have hdue : (heldFor (ticksMs 1) s.power.calmSince s && s.power.eclk < eclkMax : Bool) = true := by
    simp [heldFor, hcalm, hlong, eclkMax, htop]
  unfold eclkStepUp
  rw [if_pos hdue]
  exact loud_limitedEvent _ _ _

/-- A new power block and events are all that a state has. -/
theorem Loud.frame_power {s t : State} {p : Power} (h : Loud { s with power := p } t) :
    t.power = p ∧ t = { s with power := t.power, log := t.log, irq := t.irq, out := t.out } := by
  unfold Loud at h
  rw [h]
  exact ⟨rfl, rfl⟩

/-- Settles O22, by what a sample and a step up leave of the power block. -/
theorem powerLoop : Obligations.PowerLoop := by
  unfold Obligations.PowerLoop
  refine ⟨?calm, ?sample, ?stepUp⟩
  case calm =>
    intro r s lower calm halive hl hc
    obtain ⟨p, hloud, -, -, -, hsince⟩ := powerSample_spec hl hc
    exact ⟨_, live_next halive.1 halive.2, by rw [hloud.frame_power.1, hsince]⟩
  case sample =>
    intro r s halive
    obtain ⟨p, hloud, hsample, heclk, hsteps, -⟩ := powerSample_spec (r := r) (s := s) rfl rfl
    obtain ⟨hp, hframe⟩ := hloud.frame_power
    refine ⟨_, live_next halive.1 halive.2, ?_, ?_, ?_, hframe⟩
    · rw [hp, hsample]
    · rw [hp, heclk]
      simp only [decide_eq_true_eq]
    · rw [hp, hsteps]
      simp only [decide_eq_true_eq]
  case stepUp =>
    intro s n halive hcalm hlong htop
    obtain ⟨hp, hframe⟩ := (loud_eclkStepUp hcalm hlong htop).frame_power
    exact ⟨_, live_next halive.1 halive.2, by rw [hp], by rw [hp], hframe⟩

end Sys2Proof.Machine
end

section
/-! PROOFS. A write of TMU_STEP: the counter that it moves, and the entry that blocks it (R357, R358, R360). -/

namespace Sys2Proof.Machine

/-- What it is for an entry to block a negative step (R358). -/
theorem blocksStep_iff {d : Int} {s : State} {e : Entry} : blocksStep d s e = true ↔
    (e.st = .armed ∨ e.st = .firing) ∧ 0 ≤ siteDiff (siteNow s) e.instant ∧ siteDiff (siteNow s) e.instant ≤ -d := by
  simp only [blocksStep, entActive, Bool.and_eq_true, Bool.or_eq_true, decide_eq_true_eq, and_assoc]

/-- A step that no entry blocks adds its signed value to the extended counter and leaves frac (R357). -/
theorem tmuStepWrite_counts {v : Word} {s : State}
    (h : (if v.toInt < 0 then firstEntry (blocksStep v.toInt s) s else none) = none) :
    siteNow (tmuStepWrite v s) = siteNow s + BitVec.ofInt 48 v.toInt ∧ (tmuStepWrite v s).tmu.frac = s.tmu.frac := by
  have hcount : ∀ w, let u := if v.toInt = 0 then s else stepBoundary w (siteNow s) (stepCounter v.toInt s)
      siteNow u = siteNow s + BitVec.ofInt 48 v.toInt ∧ u.tmu.frac = s.tmu.frac := by
    intro w
    dsimp only
    split
    · next h0 => simp [h0]
    · obtain ⟨hsite, hfrac⟩ := siteNow_stepBoundary w (siteNow s) (stepCounter v.toInt s)
      obtain ⟨hsite', hfrac'⟩ := siteNow_stepCounter v.toInt s
      exact ⟨hsite.trans hsite', hfrac.trans hfrac'⟩
  unfold tmuStepWrite
  dsimp only
  rw [h]
  dsimp only
  rw [(siteNow_raise _ _ _ _).1, (siteNow_raise _ _ _ _).2]
  split
  · exact hcount _
  · exact hcount _

/-- A negative step that an entry blocks sets step_refused and raises an event; the schedule stays (R358, R360). -/
theorem tmuStepWrite_refused {v : Word} {s : State} {x : Nat × Entry} (hneg : v.toInt < 0)
    (h : firstEntry (blocksStep v.toInt s) s = some x) :
    (tmuStepWrite v s).sched = s.sched ∧ (tmuStepWrite v s).tmu = { s.tmu with status := s.tmu.status ||| 2 } := by
  have hraise : Loud (tmuFlag 1 s) (tmuStepWrite v s) := by
    unfold tmuStepWrite
    dsimp only
    rw [if_pos hneg, h]
    exact loud_raise _ _ _ _
  unfold Loud at hraise
  rw [hraise]
  exact ⟨tmuFlag_sched 1 s, tmuFlag_tmu 1 s (by decide)⟩

end Sys2Proof.Machine

namespace Sys2Proof

open Machine

/-- Settles O25: whether an entry blocks the step decides between the two forms. -/
theorem stepWrite : Obligations.StepWrite := by
  unfold Obligations.StepWrite
  refine ⟨?counts, ?refused⟩
  case counts =>
    intro v s hreach hfree
    have hnone : (if v.toInt < 0 then firstEntry (blocksStep v.toInt s) s else none) = none := by
      split
      · next hneg =>
        refine firstEntry_none fun e he => ?_
        have hopen := hfree.resolve_left (Int.not_le.mpr hneg) e he
        rw [← blocksStep_iff] at hopen
        exact Bool.not_eq_true _ ▸ hopen
      · rfl
    obtain ⟨hsite, hfrac⟩ := tmuStepWrite_counts hnone
    exact ⟨_, onWrite_next hreach, hfrac, hsite⟩
  case refused =>
    intro v s k e hreach hneg hmem hactive hfrom hto
    obtain ⟨x, hx⟩ := firstEntry_some (p := blocksStep v.toInt s) hmem (blocksStep_iff.mpr ⟨hactive, hfrom, hto⟩)
    exact ⟨_, onWrite_next hreach, tmuStepWrite_refused hneg hx⟩

end Sys2Proof
end

section
/-! PROOFS. What leaves memory alone, and the bytes that a store leaves (R60, R126, R139, R194, R216). -/

namespace Sys2Proof.Machine

/-! Commands that store nothing. -/

/-- A command that stores nothing leaves every byte of both memories. -/
theorem exec_memories_of_storeless {c : Instr} {s t : State} (hm : mayStore c = false) (h : exec c s = .next t) :
    t.mem.sram = s.mem.sram ∧ t.mem.dram = s.mem.dram := by
  cases hk : movesClock c with
  | false =>
    have hq := exec_quiet hm hk h
    exact ⟨congrArg (·.1) hq, congrArg (·.2.1) hq⟩
  | true =>
    unfold movesClock at hk
    split at hk
    · next r =>
      refine live_keeps (P := fun t => t.mem.sram = s.mem.sram ∧ t.mem.dram = s.mem.dram) h ⟨rfl, rfl⟩ ?_
      obtain ⟨p, hloud, -⟩ := powerSample_spec (r := r) (s := s) rfl rfl
      rw [hloud.frame_power.2]
      exact ⟨rfl, rfl⟩
    · refine live_keeps (P := fun t => t.mem.sram = s.mem.sram ∧ t.mem.dram = s.mem.dram) h ⟨rfl, rfl⟩ ?_
      unfold eclkStepUp
      split
      · rw [(loud_limitedEvent _ _ _).same.2.2.2.2.2.1]
        exact ⟨rfl, rfl⟩
      · exact ⟨rfl, rfl⟩
    · cases hk

/-! A BAR2 write. -/

/-- Errors that reach the memories leave the windows. -/
@[simp] theorem inject_bar2 (l : List Flaw) (s : State) : (inject l s).bar2 = s.bar2 := by
  unfold inject forAll
  refine List.foldlRecOn (motive := fun t : State => t.bar2 = s.bar2) l _ rfl fun t ht f _ => ?_
  dsimp only
  split
  · exact ht
  · split <;> exact ht
  · exact ht

theorem keeps_bar2Write {a : BitVec 34} {bs : List Byte} {fl : List Flaw} {s : State}
    (hin : a.toNat % 4096 + bs.length ≤ 4096) :
    ∃ t, exec (.bar2Write a bs fl) s = .next t ∧
      (∀ pl pa jk, winHit (a.toNat / 2 ^ 24) (a.toNat % 2 ^ 24) bs.length true (inject fl s) = .at pl pa jk →
        KeepsOutside (storedSram bs.length pl) (storedDram pl) s t) ∧
      (∀ c, winHit (a.toNat / 2 ^ 24) (a.toNat % 2 ^ 24) bs.length true (inject fl s) = .no c →
        KeepsOutside [] [] s t) := by
  have hpage : pageOf (inject fl s) (a.toNat / 2 ^ 24) = pageOf s (a.toNat / 2 ^ 24) := by simp [pageOf]
  have hwrite := keeps_winWrite
    { page := a.toNat / 2 ^ 24, map := pageOf s (a.toNat / 2 ^ 24), off := a.toNat % 2 ^ 24, bytes := bs } (inject fl s)
  unfold winHit
  rw [hpage]
  refine ⟨_, if_neg (Nat.not_lt.mpr hin), fun pl pa jk h => ?_, fun c h => ?_⟩
  · split
    · exact .refl _ _ _
    · exact (keeps_quiet (inject_quiet fl s)).trans (hwrite.1 pl pa jk h)
  · split
    · exact .refl _ _ _
    · exact (keeps_quiet (inject_quiet fl s)).trans (hwrite.2 c h)

/-! A request of Stitch. -/

/-- A request taken from the queue stores at its place alone, and at none when its check word is bad or the ownership
map does not allow it (R180, R194). -/
theorem keeps_requestReceive {fl : List Flaw} {s u v : State} {p : Pkt} {rest : List Pkt} {q : Request}
    (hu : u = nextRequest s) (hp : u.fabric.inReq = p :: rest)
    (hv : v = inject fl { u with fabric := { u.fabric with inReq := rest } }) (hq : q = readRequest p.bytes) :
    (∀ pl, boundPlace p q v = some pl → KeepsOutside (storedSram q.n pl) (storedDram pl) s (requestReceive fl s)) ∧
      (boundPlace p q v = none → KeepsOutside [] [] s (requestReceive fl s)) := by
  have hsv : ∀ a d, KeepsOutside a d s v := fun a d => keeps_quiet (by rw [hv, inject_quiet, hu]; simp)
  have hserve := keeps_serveRequest p q hq v
  have hrun : requestReceive fl s = serveRequest p v ∨ quietOf (requestReceive fl s) = quietOf v := by
    unfold requestReceive
    dsimp only
    rw [← hu, hp]
    dsimp only
    rw [← hv]
    split
    · exact .inl rfl
    · exact .inr (by simp)
  rcases hrun with h | h
  · rw [h]
    exact ⟨fun pl hpl => (hsv _ _).trans (hserve.1 pl hpl), fun hno => (hsv _ _).trans (hserve.2 hno)⟩
  · exact ⟨fun pl _ => (hsv _ _).trans (keeps_quiet h), fun _ => (hsv _ _).trans (keeps_quiet h)⟩

/-- Without a request the command only moves what the mesh and the memory controllers hold. -/
theorem requestReceive_of_empty {fl : List Flaw} {s : State} (h : (nextRequest s).fabric.inReq = []) :
    requestReceive fl s = nextRequest s := by
  unfold requestReceive
  dsimp only
  rw [h]

theorem keeps_stitchRequestReceive {fl : List Flaw} {s u : State} (hfed : Fed s) (hu : u = nextRequest s) :
    ∃ t, exec (.stitchRequestReceive fl) s = .next t ∧ (u.fabric.inReq = [] → KeepsOutside [] [] s t) ∧
      ∀ p rest v q, u.fabric.inReq = p :: rest → v = inject fl { u with fabric := { u.fabric with inReq := rest } } →
        q = readRequest p.bytes →
        (∀ pl, boundPlace p q v = some pl → KeepsOutside (storedSram q.n pl) (storedDram pl) s t) ∧
        (boundPlace p q v = none → KeepsOutside [] [] s t) := by
  refine ⟨_, fed_next hfed.1.1 hfed.1.2 hfed.2, fun hnone => ?_, fun p rest v q hp hv hq => ?_⟩
  · split
    · rw [requestReceive_of_empty (hu ▸ hnone)]
      exact keeps_quiet (by simp)
    · exact .refl _ _ _
  · split
    · exact keeps_requestReceive hu hp hv hq
    · exact ⟨fun pl _ => .refl _ _ _, fun _ => .refl _ _ _⟩

/-! A fence. -/

theorem keeps_fenceIssue {t : Nat} {st : BitVec 256} {s : State} (hline : sb st 2 3 = false ∨ sf st 3 0 17 < 98304) :
    KeepsOutside (if sf st 2 0 5 / 8 % 2 = 1 then tileRanges t [(64 * sf st 3 0 17, 64)] else []) [] s
      (fenceIssue t st s) := by
  have hgood : ¬ ((sb st 2 3 && !inSram ((64 * sf st 3 0 17 : Nat) : Int) 64) = true) := by
    rcases hline with h | h
    · simp [h]
    · have hin : inSram ((64 * sf st 3 0 17 : Nat) : Int) 64 = true := by
        have hsize : sramSize = 6291456 := rfl
        simp only [inSram, Bool.and_eq_true, decide_eq_true_eq]
        omega
      rw [hin]
      simp
  unfold fenceIssue
  dsimp only
  rw [if_neg hgood]
  cases fenceMet t (sf st 2 0 5) s with
  | true => exact keeps_fenceAct _ _ _ _
  | false => exact keeps_quiet (modTile_quiet t (fun x => { x with hold := .fence (sf st 2 0 5) (sf st 3 0 17) }) s)

theorem keeps_fenceRelease {t bits line : Nat} {s : State} (hhold : (tileOf s t).hold = .fence bits line) :
    KeepsOutside (if bits / 8 % 2 = 1 then tileRanges t [(64 * line, 64)] else []) [] s (fenceRelease t s) := by
  unfold fenceRelease
  rw [hhold]
  dsimp only
  cases fenceMet t bits s with
  | true => exact keeps_fenceAct _ _ _ _
  | false => exact .refl _ _ _

/-! MATRIX and VECTOR. -/

theorem keeps_vecIssue {t : Nat} {flaws : List Flaw} {st : BitVec 256} {s u : State} {v : VecStep}
    (hfree : (tileOf s t).vectorOp = none) (hu : u = inject flaws s) (hv : v = vecStep (tileOf s t) st)
    (hrange : (v.insSpans (vecParam t v u) ++ v.outSpans (vecParam t v u)).all (fun p => inSram p.1 p.2) = true)
    (hscale : v.mode = 2 → scaleOk (nth 0 (vecParam t v u) 0) = true) (hsel : v.out.sel ≤ 1)
    (hfmt : v.out.fmt = 11 ↔ v.op = 0x29) :
    KeepsOutside (tileRanges t ((v.outSpans (vecParam t v u)).map spanRange)) [] s (vecIssue t flaws st s) := by
  subst hu hv
  unfold vecParam at hrange hscale
  unfold vecIssue
  dsimp only
  rw [if_neg (by simp [hfree]), if_neg (by rw [hrange]; simp), if_neg (by simpa using hscale)]
  refine KeepsOutside.trans ?_ (keeps_quiet ((modTile_quiet _ _ _).trans (keepArith_quiet _ _ _)))
  refine KeepsOutside.trans (keeps_quiet ((stepTouch_quiet _ _ _).trans (inject_quiet flaws s)))
    (keeps_vecStore t _ _ _ _ hsel (fun h0 => ?_) (fun h0 => ?_))
  · exact (vecResult_length _ _ _ _ _ _ hfmt h0 (vecLoad_length ..) (vecLoad_length ..) (vecLoad_length ..)).1
  · exact (vecResult_length _ _ _ _ _ _ hfmt h0 (vecLoad_length ..) (vecLoad_length ..) (vecLoad_length ..)).2

/-- Settles O52, writer by writer: what each leaves outside the ranges that it names. -/
theorem memoryFrame : Obligations.MemoryFrame := by
  unfold Obligations.MemoryFrame
  refine ⟨?storeless, ?bar2, ?request, ?fence, ?release, ?matrix, ?vector, ?clean⟩
  case storeless =>
    intro c s t hm h
    obtain ⟨hsram, hdram⟩ := exec_memories_of_storeless hm h
    exact ⟨fun _ => by rw [hsram], fun _ => by rw [hdram]⟩
  case bar2 =>
    intro a bs fl s u hin hu
    subst hu
    exact keeps_bar2Write hin
  case request =>
    intro fl s u hfed hu
    exact keeps_stitchRequestReceive hfed hu
  case fence =>
    intro t s st hfed hdue hline
    refine ⟨_, fed_next hfed.1.1 hfed.1.2 hfed.2, ?_⟩
    rw [issue_of_due hdue]
    exact keeps_fenceIssue hline
  case release =>
    intro t s bits line hfed hhold
    exact ⟨_, fed_next hfed.1.1 hfed.1.2 hfed.2, keeps_fenceRelease hhold⟩
  case matrix =>
    intro t flaws s st u m p hfed hdue hfree hu hm hp hrange hscale
    subst hu hm hp
    obtain ⟨f, -, hissue⟩ := matIssue_runs hfree hrange hscale
    refine ⟨_, exec_matrix_of_due hfed hdue, ?_⟩
    rw [hissue]
    exact ((keeps_quiet (inject_quiet flaws s)).trans (keeps_matRun _ _ _ _)).trans (keeps_quiet (by simp))
  case vector =>
    intro t flaws s st u v param hfed hdue hfree hu hv hparam hrange hscale hsel hfmt
    subst hparam
    exact ⟨_, exec_vector_of_due hfed hdue, keeps_vecIssue hfree hu hv hrange hscale hsel hfmt⟩
  case clean =>
    intro mark w c a bs s x hclean hx
    exact dramWrite_clean mark w c a bs s x hclean hx

end Sys2Proof.Machine
end

section
/-! PROOFS. The Reed-Solomon code over a line: the failure of one device is corrected in every beat (R214, R216,
R218). -/

namespace Sys2Proof.Machine

/-! Where one beat points. -/

/-- An error in one symbol of a beat points to that symbol and to its correction (R216). -/
theorem points_symbol : ∀ i < 10, ∀ v < 16,
    points (BitVec.ofNat 40 (v * 16 ^ i)) = if v = 0 then .clean else .at i v := by
  decide +kernel

theorem points_symbol_of_pos {i v : Nat} (hi : i < 10) (h0 : 0 < v) (hv : v < 16) :
    points (BitVec.ofNat 40 (v * 16 ^ i)) = .at i v := by
  rw [points_symbol i hi v hv, if_neg (Nat.ne_of_gt h0)]

/-- The correction of an error in one symbol leaves nothing of it (R216). -/
theorem leftOf_symbol {i v : Nat} (hi : i < 10) (hv : v < 16) : leftOf (BitVec.ofNat 40 (v * 16 ^ i)) = 0 := by
  unfold leftOf
  rw [points_symbol i hi v hv]
  by_cases h0 : v = 0
  · simp [h0]
  · simp [h0]

/-! The class of a line from where its beats point. -/

/-- The position that a beat points to. -/
def positionOf : Points → Option Nat
  | .at i _ => some i
  | _ => none

/-- The positions that the beats of a line point to. -/
def positions (bs : List (BitVec 40)) : List Nat := (bs.map points).filterMap positionOf

theorem mem_positions {bs : List (BitVec 40)} {b : BitVec 40} {i v : Nat} (hb : b ∈ bs) (h : points b = .at i v) :
    i ∈ positions bs :=
  List.mem_filterMap.mpr ⟨.at i v, List.mem_map.mpr ⟨b, hb, h⟩, rfl⟩

/-- A line of 16 beats is classed by the positions that its beats point to. -/
theorem classify_of_points {mark : Option Nat} {bs : List (BitVec 40)} (hlen : bs.length = 16)
    (hnone : Points.none ∉ bs.map points) :
    classify mark bs = match positions bs with
      | [] => .clean bs
      | p :: _ =>
        if (positions bs).all (· = p) && (mark = none || mark = some p) then .ce p (bs.map leftOf) else .ue := by
  have hbs : bs ≠ [] := by
    rintro rfl
    cases hlen
  have hgood : ¬ ((decide (bs.length ≠ 16) || (bs.map points).contains Points.none) = true) := by
    simpa [hlen] using hnone
  unfold classify
  dsimp only
  rw [if_neg hbs, if_neg hgood]
  rfl

/-- A line of 16 beats with one that points to no position is uncorrectable (R216). -/
theorem classify_of_none {mark : Option Nat} {bs : List (BitVec 40)} (hlen : bs.length = 16)
    (hnone : Points.none ∈ bs.map points) : classify mark bs = .ue := by
  have hbs : bs ≠ [] := by
    rintro rfl
    cases hlen
  have hbad : (decide (bs.length ≠ 16) || (bs.map points).contains Points.none) = true := by
    rw [List.contains_iff_mem.mpr hnone, Bool.or_true]
  unfold classify
  dsimp only
  rw [if_neg hbs, if_pos hbad]

/-- A line whose beats point to one position, if any, and one of which does, is corrected there, unless another
position is marked (R216, R218). -/
theorem classify_eq_ce {mark : Option Nat} {bs : List (BitVec 40)} {i : Nat} (hlen : bs.length = 16)
    (hone : ∀ b ∈ bs, points b = .clean ∨ ∃ v, points b = .at i v) (hsome : i ∈ positions bs)
    (hmark : mark = none ∨ mark = some i) : classify mark bs = .ce i (bs.map leftOf) := by
  have hnone : Points.none ∉ bs.map points := by
    intro h
    obtain ⟨b, hb, hp⟩ := List.mem_map.mp h
    rcases hone b hb with h | ⟨v, h⟩ <;> rw [h] at hp <;> cases hp
  have hall : ∀ p ∈ positions bs, p = i := by
    intro p hp
    obtain ⟨x, hx, hpos⟩ := List.mem_filterMap.mp hp
    obtain ⟨b, hb, rfl⟩ := List.mem_map.mp hx
    rcases hone b hb with h | ⟨v, h⟩ <;> rw [h] at hpos <;> cases hpos
    rfl
  rw [classify_of_points hlen hnone]
  cases hps : positions bs with
  | nil => rw [hps] at hsome; cases hsome
  | cons p ps =>
    obtain rfl : p = i := hall p (by simp [hps])
    have hsame : ((p :: ps).all (· = p) && (mark = none || mark = some p) : Bool) = true := by
      rw [Bool.and_eq_true, List.all_eq_true]
      exact ⟨fun q hq => decide_eq_true (hall q (hps ▸ hq)), by simpa using hmark⟩
    exact if_pos hsame

/-- A line with a beat that points to a position is uncorrectable when another beat points elsewhere, or another
position is marked (R216, R218). -/
theorem classify_eq_ue {mark : Option Nat} {bs : List (BitVec 40)} {i : Nat} (hlen : bs.length = 16)
    (hsome : i ∈ positions bs)
    (hother : (∃ j ∈ positions bs, j ≠ i) ∨ ∃ k, mark = some k ∧ k ≠ i) : classify mark bs = .ue := by
  by_cases hnone : Points.none ∈ bs.map points
  · exact classify_of_none hlen hnone
  rw [classify_of_points hlen hnone]
  cases hps : positions bs with
  | nil => rw [hps] at hsome; cases hsome
  | cons p ps =>
    rw [hps] at hsome hother
    refine if_neg fun h => ?_
    rw [Bool.and_eq_true, List.all_eq_true] at h
    obtain ⟨hall, hmark⟩ := h
    have hp : ∀ q ∈ p :: ps, q = p := fun q hq => of_decide_eq_true (hall q hq)
    rcases hother with ⟨j, hj, hne⟩ | ⟨k, rfl, hne⟩
    · exact hne ((hp j hj).trans (hp i hsome).symm)
    · have hk : k = p := by simpa using hmark
      exact hne (hk.trans (hp i hsome).symm)

/-! A byte of a line as the controller returns it. -/

/-- What is left of no error changes no byte. -/
theorem leftByte_of_zero {l : List (BitVec 40)} (h : l.all (fun b => b = 0) = true) (i : Nat) : leftByte l i = 0 := by
  have hnth : nth 0 l (i / 4) = 0 := by
    unfold nth
    cases hget : l[i / 4]? with
    | none => rfl
    | some b => exact of_decide_eq_true (List.all_eq_true.mp h b (List.mem_of_getElem? hget))
  unfold leftByte
  rw [hnth]
  simp [field]

/-- A line that comes from its own address, of whose error nothing is left, reads as it was stored (R215, R216). -/
theorem dramByte_of_corrected {c line p i : Nat} {s : State} {l : List (BitVec 40)} (hfrom : lineFrom c line s = line)
    (hclass : lineClass c line s = .clean l ∨ lineClass c line s = .ce p l) (hzero : l.all (fun b => b = 0) = true)
    (hi : i < 64) : dramByte c (64 * line + i) s = cellByte c (64 * line + i) s := by
  have hdiv : (64 * line + i) / 64 = line := by omega
  have hmod : (64 * line + i) % 64 = i := by omega
  have hgap : lineGap c line s = [] := if_pos hfrom
  have hback : ∀ b : Byte, b ^^^ leftByte l i ^^^ leftByte [] i = b := fun b => by
    rw [leftByte_of_zero hzero, leftByte_of_zero rfl]
    simp
  unfold dramByte
  rw [hdiv, hmod, hfrom, hgap]
  rcases hclass with h | h <;> rw [h] <;> exact hback _

/-- Settles O57, by the positions to which the beats of a line point. -/
theorem deviceFailure : Obligations.DeviceFailure := by
  unfold Obligations.DeviceFailure
  refine ⟨?one, ?two, ?marked, fun mark => ⟨rfl, ?clean⟩, ?reads⟩
  case one =>
    intro i l mark hi hlen hlt hsome hmark
    have hzero : (l.map (fun v => BitVec.ofNat 40 (v * 16 ^ i))).map leftOf = List.replicate 16 0 := by
      refine List.eq_replicate_iff.mpr ⟨by rw [List.length_map, List.length_map, hlen], fun b hb => ?_⟩
      obtain ⟨_, hc, rfl⟩ := List.mem_map.mp hb
      obtain ⟨v, hv, rfl⟩ := List.mem_map.mp hc
      exact leftOf_symbol hi (hlt v hv)
    rw [← hzero]
    obtain ⟨v, hv, hne⟩ := hsome
    refine classify_eq_ce (by rw [List.length_map, hlen]) (fun b hb => ?_) ?_ hmark
    · obtain ⟨w, hw, rfl⟩ := List.mem_map.mp hb
      rw [points_symbol i hi w (hlt w hw)]
      by_cases h0 : w = 0
      · exact .inl (if_pos h0)
      · exact .inr ⟨w, if_neg h0⟩
    · exact mem_positions (List.mem_map_of_mem hv) (points_symbol_of_pos hi (Nat.pos_of_ne_zero hne) (hlt v hv))
  case two =>
    intro i j v w l m hi hj hij hv0 hv hw0 hw hlen
    refine classify_eq_ue (i := i) ?_ ?_ (.inl ⟨j, ?_, hij.symm⟩)
    · simp only [List.length_append, List.length_cons]
      omega
    · exact mem_positions (by simp) (points_symbol_of_pos hi hv0 hv)
    · exact mem_positions (by simp) (points_symbol_of_pos hj hw0 hw)
  case marked =>
    intro i k v l m hi hki hv0 hv hlen
    refine classify_eq_ue (i := i) ?_ ?_ (.inr ⟨k, rfl, hki⟩)
    · simp only [List.length_append, List.length_cons]
      omega
    · exact mem_positions (by simp) (points_symbol_of_pos hi hv0 hv)
  case clean =>
    have hpoints : points 0 = .clean := points_symbol 0 (by decide) 0 (by decide)
    have hmap : (List.replicate 16 (0 : BitVec 40)).map points = List.replicate 16 .clean := by
      rw [List.map_replicate, hpoints]
    rw [classify_of_points (List.length_replicate ..) (by rw [hmap]; decide)]
    unfold positions
    rw [hmap]
    rfl
  case reads =>
    intro c line s p l i hfrom hclass hzero hi
    have hbyte := dramByte_of_corrected hfrom hclass hzero hi
    refine ⟨hbyte, fun hlow => hbyte.trans ?_⟩
    unfold cellByte
    rw [if_neg]
    simp only [Bool.and_eq_true, decide_eq_true_eq]
    omega

end Sys2Proof.Machine
end

section
/-! PROOFS. A request that reaches its command's own checks: what it is answered with when they pass (R30, R40). -/

namespace Sys2Proof.Machine

variable {r : Req} {s t : State} {n : Nat}

/-- The first of several checks passes when its condition holds, and then the others count (R30). -/
@[simp] theorem firstOf_need {b : Bool} {x : Status} {l : List (Option (Status × List Word))} :
    firstOf (need b x :: l) = none ↔ b = true ∧ firstOf l = none := by
  cases b <;> simp [need]

/-- A request that reaches its command's own checks and passes them completes with what the command answers. -/
theorem Asked.completes (c : Cmd) (h : Asked c.op n r s) (hn : 2 ≤ n ∧ n ≤ 512 ∧ c.len n = true)
    (ho : c.object r s = none) (ha : c.args r s = none) {st : Status} {ws : List Word}
    {bulk : List (Nat × List Byte)} (hr : c.run r s = .reply st ws bulk t) :
    (.next (runCmd c r s) : Host.Outcome State Fault Refusal) =
      .next (complete r (c.op = 0x0110) st ws bulk t) := by
  obtain ⟨hserve, hlen, hhead, hadm⟩ := h
  rw [runCmd_replies hserve hlen hn.1 hn.2.1 hn.2.2 hhead hadm ho ha hr]

/-- A request that reaches its command's own checks and passes them waits for its answer when the command says so. -/
theorem Asked.starts (c : Cmd) (h : Asked c.op n r s) (hn : 2 ≤ n ∧ n ≤ 512 ∧ c.len n = true)
    (ho : c.object r s = none) (ha : c.args r s = none) (hr : c.run r s = .later t) :
    (.next (runCmd c r s) : Host.Outcome State Fault Refusal) =
      .next { t with mbx := { t.mbx with
        started := t.mbx.started ++ [⟨BitVec.ofNat 16 c.op, r, t.mbx.orders, 0⟩], orders := t.mbx.orders + 1 } } := by
  obtain ⟨hserve, hlen, hhead, hadm⟩ := h
  rw [runCmd_starts hserve hlen hn.1 hn.2.1 hn.2.2 hhead hadm ho ha hr]

end Sys2Proof.Machine
end

section
/-! PROOFS. The system commands (R51, R52, R58, R61, R451, R454). -/

namespace Sys2Proof.Machine

/-- Nothing is missing for SYS_COMMIT_CONFIG where the plan, a coefficient set and limits of each plane and an addend are
there. -/
theorem missingConfig_none {s : State} (hplan : s.fabric.planLoaded = true)
    (hplanes : ∀ p, p < 2 →
      (planeOf s p).active.isSome ∧ ((planeOf s p).limits.isSome ∨ (planeOf s p).limitsDue.isSome))
    (hadd : s.tmu.addendWritten = true) : true ∉ missingConfig s := by
  obtain ⟨hset0, hlim0⟩ := hplanes 0 (by decide)
  obtain ⟨hset1, hlim1⟩ := hplanes 1 (by decide)
  rw [← Bool.or_eq_true] at hlim0 hlim1
  simp only [missingConfig, hplan, hadd]
  grind

/-- Settles O1, command by command. -/
theorem systemCommands : Obligations.SystemCommands := by
  unfold Obligations.SystemCommands
  refine ⟨?info, ?commit, ?deconfig, ?maintSet, ?maintClear, ?reset, ?power, ?unmap, ?map⟩
  case info =>
    intro r s h hst
    exact Asked.completes sysInfoCmd h (by decide) rfl rfl (by simp [sysInfoCmd, Ans.of, hst])
  case commit =>
    intro r s h hst hplan hplanes hadd
    exact Asked.completes sysCommitConfigCmd h (by decide)
      (by simp [sysCommitConfigCmd, hst, missingConfig_none hplan hplanes hadd]) rfl rfl
  case deconfig =>
    intro r s h hst hjobs
    exact Asked.completes sysDeconfigCmd h (by decide) (by simp [sysDeconfigCmd, hst, hjobs]) rfl rfl
  case maintSet =>
    intro r s h hzero hset hidle
    exact Asked.completes sysMaintenanceCmd h (by decide) (by simp [sysMaintenanceCmd, hidle])
      (by simp [sysMaintenanceCmd, hzero]) (by simp [sysMaintenanceCmd, hset, Ans.ok])
  case maintClear =>
    intro r s h hzero hclear
    exact Asked.completes sysMaintenanceCmd h (by decide) (by simp [sysMaintenanceCmd, hclear])
      (by simp [sysMaintenanceCmd, hzero]) (by simp [sysMaintenanceCmd, hclear, Ans.ok])
  case reset =>
    intro r s h hzero hmagic hsafe hidle
    exact Asked.completes sysResetCmd h (by decide) (by simpa [sysResetCmd, or_assoc] using hsafe)
      (by simp [sysResetCmd, hzero, hmagic, hidle]) rfl
  case power =>
    intro r s h
    exact Asked.completes sysPowerStatusCmd h (by decide) rfl rfl rfl
  case unmap =>
    intro r s h hpage hzero hunmap hwords
    exact Asked.completes mapWindowCmd h (by decide) (by simp [mapWindowCmd, hunmap])
      (by simp [mapWindowCmd, hpage, hzero, hunmap, hwords]) (by simp [mapWindowCmd, hunmap, Ans.ok])
  case map =>
    intro r s h hpage hzero hmap hop hok
    exact Asked.completes mapWindowCmd h (by decide) (by simp [mapWindowCmd, hop])
      (by simp [mapWindowCmd, hpage, hzero, hmap, hok]) (by simp [mapWindowCmd, hmap, Ans.ok])

end Sys2Proof.Machine
end

section
/-! PROOFS. The job commands (R148 to R154). -/

namespace Sys2Proof.Machine

/-- An arming with enough lead and an entry to take succeeds (R371). -/
theorem armWith_ok {action lead arg i : Nat} {at0 tag : Word} {notify : Bool} {s : State}
    (hlead : leadOk at0 lead s = true) (hi : takeIndex s = some i) :
    armWith action lead at0 notify arg tag s = .ok (i, armAt i action at0 notify arg tag s) := by
  simp [armWith, hlead, hi]

/-- Tags of other jobs that are not Free differ (R149). -/
theorem tagFree_iff {r : Req} {s : State} :
    jobNos.all (fun j => j = reqJob r || (jobOf s j).status = .free || (jobOf s j).tag ≠ rw r 5) = true ↔
      ∀ j ∈ jobNos, j = reqJob r ∨ (jobOf s j).status = .free ∨ (jobOf s j).tag ≠ rw r 5 := by
  simp [or_assoc]

/-- A job that runs no role and is not Free or Defined is one that JOB_STOP takes. -/
theorem jobIs_eq_false {l : List JobStatus} {r : Req} {s : State} {x : JobStatus}
    (h : (jobOf s (reqJob r)).status = x) (hx : x ∉ l) : jobIs l r s = false := by
  simpa [jobIs, h] using hx

/-- What lets JOB_START pass its checks: the module, the job, its places and its Patterns are ready (R150). -/
theorem jobStartCmd_object {r : Req} {s : State} (hop : operating s = true) (hmaint : s.glb.maint = false)
    (hjob : jobIs [.defined, .done, .stopped, .faulted] r s = true)
    (hplaced : jobPlaced (jobOf s (reqJob r)) s = true)
    (hpat : ∀ t ∈ roleTiles (reqJob r) s, (patternOf (jobOf s (reqJob r)) (roleOf t s)).isSome)
    (hrun : mayRun s = true) : jobStartCmd.object r s = none := by
  have hall : (roleTiles (reqJob r) s).all (fun t => (patternOf (jobOf s (reqJob r)) (roleOf t s)).isSome) = true :=
    List.all_eq_true.mpr hpat
  simp only [jobStartCmd, hop, hrun, hmaint, hjob, hplaced, hall]
  rfl

/-- A JOB_STOP of a running job that no other stops: its roles stop, and it waits for its operations (R151). -/
theorem jobStopCmd_run {r : Req} {s t : State} (hst : (jobOf s (reqJob r)).status = .running)
    (hstop : (jobOf s (reqJob r)).stopping = none)
    (ht : t = modJob (reqJob r) (fun x => { x with stopping := some (runningTiles (reqJob r) s).length })
      (stopRoles (reqJob r) s)) :
    jobStopCmd.run r s = if jobQuiet (reqJob r) t then .ok (settleStops t) else .later t := by
  simp only [jobStopCmd, hst, hstop, ht]

/-- Settles O2, command by command. -/
theorem jobCommands : Obligations.JobCommands := by
  unfold Obligations.JobCommands
  refine ⟨?define, ?load, ?start, ?startAt, ?stopArmed, ?stopEnded, ?stopQuiet, ?stopWaits, ?status, ?statusOf, ?release,
    ?tallies⟩
  case define =>
    intro r s h hjob h2 h3 htags
    exact Asked.completes jobDefineCmd h (by decide) (by simp [jobDefineCmd, hjob])
      (by simp only [jobDefineCmd, h2, h3, tagFree_iff.mpr htags]; rfl) rfl
  case load =>
    intro r s h hjob hok hdma hpre hsteps hroom
    refine Asked.completes jobLoadPatternCmd h (by decide) (by simp [jobLoadPatternCmd, hjob])
      (by simp [jobLoadPatternCmd, hok]) ?_
    have hroom' := Nat.not_lt.mpr hroom
    have hpre' : (hasPreload r && !dmaGood r 1) = false := by simpa using hpre
    simp only [jobLoadPatternCmd, hdma, hpre', hsteps, hroom']
    rfl
  case start =>
    intro r s h hop hmaint hjob hplaced hpat hzero himm ht hrun
    exact Asked.completes jobStartCmd h (by decide) (jobStartCmd_object hop hmaint hjob hplaced hpat hrun)
      (by simp [jobStartCmd, hzero, ht]) (by simp [jobStartCmd, himm])
  case startAt =>
    intro r s i h hop hmaint hjob hplaced hpat hzero hsched hlead hi hrun
    exact Asked.completes jobStartCmd h (by decide) (jobStartCmd_object hop hmaint hjob hplaced hpat hrun)
      (by simp [jobStartCmd, hzero, hsched]) (by simp [jobStartCmd, hsched, armWith_ok hlead hi])
  case stopArmed =>
    intro r s i h hzero hst hfire hentry
    exact Asked.completes jobStopCmd h (by decide)
      (by simp [jobStopCmd, jobIs_eq_false hst (l := [.free, .defined]) (by decide), hfire])
      (by simp [jobStopCmd, hzero]) (by simp [jobStopCmd, hst, hentry])
  case stopEnded =>
    intro r s h hzero hst
    refine Asked.completes jobStopCmd h (by decide) ?_ (by simp [jobStopCmd, hzero]) ?_
    · rcases hst with hst | hst | hst <;> simp [jobStopCmd, jobIs, hst]
    · rcases hst with hst | hst | hst <;> simp [jobStopCmd, hst]
  case stopQuiet =>
    intro r s t h hzero hst hstop ht hquiet
    refine Asked.completes jobStopCmd h (by decide) (by simp [jobStopCmd, jobIs, hst]) (by simp [jobStopCmd, hzero]) ?_
    rw [jobStopCmd_run hst hstop ht, if_pos hquiet]
  case stopWaits =>
    intro r s t h hzero hst hstop ht hbusy
    refine Asked.starts jobStopCmd h (by decide) (by simp [jobStopCmd, jobIs, hst]) (by simp [jobStopCmd, hzero]) ?_
    rw [jobStopCmd_run hst hstop ht, hbusy]
    rfl
  case status =>
    intro r s h hjob hzero hnone
    exact Asked.completes jobStatusCmd h (by decide) (by simp [jobStatusCmd, hjob])
      (by simp [jobStatusCmd, hzero, hnone]) (by simp [jobStatusCmd, hnone])
  case statusOf =>
    intro r s h hjob hzero hone htile
    exact Asked.completes jobStatusCmd h (by decide) (by simp [jobStatusCmd, hjob])
      (by simp [jobStatusCmd, hzero, htile]) (by simp [jobStatusCmd, hone])
  case release =>
    intro r s h hjob hzero
    exact Asked.completes jobReleaseCmd h (by decide) (by simp [jobReleaseCmd, hjob])
      (by simp [jobReleaseCmd, hzero]) rfl
  case tallies =>
    intro r s t h hjob h2 h3 hrole htile
    exact Asked.completes jobTallyReadCmd h (by decide) (by simp [jobTallyReadCmd, hjob])
      (by simp [jobTallyReadCmd, h2, h3, hrole, htile]) (by simp [jobTallyReadCmd, htile])

end Sys2Proof.Machine
end

section
/-! PROOFS. The placement commands (R237 to R244, R250). -/

namespace Sys2Proof.Machine

variable {r : Req} {s : State}

/-! Region and role declarations. -/

/-- A region that is not bound may be declared again (R239). -/
theorem regionDeclareCmd_object (hjob : jobIs declStatus r s = true)
    (hheld : ∀ x, regionOf (reqJob r) (rf r 3 0 16) s = some x → regionHeld x = false) :
    regionDeclareCmd.object r s = none := by
  have hfree : (match regionOf (reqJob r) (rf r 3 0 16) s with
      | some x => !regionHeld x
      | none => true) = true := by
    split
    · next x hx => rw [hheld x hx]; rfl
    · rfl
  simp only [regionDeclareCmd, hjob]
  exact (need_eq_none _ _).mpr hfree

/-- A declaration of a region that stands, or that there is room for, takes effect (R239). -/
theorem regionDeclareCmd_run
    (hroom : (regionOf (reqJob r) (rf r 3 0 16) s).isSome ∨ regionCount s < 65536) :
    regionDeclareCmd.run r s = .ok (modJob (reqJob r) (fun x => { x with placed := false })
      (setRegion (reqJob r) (rf r 3 0 16)
        (some { size := declSize r, kind := rf r 6 0 2, view := rf r 6 2 3, movable := rb r 6 5, home := rf r 7 0 16 })
        (if (rmLookup (reqJob r) (rf r 3 0 16) s).isSome then rmMod (reqJob r) (rf r 3 0 16) (fun _ => {}) s else s))) := by
  have hfits : ¬ (((regionOf (reqJob r) (rf r 3 0 16) s).isNone && 65536 ≤ regionCount s : Bool) = true) := by
    rcases hroom with h | h
    · simp [Option.isSome_iff_ne_none.mp h]
    · simp [Nat.not_le.mpr h]
  exact if_neg hfits

/-- Roles of which none is bound may be declared (R239). -/
theorem roleDeclareCmd_object (hjob : jobIs declStatus r s = true)
    (hheld : ∀ k ∈ declRoles r, roleHeld (jobOf s (reqJob r)) k = false) : roleDeclareCmd.object r s = none := by
  simpa [roleDeclareCmd, hjob] using hheld

/-! REGION_PIN. -/

/-- A pin of a region that is not bound passes its checks when the place keeps the rules and is free (R240). -/
theorem regionPinCmd_checks_pin {x : Region} (hjob : jobIs [.free] r s = false) (hfields : pinFields r = true)
    (hx : regionOf (reqJob r) (rf r 3 0 16) s = some x) (hmode : rf r 4 0 2 ≠ 2) (hbase : x.base = none)
    (hok : pinOk (reqJob r) (rf r 3 0 16) x (pinOf r) s = true) (hfree : pinFree (reqJob r) x (pinOf r) s = true) :
    regionPinCmd.object r s = none ∧ regionPinCmd.args r s = none := by
  simp [regionPinCmd, hjob, hfields, hx, hmode, hbase, hok, hfree]

/-- An import passes its checks when it keeps the rules (R240). -/
theorem regionPinCmd_checks_import {x : Region} (hjob : jobIs [.free] r s = false) (hfields : pinFields r = true)
    (hx : regionOf (reqJob r) (rf r 3 0 16) s = some x) (hmode : rf r 4 0 2 = 2)
    (hok : importOk x (pinAddr r 6) = true) : regionPinCmd.object r s = none ∧ regionPinCmd.args r s = none := by
  simp [regionPinCmd, hjob, hfields, hx, hmode, hok]

/-! PLACE_JOB. -/

/-- The arguments of a PLACE_JOB that its checks pass: of a job, or of the transit ledger alone (R241, R242). -/
theorem placeJobCmd_args (hzero : zeroFrom r 2 19 = true)
    (hkind : (if rb r 2 4 then reqJob r = 0 else !rb r 2 5 && rw r 3 = 0 : Bool) = true) (hone : 1 ≤ rf r 2 6 13)
    (hmax : rf r 2 6 13 ≤ 4096) (hbulk : bulkOk r 4 = true) (hlen : idBytes (rf r 2 6 13) ≤ bulkLen r 4)
    (hout : zeroWords r 8 11 = true) : placeJobCmd.args r s = none := by
  simpa [placeJobCmd, hzero, hone, hmax, hbulk, hlen, hout] using hkind

/-- A PLACE_JOB whose list can be read and keeps its rules goes on to its steps (R241, R242). -/
theorem placeJobCmd_run {only : Bool} (honly : rb r 2 4 = only) (hdma : dmaGood r 0 = true)
    (hout : zeroWords r 8 11 = true) (hlist : listOk r (reqJob r) only s = true) :
    placeJobCmd.run r s = if only then placeLedger r s else placeNormal r s := by
  simp only [placeJobCmd, honly, hdma, hout, hlist]
  rfl

/-- Paths that add at most to ledgers with room enter them (R242). -/
theorem enterLedger_ok {tag : Word} {mods new : List Nat} {p : PathSet} (hp : p = pathSet mods s) (hbad : p.bad = none)
    (hnew : new = p.ports.filter (fun q => !s.place.ledger.contains (q, tag)))
    (hroom : ∀ q ∈ new, (ledgerOf q s).length < 4) :
    enterLedger tag mods s = .ok { s with
        place.ledger := s.place.ledger.filter (fun e => e.2 ≠ tag || p.ports.contains e.1)
          ++ new.map (fun q => (q, tag)) } := by
  have hfind : new.find? (fun q => 4 ≤ (ledgerOf q s).length) = none :=
    List.find?_eq_none.mpr fun q hq => by simpa using hroom q hq
  unfold enterLedger
  dsimp only
  rw [← hp, hbad]
  dsimp only
  rw [← hnew, hfind]

/-- A PLACE_JOB of the ledger alone that succeeds answers zeros and raises its event (R242; log 43). -/
theorem placeLedger_ok {t : State}
    (h : (if rb r 2 5 then .ok { s with place.ledger := s.place.ledger.filter (fun e => e.2 ≠ rw r 3) }
      else enterLedger (rw r 3) (idsOf (rf r 2 6 13) (bulkBytes r 0 4)) s : Try) = .ok t) :
    placeLedger r s = .of .ok [0, 0, 0, 0, 0, 0] (raise 0x3020 1 [0, rw r 3, 0, 0, 0] t) := by
  unfold placeLedger
  dsimp only
  rw [h]

/-- A PLACE_JOB of a job whose roles are all declared and whose steps succeed answers its counts (R241). -/
theorem placeNormal_ok {t m : State} {regions : Nat} (hout : zeroWords r 8 11 = true)
    (hhome : ∀ k, k < (jobOf s (reqJob r)).nRoles → (homeOf (jobOf s (reqJob r)) k).isSome)
    (ht : placeSteps (reqJob r) (idsOf (rf r 2 6 13) (bulkBytes r 0 4)) s = .ok t)
    (hm : m = modJob (reqJob r) (fun x => { x with placed := true, modules := idsOf (rf r 2 6 13) (bulkBytes r 0 4) }) t)
    (hregions : regions = ((jobOf m (reqJob r)).regions.filter
      (fun e => match e.2 with | some g => g.base.isSome | none => false)).length) :
    let u := raise 0x3020 1 [word (reqJob r), (jobOf m (reqJob r)).tag, word (roleTiles (reqJob r) m).length, word regions,
      word (tilesOf (reqJob r) m).length] m
    placeNormal r s = .of .ok [0, word (roleTiles (reqJob r) m).length, word regions,
      word (rolesOpen (jobOf m (reqJob r)) u), word (regionsOpen (jobOf m (reqJob r))), 0] (imageJob (reqJob r) u) := by
  have hfind : (List.range (jobOf s (reqJob r)).nRoles).find? (fun k => (homeOf (jobOf s (reqJob r)) k).isNone) = none :=
    List.find?_eq_none.mpr fun k hk => by simpa [Option.isSome_iff_ne_none] using hhome k (List.mem_range.mp hk)
  have hlist : ∀ l, outList r l = ([], 0) := fun l => if_pos hout
  subst hm hregions
  unfold placeNormal
  dsimp only
  rw [hfind, ht]
  dsimp only
  rw [hlist]
  rfl

/-! REGION_MOVE. -/

/-- A region that is bound, whole and not moving may move where no other does (R250). -/
theorem regionMoveCmd_object {x : Region} {old : Nat} {e : RmEntry} (hop : operating s = true)
    (hmove : s.place.move = none) (hx : regionOf (reqJob r) (rf r 3 0 16) s = some x) (hbase : x.base = some old)
    (he : rmLookup (reqJob r) (rf r 3 0 16) s = some e) (hlost : e.lost = false) (hstill : e.move = 0) :
    regionMoveCmd.object r s = none := by
  simp [regionMoveCmd, hop, hmove, hx, hbase, he, hlost, hstill]

/-- The arguments of a REGION_MOVE that its checks pass (R250). -/
theorem regionMoveCmd_args {x : Region} (hx : regionOf (reqJob r) (rf r 3 0 16) s = some x) (hkind : x.kind ≠ 3)
    (h2 : zeroFrom r 2 4 = true) (h3 : zeroFrom r 3 16 = true) (h4 : zeroFrom r 4 8 = true) (hmode : rf r 4 0 2 ≠ 3)
    (hchan : rf r 4 0 2 = 2 ∨ rf r 4 2 6 = 0) (htile : inRoleTile x s = false)
    (hok : moveOk r (reqJob r) (rf r 3 0 16) x s = true) : regionMoveCmd.args r s = none := by
  simpa [regionMoveCmd, hx, hkind, h2, h3, h4, hmode, htile, hok] using hchan

/-- Settles O3, command by command. -/
theorem placementCommands : Obligations.PlacementCommands := by
  unfold Obligations.PlacementCommands
  refine ⟨?declare, ?declareRoles, ?pin, ?importPin, ?pinRole, ?place, ?leave, ?enter, ?queryRegion, ?queryRole, ?move⟩
  case declare =>
    intro r s h hjob hheld hok hroom
    exact Asked.completes regionDeclareCmd h (by decide) (regionDeclareCmd_object hjob hheld)
      (by simp [regionDeclareCmd, hok]) (regionDeclareCmd_run hroom)
  case declareRoles =>
    intro r s h hjob hheld h2 h3 h4 h5 hle hlt
    exact Asked.completes roleDeclareCmd h (by decide) (roleDeclareCmd_object hjob hheld)
      (by simp [roleDeclareCmd, h2, h3, h4, h5, hle, hlt]) rfl
  case pin =>
    intro r s x h hjob hfields hx hmode hbase hok hfree
    obtain ⟨hobject, hargs⟩ := regionPinCmd_checks_pin hjob hfields hx hmode hbase hok hfree
    exact Asked.completes regionPinCmd h (by decide) hobject hargs (by simp [regionPinCmd, hx, hmode])
  case importPin =>
    intro r s x h hjob hfields hx hmode hok
    obtain ⟨hobject, hargs⟩ := regionPinCmd_checks_import hjob hfields hx hmode hok
    exact Asked.completes regionPinCmd h (by decide) hobject hargs (by simp [regionPinCmd, hx, hmode])
  case pinRole =>
    intro r s h hjob hbound hok htile hroom
    refine Asked.completes rolePinCmd h (by decide) (by simp [rolePinCmd, hjob, hbound]) ?_ rfl
    simpa [rolePinCmd, hok, or_assoc] using ⟨htile, hroom⟩
  case place =>
    intro r s t m regions h hop hjob hall hrem hzero htag hone hmax hbulk hlen hout hdma hlist hhome ht hm hregions hrun
    refine Asked.completes placeJobCmd h (by decide) (by simp [placeJobCmd, hop, hrun, hjob])
      (placeJobCmd_args hzero (by simp [hall, hrem, htag]) hone hmax hbulk hlen hout) ?_
    rw [placeJobCmd_run hall hdma hout hlist]
    exact placeNormal_ok hout hhome ht hm hregions
  case leave =>
    intro r s h hop honly hjob hzero hone hmax hbulk hlen hout hdma hlist hleave hrun
    refine Asked.completes placeJobCmd h (by decide) (by simp [placeJobCmd, hop, hrun, honly])
      (placeJobCmd_args hzero (by simp [honly, hjob]) hone hmax hbulk hlen hout) ?_
    rw [placeJobCmd_run honly hdma hout (hjob ▸ hlist)]
    exact placeLedger_ok (if_pos hleave)
  case enter =>
    intro r s p new h hop honly hjob hzero hone hmax hbulk hlen hout hdma hlist hstay hrun hp hbad hnew hroom
    refine Asked.completes placeJobCmd h (by decide) (by simp [placeJobCmd, hop, hrun, honly])
      (placeJobCmd_args hzero (by simp [honly, hjob]) hone hmax hbulk hlen hout) ?_
    rw [placeJobCmd_run honly hdma hout (hjob ▸ hlist)]
    refine placeLedger_ok ?_
    rw [hstay]
    exact enterLedger_ok hp hbad hnew hroom
  case queryRegion =>
    intro r s x h hjob h2 h3 hx
    refine Asked.completes regionQueryCmd h (by decide) (by simp [regionQueryCmd, hjob])
      (by simp [regionQueryCmd, h2, h3, hx]) ?_
    simp only [regionQueryCmd, hx] <;> rfl
  case queryRole =>
    intro r s home e tile h hjob h2 h3 hrole hhome he htile
    refine Asked.completes roleQueryCmd h (by decide) (by simp [roleQueryCmd, hjob])
      (by simp [roleQueryCmd, h2, h3, hrole, hhome]) ?_
    subst he htile
    simp [roleQueryCmd, hhome]
  case move =>
    intro r s x old e new h hop hmove hx hkind hbase he hlost hstill h2 h3 h4 hmode hchan htile hok hnew
    exact Asked.completes regionMoveCmd h (by decide) (regionMoveCmd_object hop hmove hx hbase he hlost hstill)
      (regionMoveCmd_args hx hkind h2 h3 h4 hmode hchan htile hok) (by simp [regionMoveCmd, hx, hnew, hbase])

end Sys2Proof.Machine
end

section
/-! PROOFS. The fabric commands and the Welt commands (R258, R269, R285, R289 to R292, R300 to R317). -/

namespace Sys2Proof.Machine

variable {r : Req} {s : State}

/-! The fabric commands. -/

/-- A plan may change what the module is called and where it stands only while no job is defined there (R258). -/
theorem fabricPlanLoadCmd_object
    (h : operating s = false ∨ anyDefined s = false ∨
      (rf r 2 0 16 = s.glb.moduleId.toNat ∧ planSize r = s.fabric.size ∧ planCoords r = s.fabric.coords)) :
    fabricPlanLoadCmd.object r s = none := by
  rcases h with h | h | ⟨hid, hsize, hcoords⟩
  · simp [fabricPlanLoadCmd, h]
  · simp [fabricPlanLoadCmd, h]
  · simp [fabricPlanLoadCmd, hid, hsize, hcoords]

/-- A new eyelet takes its lanes (R285). -/
theorem eyeletDefineCmd_run_new {x : Eyelet} (hnew : rb r 2 4 = false) (hold : eyeletOf s (rf r 2 0 4) = none)
    (hx : x = { lanes := rw r 3, farModule := rf r 4 0 16, farEyelet := rf r 4 16 4 }) :
    eyeletDefineCmd.run r s = .ok (evalUnit 0 (6 + rf r 2 0 4) (regrace [6 + rf r 2 0 4] (moveLanes 0 x.lanes
      { s with fabric.eyelets := tset none s.fabric.eyelets (rf r 2 0 4) (some x) }))) := by
  subst hx
  simp [eyeletDefineCmd, hnew, hold]

/-- An eyelet taken away drops its queue and gives its lanes back (R285). -/
theorem eyeletDefineCmd_run_remove {x : Eyelet} (hgone : rb r 2 4 = true) (hold : eyeletOf s (rf r 2 0 4) = some x) :
    eyeletDefineCmd.run r s = .ok (evalUnit 0 (6 + rf r 2 0 4) (regrace [6 + rf r 2 0 4] (moveLanes x.lanes 0
      { flushQueue (6 + rf r 2 0 4) s with
        fabric.eyelets := tset none (flushQueue (6 + rf r 2 0 4) s).fabric.eyelets (rf r 2 0 4) none }))) := by
  simp [eyeletDefineCmd, hgone, hold]

/-- Settles O4, command by command. -/
theorem fabricCommands : Obligations.FabricCommands := by
  unfold Obligations.FabricCommands
  refine ⟨?plan, ?route, ?eyelet, ?remove, ?weights, ?status, ?stitch, ?unit⟩
  case plan =>
    intro r s t e h hstay hok ht he
    subst ht he
    exact Asked.completes fabricPlanLoadCmd h (by decide) (fabricPlanLoadCmd_object hstay)
      (by simp [fabricPlanLoadCmd, hok]) rfl
  case route =>
    intro r s new table h hplan hzero hone hmax hend hbulk hlen hdma hnew htable hrefused
    refine Asked.completes routeLoadCmd h (by decide) (by simp [routeLoadCmd, hplan])
      (by simp [routeLoadCmd, hzero, hone, hmax, hend, hbulk, hlen]) ?_
    subst htable hnew
    simp only [routeLoadCmd, hdma, hrefused]
    rfl
  case eyelet =>
    intro r s x h hplan hok hnew hold hx
    exact Asked.completes eyeletDefineCmd h (by decide) (by simp [eyeletDefineCmd, hplan])
      (by simp [eyeletDefineCmd, hok]) (eyeletDefineCmd_run_new hnew hold hx)
  case remove =>
    intro r s x h hplan hok hgone hold
    exact Asked.completes eyeletDefineCmd h (by decide) (by simp [eyeletDefineCmd, hplan])
      (by simp [eyeletDefineCmd, hok]) (eyeletDefineCmd_run_remove hgone hold)
  case weights =>
    intro r s h hzero hunit hweights hmin
    refine Asked.completes classWeightsCmd h (by decide) rfl ?_ rfl
    simpa [classWeightsCmd, hzero, hmin] using ⟨hunit, hweights⟩
  case status =>
    intro r s h
    refine Asked.completes fabricStatusCmd h (by decide) rfl rfl ?_
    rfl
  case stitch =>
    intro r s h hzero hunit
    exact Asked.completes fabricCountersCmd h (by decide) rfl (by simp [fabricCountersCmd, hzero, hunit])
      (by simp only [fabricCountersCmd, hunit]; rfl)
  case unit =>
    intro r s h hzero hunit
    have hne : rf r 2 0 5 ≠ 22 := Nat.ne_of_lt hunit
    exact Asked.completes fabricCountersCmd h (by decide) rfl
      (by simp [fabricCountersCmd, hzero, Nat.le_of_lt hunit]) (by simp only [fabricCountersCmd, hne]; rfl)

/-! The Welt commands. -/

/-- A plan of at least one lace that reads and compiles is answered with what it touches (R300 to R306). -/
theorem lacePlanCompileCmd_run {l : List PlanLace} {a b : Tbl (Option Lace)} {g : BitVec 16} {t : List (Nat × Nat)}
    {data : List Byte} (hone : 1 ≤ rf r 3 0 9) (hdma0 : dmaGood r 0 = true) (hdma1 : dmaGood r 1 = true)
    (hread : readPlan (bytesWords (bulkBytes r 0 4)) 0 [] = .ok l) (hbank : comparedBank s = (a, g))
    (hcompile : compile (rb r 2 0) l a = .ok b) (ht : t = touchedList a b)
    (hdata : data = wordsBytes (t.flatMap (touchWords a b))) :
    lacePlanCompileCmd.run r s = .reply .ok
      [word (laceCount b + 512 * t.length), g.setWidth 32, word 0x1FF,
        word (Config.predictedUs ((bankCells b).map (·.1)) % 65536 + 65536 * (heaterDw b s % 65536))]
      (if data.isEmpty then [] else [(bulkAddr r 8, data)])
      (if rb r 2 1 then
          raise 0x5001 1 [g.setWidth 32, word (laceCount b), word t.length, word (b2n (rb r 2 0))]
            (loadShadow b (rb r 2 0) s)
        else s) := by
  have hn : rf r 3 0 9 ≠ 0 := Nat.ne_of_gt hone
  subst ht hdata
  simp only [lacePlanCompileCmd, hn, Bool.not_true, Bool.and_false, Bool.false_eq_true, if_false, hdma0, hdma1, hread, hbank,
    hcompile]

/-- Settles O5, command by command. -/
theorem weltCommands : Obligations.WeltCommands := by
  unfold Obligations.WeltCommands
  refine ⟨?compile, ?bank, ?bankList, ?status, ?on, ?off, ?force⟩
  case compile =>
    intro r s l a g b t data h h2 h3 hone hmax hbulk hlen hout houtLen hdma0 hdma1 hread hbank hcompile ht hdata
    exact Asked.completes lacePlanCompileCmd h (by decide) rfl
      (by simp [lacePlanCompileCmd, h2, h3, hmax, hbulk, hlen, hout, houtLen, Nat.ne_of_gt hone])
      (lacePlanCompileCmd_run hone hdma0 hdma1 hread hbank hcompile ht hdata)
  case bank =>
    intro r s b h hzero hnone hb
    subst hb
    exact Asked.completes laceBankQueryCmd h (by decide) rfl (by simp [laceBankQueryCmd, hzero, hnone])
      (by simp only [laceBankQueryCmd, hnone]; rfl)
  case bankList =>
    intro r s b h hzero hwant hbulk hlen hdma hb
    subst hb
    exact Asked.completes laceBankQueryCmd h (by decide) rfl (by simp [laceBankQueryCmd, hzero, hbulk, hlen])
      (by simp only [laceBankQueryCmd, hwant, hdma]; rfl)
  case status =>
    intro r s h hzero hone hmax hend
    exact Asked.completes laceStatusCmd h (by decide) rfl (by simp [laceStatusCmd, hzero, hone, hmax, hend]) rfl
  case on =>
    intro r s h hzero hon hkilled hfail
    exact Asked.completes weltPowerCmd h (by decide) (by simp [weltPowerCmd, hkilled, hfail])
      (by simp [weltPowerCmd, hzero]) (by simp [weltPowerCmd, hon])
  case off =>
    intro r s h hzero hoff
    exact Asked.completes weltPowerCmd h (by decide) (by simp [weltPowerCmd, hoff])
      (by simp [weltPowerCmd, hzero]) (by simp [weltPowerCmd, hoff])
  case force =>
    intro r s f h hmaint hpow h2 h3 hcell hmode hf
    subst hf
    refine Asked.completes weltForceCmd h (by decide) (by simp [weltForceCmd, hmaint, hpow]) ?_ rfl
    simpa [weltForceCmd, h2, h3, hcell] using hmode

end Sys2Proof.Machine
end

section
/-! PROOFS. The Shank, calibration, schedule and time commands (R330 to R334, R343, R344, R355, R367 to R376). -/

namespace Sys2Proof.Machine

/-- Settles O6, command by command; where the Welt has power a swap or a rate waits for a sample. -/
theorem shankCommands : Obligations.ShankCommands := by
  unfold Obligations.ShankCommands
  refine ⟨?load, ?swapOff, ?swapOn, ?limits, ?rateOff, ?rateOn, ?status, ?statusCell⟩
  case load =>
    intro r s t h h2 h11 h18 hcoef ht
    subst ht
    exact Asked.completes shankCoefLoadCmd h (by decide) rfl (by simp [shankCoefLoadCmd, h2, h11, h18, hcoef]) rfl
  case swapOff =>
    intro r s h hpending hactive h2 hoff
    exact Asked.completes shankCoefSwapCmd h (by decide) (by simp [shankCoefSwapCmd, hpending, hactive])
      (by simp [shankCoefSwapCmd, h2]) (by simp [shankCoefSwapCmd, hoff, Ans.of])
  case swapOn =>
    intro r s t h hpending hactive h2 hon ht
    subst ht
    exact Asked.starts shankCoefSwapCmd h (by decide) (by simp [shankCoefSwapCmd, hpending, hactive])
      (by simp [shankCoefSwapCmd, h2]) (by simp [shankCoefSwapCmd, hon])
  case limits =>
    intro r s t h h2 hcell hlo hhi htemp ht
    subst ht
    exact Asked.completes shankLimitsCmd h (by decide) rfl (by simp [shankLimitsCmd, h2, hcell, hlo, hhi, htemp]) rfl
  case rateOff =>
    intro r s h h2 hlo hhi hmul hoff
    exact Asked.completes shankRateCmd h (by decide) rfl (by simp [shankRateCmd, h2, hlo, hhi, hmul])
      (by simp [shankRateCmd, hoff, Ans.ok])
  case rateOn =>
    intro r s t h h2 hlo hhi hmul hon ht
    subst ht
    exact Asked.starts shankRateCmd h (by decide) rfl (by simp [shankRateCmd, h2, hlo, hhi, hmul])
      (by simp [shankRateCmd, hon])
  case status =>
    intro r s x count h h2 hcell hx hcount
    subst hx hcount
    exact Asked.completes shankStatusCmd h (by decide) rfl (by simp [shankStatusCmd, h2, hcell])
      (by simp only [shankStatusCmd, hcell]; rfl)
  case statusCell =>
    intro r s x count h h2 hcell hplane hx hcount
    subst hx hcount
    exact Asked.completes shankStatusCmd h (by decide) rfl (by simp [shankStatusCmd, h2, hplane])
      (by simp only [shankStatusCmd, hcell]; rfl)

/-- Settles O7, command by command. -/
theorem calibrationCommands : Obligations.CalibrationCommands := by
  unfold Obligations.CalibrationCommands
  refine ⟨?run, ?status, ?read⟩
  case run =>
    intro r s h hbusy hzero hsome
    exact Asked.completes calRunCmd h (by decide) rfl (by simp [calRunCmd, hbusy, hzero, hsome]) rfl
  case status =>
    intro r s version h hversion
    subst hversion
    exact Asked.completes calStatusCmd h (by decide) rfl rfl rfl
  case read =>
    intro r s h hzero hkind hone hend
    exact Asked.completes monitorReadCmd h (by decide) rfl (by simp [monitorReadCmd, hzero, hkind, hone, hend]) rfl

/-- Settles O8, command by command. -/
theorem scheduleCommands : Obligations.ScheduleCommands := by
  unfold Obligations.ScheduleCommands
  refine ⟨?arm, ?disarm, ?fired, ?entry, ?port, ?pps⟩
  case arm =>
    intro r s i t h hzero haction hlead hfree ht
    subst ht
    refine Asked.completes schedArmCmd h (by decide) rfl ?_ (by simp only [schedArmCmd, armWith_ok hlead hfree])
    simpa [schedArmCmd, hzero] using haction
  case disarm =>
    intro r s i e h hzero hnamed harmed haction
    exact Asked.completes schedDisarmCmd h (by decide) (by simp [schedDisarmCmd, hnamed, harmed, haction])
      (by simp [schedDisarmCmd, hzero, hnamed, harmed]) (by simp only [schedDisarmCmd, hnamed])
  case fired =>
    intro r s h hzero hlist
    exact Asked.completes schedQueryCmd h (by decide) rfl (by simp [schedQueryCmd, hzero, hlist])
      (by simp only [schedQueryCmd, hlist]; rfl)
  case entry =>
    intro r s i e h hzero hlist hfind
    exact Asked.completes schedQueryCmd h (by decide) rfl (by simp [schedQueryCmd, hzero, hfind])
      (by simp only [schedQueryCmd, hlist, hfind]; rfl)
  case port =>
    intro r s t h h2 h4 hauto hunicast ht
    subst ht
    refine Asked.completes timePortConfigCmd h (by decide) rfl ?_ ?_
    · simpa [timePortConfigCmd, h2, h4, hunicast] using hauto
    · simp only [timePortConfigCmd]; rfl
  case pps =>
    intro r s t h h2 h6 hedge h4 h5 hwidth ht
    subst ht
    exact Asked.completes ppsConfigCmd h (by decide) rfl (by simp [ppsConfigCmd, h2, h6, hedge, h4, h5, hwidth])
      (by simp only [ppsConfigCmd, hedge]; rfl)

end Sys2Proof.Machine
end

section
/-! PROOFS. The resilience commands (R378, R386, R390 to R396). -/

namespace Sys2Proof.Machine

variable {r : Req} {s t : State} {n : Nat}

/-- A request that reaches its command's own checks and passes them has what the command answers delivered. -/
theorem Asked.delivers (c : Cmd) (h : Asked c.op n r s) (hn : 2 ≤ n ∧ n ≤ 512 ∧ c.len n = true)
    (ho : c.object r s = none) (ha : c.args r s = none) : runCmd c r s = deliver c r (c.run r s) := by
  obtain ⟨hserve, hlen, hhead, hadm⟩ := h
  obtain ⟨h2, h512, hl⟩ := hn
  simp [runCmd, hserve, answer, verdict_none hlen h2 h512 hl hhead hadm ho ha]

/-! What the reads of a store leave: the jobs (R215 to R220, R230, R231). -/

theorem forAll_jobs {β : Type} {f : β → State → State} (h : ∀ x s, (f x s).jobs = s.jobs) (l : List β) (s : State) :
    (forAll l f s).jobs = s.jobs := by
  induction l generalizing s with
  | nil => rfl
  | cons x l ih => exact (ih (f x s)).trans (h x s)

theorem Loud.jobs {s t : State} (h : Loud s t) : t.jobs = s.jobs := by
  unfold Loud at h
  rw [h]

@[simp] theorem lineCorrected_jobs (c line pos : Nat) (s : State) : (lineCorrected c line pos s).jobs = s.jobs := by
  simp [lineCorrected, apply_ite State.jobs, (loud_raise _ _ _ _).jobs, (loud_raiseLimited _ _ _ _ _ _ _).jobs, modChan,
    setChan, queueRewrite]

@[simp] theorem lineRead_jobs (c reader line : Nat) (s : State) : (lineRead c reader line s).jobs = s.jobs := by
  unfold lineRead
  split <;> simp [lineFound, lineBad, (loud_raiseLimited _ _ _ _ _ _ _).jobs]

theorem piecesTouch_jobs (reader : Nat) (l : List (Nat × Nat × Nat)) (s : State) :
    (piecesTouch reader l s).jobs = s.jobs :=
  forAll_jobs (fun _ s => forAll_jobs (fun _ s => lineRead_jobs _ _ _ s) _ s) l s

@[simp] theorem frontTake_jobs (c : Nat) (w : Claim) (a : Arb) (s : State) : (frontTake c w a s).jobs = s.jobs := by
  unfold frontTake
  dsimp only
  repeat' split
  all_goals rfl

@[simp] theorem frontTurn_jobs (who cls c n : Nat) (s : State) : (frontTurn who cls c n s).jobs = s.jobs := by
  induction n generalizing s with
  | zero => rfl
  | succ n ih =>
    unfold frontTurn
    dsimp only
    split
    · rfl
    · split
      · rfl
      · rw [ih, frontTake_jobs]

theorem chargePieces_jobs (who cls : Nat) (l : List (Nat × Nat × Nat)) (s : State) :
    (chargePieces who cls l s).jobs = s.jobs := by
  refine forAll_jobs (fun p s => ?_) l s
  unfold frontCharge
  split
  · rfl
  · exact forAll_jobs (fun _ s => frontTurn_jobs _ _ _ _ s) _ s

/-- A read of a store leaves every region where it is. -/
@[simp] theorem regionOf_storeRead (x : Store) (off n j k : Nat) (s : State) :
    regionOf j k (storeRead x off n s) = regionOf j k s := by
  have hjobs : (storeRead x off n s).jobs = s.jobs := by
    unfold storeRead
    split
    · rw [piecesTouch_jobs, chargePieces_jobs]
    · rfl
  simp [regionOf, jobOf, hjobs]

/-! The commands. -/

/-- BUDDY_SET in mode 1 reserves the lowest free store for a source that has none. -/
theorem reserveStore_run {k off total : Nat} {x : Store} {t u : State}
    (hnone : storeNo (rf r 3 0 16) s = none)
    (hfree : (List.range 4).find? (fun k => (tget none s.resil.stores k).isNone) = some k)
    (htotal : total = storeBytes (defaultView s) (reqJournal r) (reqImage r))
    (hoff : freeView (defaultView s) (viewPages (defaultView s) total) s = some off)
    (hx : x = { source := rf r 3 0 16, base := off, view := defaultView s, image := reqImage r, journal := reqJournal r })
    (ht : t = (extentOf off total s).own (storeOwner k) s)
    (hu : u = hdrPut x 0 [0x53544F52, word (rf r 3 0 16 + 65536 * defaultView s), word (reqJournal r),
      word (reqImage r % 2 ^ 32), word (reqImage r / 2 ^ 32), noIndex, noIndex, 0, 0, 0, noIndex]
      (storePut true x 0 emptyTable
        { t with resil := { t.resil with stores := tset none t.resil.stores k (some x) } })) :
    reserveStore r s = .reply .ok [word (ownPga 0 off u % 2 ^ 32), word (ownPga 0 off u / 2 ^ 32)] []
      (raise 0x8015 1 (word (rf r 3 0 16) :: dwords total) u) := by
  subst htotal hx ht hu
  simp only [reserveStore, hfree, hoff, hnone]
  rfl

/-- None of the regions that a promotion would place has a place, as `promote` asks it. -/
theorem anyPlaced_false {j : Nat} {l : List TableRow} (h : ∀ e ∈ l, (regionOf j e.region s).bind (·.base) = none) :
    l.any (fun e => match regionOf j e.region s with
      | some g => g.base.isSome
      | none => false) = false := by
  refine List.any_eq_false.mpr fun e he => ?_
  have hbase := h e he
  cases hg : regionOf j e.region s with
  | none => simp
  | some g => simpa [hg] using hbase

/-- A promotion of a store that is readable and holds what is asked for brings it to the boundary and forms its
directory (R391, R392). -/
theorem promote_run {k : Nat} {x : Store} {l : List TableRow} {w : State}
    (hno : storeNo (rf r 3 0 16) s = some k) (hx : tget none s.resil.stores k = some x)
    (hl : l = storeRegions x (rw r 5) (some (rw r 4)) s)
    (hplaced : ∀ e ∈ l, (regionOf (rf r 2 1 4) e.region s).bind (·.base) = none)
    (hgood : storeGood x 0 tableBytes s = true) (hok : storePromotable x (rw r 5) (rw r 4) s = true)
    (hw : w = storeRead x 0 tableBytes s) :
    promote r s = match bringTo x (rw r 4) w with
      | .error t => recoverFailed r t
      | .ok (c, u) => match formDirectory (rf r 2 1 4) (forAll l (promoteRegion k (rf r 2 1 4) x) u) with
        | .error _ => .of .noResource [] w
        | .ok v => .of .ok [word l.length, word (c * 4096 / 2 ^ 20)]
            (raise 0x8012 1 [word (rf r 3 0 16), word (rf r 2 1 4), rw r 4, word l.length]
              { v with resil.stores := tset none v.resil.stores k (some { x with sealAt := none }) }) := by
  have hany := anyPlaced_false (s := w) (fun e he => by rw [hw, regionOf_storeRead]; exact hplaced e he)
  unfold promote
  dsimp only
  rw [hno]
  dsimp only
  rw [hx]
  dsimp only
  rw [← hl, ← hw, hgood, hok, if_neg (by decide), if_neg (by decide)]
  exact if_neg (Bool.eq_false_iff.mp hany)

/-- Settles O9, command by command. -/
theorem resilienceCommands : Obligations.ResilienceCommands := by
  unfold Obligations.ResilienceCommands
  refine ⟨?epochOff, ?epochOn, ?buddy, ?reserve, ?free, ?noBuddy, ?heartbeat, ?promote, ?restore, ?status⟩
  case epochOff =>
    intro r s t h h2 h3 h6 hlo hhi hoff hzero ht
    subst ht
    exact Asked.completes epochConfigCmd h (by decide) (by simp [epochConfigCmd, hoff])
      (by simp [epochConfigCmd, h2, h3, h6, hlo, hhi, hzero]) (by simp [epochConfigCmd, hoff, Ans.ok])
  case epochOn =>
    intro r s t i u v h h2 h3 h6 hlo hhi hon hbuddy ht hlead hfree hu hv
    subst ht hu hv
    refine Asked.completes epochConfigCmd h (by decide) (by simp [epochConfigCmd, hbuddy])
      (by simp [epochConfigCmd, h2, h3, h6, hlo, hhi, hon]) ?_
    simp only [epochConfigCmd, hon, armWith_ok hlead hfree]
    rfl
  case buddy =>
    intro r s b h hmode hhead hargs
    exact Asked.completes buddySetCmd h (by decide) (by simp [buddySetCmd, hhead]) (by simp [buddySetCmd, hargs])
      (by simp [buddySetCmd, hmode, hhead, Ans.ok])
  case reserve =>
    intro r s k off total x t u h hmode hargs hnone hfree htotal hoff hx ht hu
    exact Asked.completes buddySetCmd h (by decide) (by simp [buddySetCmd, hmode]) (by simp [buddySetCmd, hargs])
      (by simp [buddySetCmd, hmode, reserveStore_run hnone hfree htotal hoff hx ht hu])
  case free =>
    intro r s h hmode hargs
    exact Asked.completes buddySetCmd h (by decide) (by simp [buddySetCmd, hmode]) (by simp [buddySetCmd, hargs])
      (by simp [buddySetCmd, hmode, Ans.ok])
  case noBuddy =>
    intro r s h hmode hargs
    exact Asked.completes buddySetCmd h (by decide) (by simp [buddySetCmd, hmode]) (by simp [buddySetCmd, hargs])
      (by simp [buddySetCmd, hmode, Ans.ok])
  case heartbeat =>
    intro r s ids h hok hids hdma hdup hown hall
    have hgood : (decide (rf r 3 0 7 ≠ 0) && !dmaGood r 0) = false := by grind
    refine Asked.completes heartbeatConfigCmd h (by decide) rfl (by simp [heartbeatConfigCmd, hok]) ?_
    simp only [heartbeatConfigCmd, hgood, ← hids]
    simp [hdup, hown, hall, Ans.ok]
  case promote =>
    intro r s k x l w h hst hnone hargs hmode hno hx hl hplaced hgood hok hw
    show Host.Outcome.next (runCmd recoverPromoteCmd r s) = _
    rw [Asked.delivers recoverPromoteCmd h (by decide) (by simp [recoverPromoteCmd, hst, hnone])
      (by simp [recoverPromoteCmd, hargs])]
    simp only [recoverPromoteCmd, hmode, promote_run hno hx hl hplaced hgood hok hw]
    cases hbring : bringTo x (rw r 4) w with
    | error u => rfl
    | ok p =>
      obtain ⟨c, u⟩ := p
      dsimp only
      cases hform : formDirectory (rf r 2 1 4) (forAll l (promoteRegion k (rf r 2 1 4) x) u) <;> rfl
  case restore =>
    intro r s u t h hst hnone hargs hmode hu ht
    subst hu ht
    exact Asked.starts recoverPromoteCmd h (by decide) (by simp [recoverPromoteCmd, hst, hnone])
      (by simp [recoverPromoteCmd, hargs]) (by simp [recoverPromoteCmd, hmode, restore])
  case status =>
    intro r s full waits lost h hfull hwaits hlost
    subst hfull hwaits hlost
    exact Asked.completes resilienceStatusCmd h (by decide) rfl rfl rfl

end Sys2Proof.Machine
end

section
/-! PROOFS. The recorder, firmware and identity commands (R405, R406, R429 to R431, R442 to R444). -/

namespace Sys2Proof.Machine

variable {r : Req} {s t : State} {n : Nat}

/-- LOG_READ answers the records that it takes, when it finds one or no chunk is bad (R405). -/
theorem logReadCmd_run {xs got : List Seen} {nxt : Word} {data : List Byte} {gap : Bool} (hdma : dmaGood r 0 = true)
    (hgap : gap = match xs with
      | x :: _ => decide (max (rw r 2).toNat 1 < x.record.seq.toNat) ||
        missingSeq nxt.toNat (max (rw r 2).toNat 1) xs
      | [] => decide (max (rw r 2).toNat 1 ≤ s.log.seqNew.toNat))
    (hxs : xs = (allSeen s.fw.logVersion s.log).filter (fun x => (rw r 2).toNat ≤ x.record.seq.toNat))
    (hsome : xs ≠ [] ∨ badChunks s.log = 0)
    (hgot : takeSeen (rf r 3 0 3) (rb r 3 3) (bulkLen r 4) xs (rw r 2) = (got, nxt))
    (hdata : data = got.flatMap (fun x => recBytes x.converted x.record)) :
    logReadCmd.run r s = .reply .ok
      [word got.length, word data.length, match got with
        | x :: _ => x.record.seq
        | [] => noSeq, nxt, oldestToe s.log, s.log.seqNew, word (min (badChunks s.log) 65535 + 65536 * b2n gap)]
      (if data.isEmpty then [] else [(bulkAddr r 4, data)]) s := by
  have hno : (xs.isEmpty && decide (badChunks s.log ≠ 0) && gap) = false := by
    obtain hx | hbad := hsome
    · rw [List.isEmpty_eq_false_iff.mpr hx]
      rfl
    · simp [hbad]
  subst hdata hgap
  simp only [logReadCmd, hdma, ← hxs, hgot]
  exact if_neg (Bool.eq_false_iff.mp hno)

/-- Settles O10, command by command. -/
theorem recorderCommands : Obligations.RecorderCommands := by
  unfold Obligations.RecorderCommands
  refine ⟨?read, ?freeze, ?freezeAgain, ?thaw, ?lastgasp, ?filter, ?filterSame⟩
  case read =>
    intro r s xs got nxt data gap h h3 hlvl hbulk hlen hdma hxs hsome hgot hdata hgap
    exact Asked.completes logReadCmd h (by decide) rfl (by simp [logReadCmd, h3, hlvl, hbulk, hlen])
      (logReadCmd_run hdma hgap hxs hsome hgot hdata)
  case freeze =>
    intro r s q t h h1 h16 hon hfrozen hq ht
    subst hq ht
    exact Asked.completes logFreezeCmd h (by decide) rfl (by simp [logFreezeCmd, h1, h16, hon])
      (by simp [logFreezeCmd, hon, hfrozen, Ans.of])
  case freezeAgain =>
    intro r s q h h1 h16 hon hfrozen
    exact Asked.completes logFreezeCmd h (by decide) rfl (by simp [logFreezeCmd, h1, h16, hon])
      (by simp [logFreezeCmd, hon, hfrozen, Ans.of])
  case thaw =>
    intro r s h h1 h16 hoff hsecs
    exact Asked.completes logFreezeCmd h (by decide) rfl (by simp [logFreezeCmd, h1, h16, hoff, hsecs])
      (by simp [logFreezeCmd, hoff, Ans.of])
  case lastgasp =>
    intro r s data h hbulk hlen hdma hdata
    subst hdata
    exact Asked.completes logLastgaspCmd h (by decide) rfl (by simp [logLastgaspCmd, hbulk, hlen])
      (by simp [logLastgaspCmd, hdma])
  case filter =>
    intro r s h h0 h20 h24 hgroups hne
    exact Asked.completes logFilterCmd h (by decide) rfl (by simpa [logFilterCmd, h0, h20, h24] using hgroups)
      (by simp [logFilterCmd, hne, Ans.ok])
  case filterSame =>
    intro r s h h0 h20 h24 hgroups heq
    exact Asked.completes logFilterCmd h (by decide) rfl (by simpa [logFilterCmd, h0, h20, h24] using hgroups)
      (by simp [logFilterCmd, heq, Ans.ok])

/-! The firmware commands. -/

/-- FW_VERIFY has nothing missing where a delivery is in progress and every block is stored. -/
theorem fwVerifyCmd_run (hstaging : s.fw.staging = .receiving) (hall : firstMissing s = none)
    (hagent : otherAgent r s = false) (hmedia : r.env.mediaOk = true) :
    fwVerifyCmd.run r s = match verifyImage s.fw.staged with
      | none => .ok (raise 0x9003 1 [0, hdrVersion s.fw.staged.header, 0] { s with fw.staging := .verified })
      | some i => .of .authFail [word i] (raise 0x9003 1 [1, hdrVersion s.fw.staged.header, word i]
          { s with fw.staging := .failed, fw.reason := 9, fw.failBlock := i }) := by
  simp only [fwVerifyCmd, hstaging, hall, hagent, hmedia]
  rfl

/-- Settles O11, command by command; the checks of cryptography split the answer. -/
theorem firmwareCommands : Obligations.FirmwareCommands := by
  unfold Obligations.FirmwareCommands
  refine ⟨?begin_, ?block, ?verify, ?arm, ?status, ?abort⟩
  case begin_ =>
    intro r s b h harmed hbulk hlen hagent hdma hmedia hb
    subst hb
    have ho : fwBeginCmd.object r s = none := by simp [fwBeginCmd, harmed]
    have ha : fwBeginCmd.args r s = none := by simpa [fwBeginCmd, hbulk, hlen] using hagent
    cases hrefused : deliveryRefused (bulkBytes r 0 2) s with
    | some n => exact Asked.completes fwBeginCmd h (by decide) ho ha (by simp [fwBeginCmd, hdma, hrefused, Ans.of])
    | none => exact Asked.completes fwBeginCmd h (by decide) ho ha (by simp [fwBeginCmd, hdma, hrefused, hmedia, Ans.ok])
  case block =>
    intro r s i ct tag stored h hstaging h2 hi hlt hbulk hlen hagent hdma hmedia hct htag hstored
    subst hct htag hstored hi
    have ho : fwBlockCmd.object r s = none := by simp [fwBlockCmd, hstaging]
    have ha : fwBlockCmd.args r s = none := by simp [fwBlockCmd, h2, hlt, hbulk, hlen, hagent]
    cases hopen : openBlock s.fw.staged.header (rf r 2 0 9) (bulkBytes r 0 7)
        (wordsBytes [rw r 3, rw r 4, rw r 5, rw r 6]) with
    | none => exact Asked.completes fwBlockCmd h (by decide) ho ha (by simp [fwBlockCmd, hdma, hopen, Ans.of])
    | some p =>
      exact Asked.completes fwBlockCmd h (by decide) ho ha (by simp [fwBlockCmd, hdma, hopen, hmedia, Ans.of])
  case verify =>
    intro r s h hstaging hall hagent hmedia
    have hrun := fwVerifyCmd_run hstaging hall hagent hmedia
    cases hverify : verifyImage s.fw.staged with
    | none => rw [hverify] at hrun; exact Asked.completes fwVerifyCmd h (by decide) rfl rfl hrun
    | some i => rw [hverify] at hrun; exact Asked.completes fwVerifyCmd h (by decide) rfl rfl hrun
  case arm =>
    intro r s i t h hstaging hagent hlead hfree ht
    subst ht
    refine Asked.completes fwArmCmd h (by decide) (by simp [fwArmCmd, hstaging]) ?_
      (by simp only [fwArmCmd, armWith_ok hlead hfree])
    obtain hhost | hours := hagent
    · simp [fwArmCmd, hhost]
    · simp [fwArmCmd, hours]
  case status =>
    intro r s b e h hb he
    subst hb he
    exact Asked.completes fwStatusCmd h (by decide) rfl rfl rfl
  case abort =>
    intro r s t h hfiring hagent ht
    subst ht
    refine Asked.completes fwAbortCmd h (by decide) rfl ?_ rfl
    obtain hhost | hours | hempty := hagent
    · simp [fwAbortCmd, hfiring, hhost]
    · simp [fwAbortCmd, hfiring, hours]
    · simp [fwAbortCmd, hfiring, hempty]

/-! The identity commands. -/

/-- Settles O12, command by command; a grant that does not verify answers AUTH_FAIL. -/
theorem identityCommands : Obligations.IdentityCommands := by
  unfold Obligations.IdentityCommands
  refine ⟨?cert, ?report, ?keyClear, ?keySet, ?nonce, ?grant⟩
  case cert =>
    intro r s h h2 hbulk hlen hmedia hdma
    exact Asked.completes idCertReadCmd h (by decide) rfl (by simp [idCertReadCmd, h2, hbulk, hlen])
      (by simp [idCertReadCmd, hmedia, hdma])
  case report =>
    intro r s h hbulk hlen hdma
    exact Asked.completes attestReportCmd h (by decide) rfl (by simp [attestReportCmd, hbulk, hlen])
      (by simp only [attestReportCmd, hdma]; rfl)
  case keyClear =>
    intro r s h h2 hclear hzero
    exact Asked.completes svcTokenKeyCmd h (by decide) rfl (by simp [svcTokenKeyCmd, h2, hclear, hzero])
      (by simp only [svcTokenKeyCmd, hclear]; rfl)
  case keySet =>
    intro r s h h2 hset hbulk hlen hdma
    exact Asked.completes svcTokenKeyCmd h (by decide) rfl (by simp [svcTokenKeyCmd, h2, hset, hbulk, hlen])
      (by simp only [svcTokenKeyCmd, hset, hdma]; rfl)
  case nonce =>
    intro r s n h hmaint h2 hbulk hask hlen hdma hn
    subst hn
    exact Asked.completes testUnlockCmd h (by decide) (by simp [testUnlockCmd, hmaint, hask])
      (by simp [testUnlockCmd, h2, hbulk, hask, hlen]) (by simp only [testUnlockCmd, hask, hdma]; rfl)
  case grant =>
    intro r s n t h hmaint h2 hbulk hask hlen hdma hnonce ht
    subst ht
    have ho : testUnlockCmd.object r s = none := by simp [testUnlockCmd, hmaint, hnonce]
    have ha : testUnlockCmd.args r s = none := by simp [testUnlockCmd, h2, hbulk, hask, hlen]
    split
    next hok =>
      exact Asked.completes testUnlockCmd h (by decide) ho ha
        (by simp only [testUnlockCmd, hask, hdma, hnonce, hok]; rfl)
    next hbad =>
      exact Asked.completes testUnlockCmd h (by decide) ho ha
        (by simp only [testUnlockCmd, hask, hdma, hnonce, hbad]; rfl)

end Sys2Proof.Machine
end

section
/-! PROOFS. The mailbox slots' registers and the interrupts (R37, R38, R42 to R44, R47 to R49). -/

namespace Sys2Proof.Machine

/-- What runs whenever the module is alive runs there. -/
theorem live_alive {f : State → State} {s : State} (h : Alive s) : live f s = .next (f s) := live_next h.1 h.2

/-- Settles O13, register by register. -/
theorem slotRegisters : Obligations.SlotRegisters := by
  unfold Obligations.SlotRegisters
  refine ⟨?ring, ?ringFree, ?ringTaken, ?done, ?doneDone, ?doneOther, ?errRead⟩
  case ring =>
    intro hi v s hreach
    exact onWrite_next hreach
  case ringFree =>
    intro n s hfree
    simp [ringSlot, hfree, setSlot]
  case ringTaken =>
    intro n s htaken
    have hcap : (if s.mbx.badRings = 0xFFFF then s.mbx.badRings else s.mbx.badRings + 1)
        = if s.mbx.badRings = 0xFFFF then 0xFFFF else s.mbx.badRings + 1 := by grind
    simp only [ringSlot, htaken, if_false, hcap]
  case done =>
    intro hi v s hreach
    exact onWrite_next hreach
  case doneDone =>
    intro n s hdone
    simp [freeSlot, hdone, modSlot]
  case doneOther =>
    intro n s hother
    simp [freeSlot, hother]
  case errRead =>
    intro s hreach
    exact onRead_next hreach

/-- SLOT_TAKE takes the slot rung first; its command starts where it may and waits where it must (R39, R43). -/
theorem slotTake_first {env : Env} {s t u : State} {n : Fin 64} {rest : List Nat} {x : Slot} {r : Req}
    (hrung : s.mbx.rung = n.val :: rest) (hx : x = slotOf s n.val)
    (hr : r = requestOf (.slot n) (tget 0 x.req 0) (tget 0 x.req 1) (tget 0 x.req) env)
    (ht : t = setSlot n.val { x with cond := .busy } s)
    (hu : u = { t with mbx := { t.mbx with rung := rest, orders := s.mbx.orders + 1 } }) :
    slotTake env s = if mayStart ⟨(tget 0 x.req 0).setWidth 16, r, s.mbx.orders, x.after⟩ u then
        runTaken ⟨(tget 0 x.req 0).setWidth 16, r, s.mbx.orders, x.after⟩ u
      else { u with mbx := { u.mbx with
        waiting := u.mbx.waiting ++ [⟨(tget 0 x.req 0).setWidth 16, r, s.mbx.orders, x.after⟩] } } := by
  subst hx hr ht hu
  simp only [slotTake, hrung, Fin.is_lt, dite_true]
  rfl

/-- Settles O14: the slot rung first is taken, and its command starts where it may. -/
theorem slotTaken : Obligations.SlotTaken := by
  unfold Obligations.SlotTaken
  refine ⟨?start, ?wait⟩
  case start =>
    intro env s n rest x r t u hserve hrung hx hr ht hu hmay
    show execSlotTake env s = _
    rw [execSlotTake, if_pos hserve, slotTake_first hrung hx hr ht hu, if_pos hmay]
  case wait =>
    intro env s n rest x r t u hserve hrung hx hr ht hu hmay
    show execSlotTake env s = _
    rw [execSlotTake, if_pos hserve, slotTake_first hrung hx hr ht hu, if_neg (Bool.eq_false_iff.mp hmay)]

/-- Settles O16, command by command and message by message. -/
theorem interruptCommands : Obligations.InterruptCommands := by
  unfold Obligations.InterruptCommands
  refine ⟨?mask, ?jobMask, ?gapOwed, ?gapEnds, ?d3hot, ?cause, ?jobCause, ?again, ?message, ?held, ?d0, ?silent⟩
  case mask =>
    intro v s hreach
    exact onWrite_next hreach
  case jobMask =>
    intro v s hreach
    exact onWrite_next hreach
  case gapOwed =>
    intro k s g halive hg hopen hover howed
    subst hg
    refine (live_alive halive).trans ?_
    simp [gapEnd, gapRuns, hopen, Nat.not_lt.mpr hover, howed]
  case gapEnds =>
    intro k s g halive hg hopen hover howed
    subst hg
    refine (live_alive halive).trans ?_
    simp [gapEnd, gapRuns, hopen, Nat.not_lt.mpr hover, howed]
  case d3hot =>
    intro s halive
    show execD3hotEntry s = _
    exact live_alive halive
  case cause =>
    intro v s _ hclear
    simp only [setCause, hclear, Bool.false_eq_true, if_false]
  case jobCause =>
    intro j s _ hclear
    simp only [setJobCause, hclear, Bool.false_eq_true, if_false]
  case again =>
    intro v s
    exact ⟨fun h => by simp [setCause, h], fun h => by simp [setJobCause, h]⟩
  case message =>
    intro v e s _ he hd0
    subst he
    simp [sendMsix, hd0]
  case held =>
    intro v s hd3
    simp [sendMsix, hd3]
  case d0 =>
    intro s halive
    show execD0Return s = _
    exact live_alive halive
  case silent =>
    intro s hsilent
    exact Bool.eq_false_iff.mpr fun hreach => Bool.eq_false_iff.mp hsilent (reachable_parts hreach).1

end Sys2Proof.Machine
end

section
/-! PROOFS. Host writes to BAR0 and reads of its registers (R7, R8, R23 to R28, R417). -/

namespace Sys2Proof.Machine

variable {s : State} {off : Nat} {v : Word}

/-! The block that a word written reaches, by its offset. -/

theorem wordWrite_irq (h : reachable s = true) (hoff : off < 0x10000) : wordWrite (0x20000 + off) v s = irqWrite off v s := by
  simp only [wordWrite, h]
  grind

theorem wordWrite_tmu (h : reachable s = true) (hoff : off < 0x10000) : wordWrite (0x30000 + off) v s = tmuWrite off v s := by
  simp only [wordWrite, h]
  grind

theorem wordWrite_cvu (h : reachable s = true) (hoff : off < 0x10000) :
    wordWrite (0x40000 + off) v s = cvuRegWrite off v s := by
  simp only [wordWrite, h]
  grind

theorem wordWrite_log (h : reachable s = true) (hoff : off < 0x10000) : wordWrite (0x50000 + off) v s = logWrite off v s := by
  simp only [wordWrite, h]
  grind

theorem wordWrite_tpm (h : reachable s = true) (hoff : off < 0x10000) : wordWrite (0x60000 + off) v s = tpmWrite off v s := by
  simp only [wordWrite, h]
  grind

theorem wordWrite_slots (h : reachable s = true) (hoff : off < 0x40000) :
    wordWrite (0x100000 + off) v s = slotWrite off v s := by
  simp only [wordWrite, h, inSlots]
  grind

/-- A write into a slot's memory reaches its request words and leaves its response words (R37). -/
theorem slotWrite_req {n i : Nat} (hi : i < 512) :
    slotWrite (4096 * n + 4 * i) v s = setSlot n { slotOf s n with req := tset 0 (slotOf s n).req i v } s := by
  have hpage : (4096 * n + 4 * i) / 4096 = n := by omega
  have hin : (4096 * n + 4 * i) % 4096 = 4 * i := by omega
  simp [slotWrite, hpage, hin, modSlot, Nat.mul_lt_mul_left (show 0 < 4 by decide) |>.mpr hi]

theorem slotWrite_resp {n i : Nat} (hi : i < 512) : slotWrite (4096 * n + 2048 + 4 * i) v s = s := by
  have hin : (4096 * n + 2048 + 4 * i) % 4096 = 2048 + 4 * i := by omega
  have hresp : ¬ 2048 + 4 * i < 2048 := by omega
  simp only [slotWrite, hin, if_neg hresp]

/-- A word of an MSI-X entry is written; an entry that is unmasked sends the message that is pending (R49). -/
theorem msixWrite_word {n k : Nat} (hk : k < 4) {e : MsixEntry} {t : State}
    (he : e = if k = 0 then { tget {} s.irq.msix n with addrLo := v }
      else if k = 1 then { tget {} s.irq.msix n with addrHi := v }
      else if k = 2 then { tget {} s.irq.msix n with data := v } else { tget {} s.irq.msix n with ctrl := v &&& 1 })
    (ht : t = { s with irq := { s.irq with msix := tset {} s.irq.msix n e } }) :
    msixWrite (16 * n + 4 * k) v s = if bit s.irq.pba n = true ∧ bit e.ctrl 0 = false ∧ s.irq.fnMask = false then
        sendMsix n { t with irq := { t.irq with pba := t.irq.pba &&& ~~~(BitVec.ofNat 64 (2 ^ n)) } }
      else t := by
  have hn : (16 * n + 4 * k) / 16 = n := by omega
  have hw : (16 * n + 4 * k) / 4 % 4 = k := by omega
  have hword : msixWord k v (tget {} s.irq.msix n) = e := by
    subst he
    match k, hk with
    | 0, _ => rfl
    | 1, _ => rfl
    | 2, _ => rfl
    | 3, _ => rfl
  subst ht
  simp only [msixWrite, hn, hw, hword, tget_tset_same, Bool.and_eq_true, Bool.not_eq_true', and_assoc]

/-- What the writes of the base of a ring leave: a ring that runs keeps its base (R364). -/
theorem ringBaseWrite_stopped {hi : Bool} {fresh : Nat} {x : Ring} (h : x.size = 0) (hal : hi = true ∨ field v 0 6 = 0) :
    ringBaseWrite hi v fresh x = if hi then { x with baseHi := v } else { x with baseLo := v } := by
  cases hi <;> simp_all [ringBaseWrite]

theorem ringBaseWrite_running {hi : Bool} {fresh : Nat} {x : Ring} (h : x.size ≠ 0) : ringBaseWrite hi v fresh x = x := by
  simp [ringBaseWrite, h]

/-- A register of a check-value unit takes a write into its queue, or loses it (R417). -/
theorem cvuWrite_queue {n o : Nat} (hoff : cvuHas o = true) :
    cvuWrite n o v s = setCvu n
      (if (cvuOf s n).queue.length < 16 then { cvuOf s n with queue := (cvuOf s n).queue ++ [{ off := o, value := v }] }
       else { cvuOf s n with overrun := true }) s := by
  split
  next hroom => exact cvuWrite_of_room hoff hroom v
  next hfull => exact cvuWrite_of_full hoff (Nat.not_lt.mp hfull) v

/-! What registers read. -/

theorem testBit_bitsNat (l : List Bool) (k : Nat) : (bitsNat l).testBit k = l.getD k false := by
  induction l generalizing k with
  | nil => simp [bitsNat]
  | cons b l ih =>
    cases k with
    | zero => cases b <;> simp [bitsNat, b2n, Nat.testBit_zero, Nat.add_mod]
    | succ k =>
      have hdiv : (b2n b + 2 * bitsNat l) / 2 = bitsNat l := by cases b <;> simp [b2n]; omega
      simp [bitsNat, Nat.testBit_succ, hdiv, ih]

theorem bit_slotMask {hi : Bool} {c : SlotCond} {k : Nat} (hk : k < 32) :
    bit (slotMask hi c s) k = decide ((slotOf s (32 * b2n hi + k)).cond = c) := by
  rw [bit, slotMask, word, BitVec.getLsbD_ofNat, testBit_bitsNat]
  simp [hk]

/-! The queue of a check-value unit, once every write of it has been applied (R417, R418). -/

theorem cvuCheckOp_queue (n : Nat) (s : State) : (cvuOf (cvuCheckOp n s) n).queue = (cvuOf s n).queue := by
  unfold cvuCheckOp
  dsimp only
  repeat' split
  all_goals simp

theorem cvuCtrl_queue (v : Word) (u : Cvu) : (cvuCtrl v u).queue = u.queue := by
  unfold cvuCtrl
  dsimp only
  split <;> rfl

theorem cvuEffect_queue (w : CvuWrite) (u : Cvu) : (cvuEffect w u).queue = u.queue := by
  unfold cvuEffect
  split
  case h_1 => exact cvuCtrl_queue _ u
  case h_5 => split <;> rfl
  case h_12 => split <;> rfl
  all_goals rfl

theorem cvuApply_queue (n : Nat) (w : CvuWrite) (s : State) : (cvuOf (cvuApply n w s) n).queue = (cvuOf s n).queue := by
  unfold cvuApply
  dsimp only
  split <;> simp [modCvu, cvuCheckOp_queue, cvuEffect_queue]

theorem cvuSettled_queue (n : Nat) (s : State) : (cvuOf (cvuSettled n s) n).queue = [] := by
  have hkeep (l : List CvuWrite) (t : State) : (cvuOf (forAll l (cvuApply n) t) n).queue = (cvuOf t n).queue := by
    induction l generalizing t with
    | nil => rfl
    | cons w l ih => exact (ih _).trans (cvuApply_queue n w t)
  rw [cvuSettled, hkeep]
  simp [modCvu]

/-! The block that a word read comes from, by its offset (R26). -/

theorem registerRead_glb (h : answersBar s = true) (hoff : off < 0x10000) : registerRead off s = some (glbRead off s) := by
  simp [registerRead, h, hoff]

theorem registerRead_mbx (h : reachable s = true) (hoff : off < 0x10000) :
    registerRead (0x10000 + off) s = some (mbxRead off s) := by
  simp only [registerRead, (reachable_parts h).1, h]
  grind

theorem registerRead_tmu (h : reachable s = true) (hoff : off < 0x10000) :
    registerRead (0x30000 + off) s = some (tmuRead off s) := by
  simp only [registerRead, (reachable_parts h).1, h]
  grind

theorem registerRead_cvu (h : reachable s = true) (hoff : off < 0x10000) :
    registerRead (0x40000 + off) s = some (cvuRead off s) := by
  simp only [registerRead, (reachable_parts h).1, h]
  grind

/-- An offset of the GLB_ block without a register reads 0 (R24). -/
theorem glbRead_reserved
    (h : off ∉ [0x00, 0x04, 0x08, 0x0C, 0x10, 0x14, 0x18, 0x20, 0x24, 0x28, 0x2C, 0x30, 0x34]) : glbRead off s = 0 := by
  unfold glbRead
  split
  case h_14 => rfl
  all_goals exact absurd (by decide) h

/-- A unit's registers read the unit after every write that it has been given (R418). -/
theorem cvuRead_unit {n o : Nat} {u : Cvu} (hn : n < 8) (ho : o < 0x100) (hu : u = cvuOf (cvuSettled n s) n) :
    (o = 0x24 → cvuRead (0x100 * n + o) s = u.result) ∧
    (o = 0x2C → cvuRead (0x100 * n + o) s =
      word (bitsNat [false, u.matched, u.mismatch, u.overrun, u.cfgErr, u.checked])) := by
  have hdiv : (0x100 * n + o) / 0x100 = n := by omega
  have hmod : (0x100 * n + o) % 0x100 = o := by omega
  have hqueue : u.queue = [] := hu ▸ cvuSettled_queue n s
  simp only [cvuRead, hdiv, hmod, ← hu, if_neg (Nat.not_le.mpr hn)]
  exact ⟨fun h => by simp [h], fun h => by simp [h, hqueue]⟩

/-- Two words of slot memory are the low and the high half of a read of 64 bits (R7). -/
theorem wide_goodAccess (h : inSlots off = true) (hal : off % 8 = 0) : goodAccess off 8 = true := by
  simp [goodAccess, h, hal]

/-- Settles O17, register by register. -/
theorem registerWrites : Obligations.RegisterWrites := by
  unfold Obligations.RegisterWrites
  refine ⟨?word, ?wide, ?scratch, ?boot, ?irq, ?request, ?response, ?block, ?rings, ?cvu, ?cvuRegs, ?msix, ?reserved,
    ?slots, ?glb, ?cvuReads, ?status, ?readWide, ?readBad, ?badRead, ?badWrite⟩
  case word =>
    intro off v s hbar hal
    exact congrArg Host.Outcome.next (registerWrite_word hbar hal)
  case wide =>
    intro off v s hbar hin hal
    refine congrArg Host.Outcome.next ?_
    simp [registerWrite, hbar, wide_goodAccess hin hal]
  case scratch =>
    exact wordWrite_scratch
  case boot =>
    intro off v s hreach hoff
    exact wordWrite_of_not_reachable hreach hoff
  case irq =>
    intro v s hreach
    have hirq {o : Nat} (ho : o < 0x10000) : wordWrite (0x20000 + o) v s = irqWrite o v s := wordWrite_irq hreach ho
    exact ⟨congrArg (·.irq.cause) (hirq (o := 0) (by decide)), congrArg (·.irq.jobCause) (hirq (o := 4) (by decide)),
      hirq (o := 0x10) (by decide), hirq (o := 0x14) (by decide)⟩
  case request =>
    intro off n i v s hreach hn hi hoff
    subst hoff
    rw [Nat.add_assoc, wordWrite_slots hreach (by omega), slotWrite_req hi]
  case response =>
    intro off n i v s hreach hn hi hoff
    subst hoff
    rw [Nat.add_assoc, Nat.add_assoc, wordWrite_slots hreach (by omega), ← Nat.add_assoc, slotWrite_resp hi]
  case block =>
    intro v s hreach
    exact ⟨wordWrite_tmu (off := 0x10) hreach (by decide), wordWrite_tmu (off := 0x2C) hreach (by decide),
      wordWrite_log (off := 0) hreach (by decide), wordWrite_log (off := 0xC) hreach (by decide),
      wordWrite_tpm (off := 0xC) hreach (by decide)⟩
  case rings =>
    intro v s hreach
    have htpm {o : Nat} (ho : o < 0x10000) : wordWrite (0x60000 + o) v s = tpmWrite o v s := wordWrite_tpm hreach ho
    refine ⟨?_, ?_, ?_, ?_, ?_, ?_, ?_, ?_⟩
    · intro hstop hal
      refine (htpm (o := 0) (by decide)).trans ?_
      simp [tpmWrite, ringWrite, ringBaseWrite_stopped hstop (.inr hal), hal]
    · intro hstop
      refine (htpm (o := 4) (by decide)).trans ?_
      simp [tpmWrite, ringWrite, ringBaseWrite_stopped hstop (.inl rfl)]
    · intro hrun hal
      refine (htpm (o := 0) (by decide)).trans ?_
      simp [tpmWrite, ringWrite, ringBaseWrite_running hrun, hal]
    · intro hrun
      refine (htpm (o := 4) (by decide)).trans ?_
      simp [tpmWrite, ringWrite, ringBaseWrite_running hrun]
    · intro hstop hal
      refine (htpm (o := 0x20) (by decide)).trans ?_
      simp [tpmWrite, ringWrite, ringBaseWrite_stopped hstop (.inr hal), hal]
    · intro hstop
      refine (htpm (o := 0x24) (by decide)).trans ?_
      simp [tpmWrite, ringWrite, ringBaseWrite_stopped hstop (.inl rfl)]
    · intro hrun hal
      refine (htpm (o := 0x20) (by decide)).trans ?_
      simp [tpmWrite, ringWrite, ringBaseWrite_running hrun, hal]
    · intro hrun
      refine (htpm (o := 0x24) (by decide)).trans ?_
      simp [tpmWrite, ringWrite, ringBaseWrite_running hrun]
  case cvu =>
    intro off n o v s hreach hn ho hal hhas hoff
    subst hoff
    have hdiv : (0x100 * n + o) / 0x100 = n := by omega
    have hmod : (0x100 * n + o) % 0x100 = o := by omega
    have hunit : 0x100 * n + o < 0x800 := by omega
    have hreg : cvuHas o = true := by simpa [cvuHas, hal] using hhas
    rw [Nat.add_assoc, wordWrite_cvu hreach (by omega), cvuRegWrite, if_pos hunit, hdiv, hmod, cvuWrite_queue hreg]
  case cvuRegs =>
    intro v u
    refine ⟨rfl, rfl, rfl, rfl, rfl, rfl, ?_⟩
    intro k hk
    match k, hk with
    | 0, _ => simp [cvuEffect]
    | 1, _ => simp [cvuEffect]
    | 2, _ => simp [cvuEffect]
    | 3, _ => simp [cvuEffect]
  case msix =>
    intro off n k v e s t hreach hn hk hoff he ht
    subst hoff
    have hwrite : irqWrite (0x1000 + (16 * n + 4 * k)) v s = msixWrite (16 * n + 4 * k) v s := by
      simp only [irqWrite]
      grind
    have hsplit : 0x21000 + 16 * n + 4 * k = 0x20000 + (0x1000 + (16 * n + 4 * k)) := by omega
    rw [hsplit, wordWrite_irq hreach (by omega), hwrite, msixWrite_word hk he ht]
  case reserved =>
    intro s
    refine ⟨fun hbar off => ?_, fun hbar hreach off hoff => ?_, fun hbar off hoff hres => ?_, fun hreach off hoff hslots => ?_⟩
    · simp [registerRead, hbar]
    · simp [registerRead, hbar, hreach, Nat.not_lt.mpr hoff]
    · rw [registerRead_glb hbar hoff, glbRead_reserved hres]
    · simp only [registerRead, (reachable_parts hreach).1, hreach, hslots]
      grind
  case slots =>
    intro hi k s hreach hk
    have hmbx {o : Nat} (ho : o < 0x10000) : registerRead (0x10000 + o) s = some (mbxRead o s) :=
      registerRead_mbx hreach ho
    have hbit (c : SlotCond) : (some (slotMask hi c s)).map (fun w => bit w k) =
        some (decide ((slotOf s (32 * b2n hi + k)).cond = c)) := congrArg some (bit_slotMask hk)
    cases hi
    · exact ⟨(congrArg _ (hmbx (o := 8) (by decide))).trans (hbit .pending),
        (congrArg _ (hmbx (o := 0x10) (by decide))).trans (hbit .busy),
        (congrArg _ (hmbx (o := 0x18) (by decide))).trans (hbit .done)⟩
    · exact ⟨(congrArg _ (hmbx (o := 0xC) (by decide))).trans (hbit .pending),
        (congrArg _ (hmbx (o := 0x14) (by decide))).trans (hbit .busy),
        (congrArg _ (hmbx (o := 0x1C) (by decide))).trans (hbit .done)⟩
  case glb =>
    intro s hbar
    have hglb {o : Nat} (ho : o < 0x10000) : registerRead o s = some (glbRead o s) := registerRead_glb hbar ho
    refine ⟨?_, hglb (by decide), hglb (by decide), hglb (by decide), hglb (by decide), hglb (by decide),
      hglb (by decide), hglb (by decide)⟩
    rw [hglb (by decide)]
    simp only [glbRead, glbStateWord, atBit, Nat.mul_comm (2 ^ _)]
  case cvuReads =>
    intro n u s hreach hn hu
    constructor
    · rw [Nat.add_assoc, registerRead_cvu hreach (by omega), (cvuRead_unit hn (by decide) hu).1 rfl]
    · rw [Nat.add_assoc, registerRead_cvu hreach (by omega), (cvuRead_unit hn (by decide) hu).2 rfl]
  case status =>
    intro s hreach
    exact registerRead_tmu (off := 0x10) hreach (by decide)
  case readWide =>
    intro off s lo hi hgood hlo hhi
    simp [bar0Read, hgood, hlo, hhi]
  case readBad =>
    intro off width s hbad
    simp [bar0Read, hbad]
  case badRead =>
    intro off width s hreach hbad
    refine congrArg Host.Outcome.next ?_
    simp [bar0Bad, (reachable_parts hreach).1, hbad, badAccess]
  case badWrite =>
    intro off width s hreach hbad
    refine congrArg Host.Outcome.next ?_
    simp [bar0Bad, (reachable_parts hreach).1, hbad, badAccess]

end Sys2Proof.Machine
end

section
/-! PROOFS. Accesses to BAR2 windows (R26, R59 to R64, R251, R380). -/

namespace Sys2Proof.Machine

variable {s t : State}

theorem pageOf_inject (fl : List Flaw) (s : State) (p : Nat) : pageOf (inject fl s) p = pageOf s p := by
  simp [pageOf, inject_bar2]

/-- A read of BAR2 within 4 KiB reads its window where Yarler serves. -/
theorem bar2Read_reads {a : BitVec 34} {n : Nat} {fl : List Flaw} (hn : n ≠ 0) (hin : a.toNat % 4096 + n ≤ 4096)
    (hreach : reachable s = true) (ht : t = inject fl s) :
    exec (.bar2Read a n fl) s = .next (winRead (a.toNat / 2 ^ 24) (a.toNat % 2 ^ 24) n t) := by
  obtain ⟨hbar, hserve, -⟩ := reachable_parts hreach
  subst ht
  show execBar2Read a n fl s = _
  simp [execBar2Read, Nat.not_lt.mpr hin, hn, hbar, hserve]

/-- A write of BAR2 within 4 KiB writes its window, by the mapping that it meets (R62). -/
theorem bar2Write_writes {a : BitVec 34} {bs : List Byte} {fl : List Flaw} (hn : bs ≠ [])
    (hin : a.toNat % 4096 + bs.length ≤ 4096) (hreach : reachable s = true) (ht : t = inject fl s) :
    exec (.bar2Write a bs fl) s = .next (winWrite
      { page := a.toNat / 2 ^ 24, map := pageOf t (a.toNat / 2 ^ 24), off := a.toNat % 2 ^ 24, bytes := bs } t) := by
  subst ht
  show execBar2Write a bs fl s = _
  simp [execBar2Write, Nat.not_lt.mpr hin, hn, hreach, pageOf_inject]

/-! What a window gives a read, and does with a write. -/

section
variable {page off n c pa : Nat} {p : Place0} {k : Nat × Nat} {w : HeldBar2}

theorem winRead_good (hhit : winHit page off n false t = .at p pa k) (hgood : hitUe p n t = false) :
    winRead page off n t = emit (.bar2Data (hitBytes p n t)) (hitTouch p n t) := by
  simp [winRead, hhit, hgood]

theorem winRead_bad (hhit : winHit page off n false t = .at p pa k) (hbad : hitUe p n t = true) :
    winRead page off n t = emit (.bar2Data (allOnes n)) (winMiss page off false 4 (hitTouch p n t)) := by
  simp [winRead, hhit, hbad]

theorem winRead_miss (hhit : winHit page off n false t = .no c) :
    winRead page off n t = emit (.bar2Data (allOnes n)) (winMiss page off false c t) := by
  simp [winRead, hhit]

theorem winWrite_miss (hhit : mapHit w.map w.off w.bytes.length true t = .no c) :
    winWrite w t = winMiss w.page w.off true c t := by
  simp [winWrite, hhit]

theorem winWrite_halted (hhit : mapHit w.map w.off w.bytes.length true t = .at p pa k) (hst : t.glb.state = .halted) :
    winWrite w t = useFresh 1 (winMiss w.page w.off true (Config.freeNat t.fresh % 5) t) := by
  simp [winWrite, hhit, hst]

theorem winWrite_at (hhit : mapHit w.map w.off w.bytes.length true t = .at p pa k) (hst : t.glb.state ≠ .halted)
    (hdrain : draining k.1 k.2 t = false) (hwait : hitWaits p t = false) (hnew : w.wait = none) :
    winWrite w t = hitWrite p w.bytes (trackWrite pa w.bytes.length t) := by
  simp [winWrite, hhit, hst, hdrain, hwait, hnew]

theorem winWrite_held (hhit : mapHit w.map w.off w.bytes.length true t = .at p pa k) (hst : t.glb.state ≠ .halted)
    (hheld : draining k.1 k.2 t = true ∨ hitWaits p t = true) (hnew : w.wait = none) (hno : w.no = 0) :
    winWrite w t = { t with
      bar2.held := t.bar2.held ++ [{ w with wait := (waitPage p t).map (fun k => (k, t.clk)), no := t.bar2.writes + 1 }]
      bar2.writes := t.bar2.writes + 1 } := by
  simp [winWrite, hhit, hst, hheld, hnew, hno]

end

/-- Settles O18, access by access. -/
theorem windowAccesses : Obligations.WindowAccesses := by
  unfold Obligations.WindowAccesses
  refine ⟨?read, ?readBad, ?readMiss, ?readBoot, ?write, ?writeHeld, ?writeMiss, ?writeHalted, ?writeBoot, ?unmapped,
    ?causes, ?crosses⟩
  case read =>
    intro a n fl s t p pa k hn hin hreach ht hhit hgood
    rw [bar2Read_reads hn hin hreach ht]
    exact congrArg _ (winRead_good hhit hgood)
  case readBad =>
    intro a n fl s t p pa k hn hin hreach ht hhit hbad
    rw [bar2Read_reads hn hin hreach ht]
    exact congrArg _ (winRead_bad hhit hbad)
  case readMiss =>
    intro a n fl s t c hn hin hreach ht hhit
    rw [bar2Read_reads hn hin hreach ht]
    exact congrArg _ (winRead_miss hhit)
  case readBoot =>
    intro a n fl s hn hin hbar hserve
    exact execBar2Read_allOnes hbar hserve (Nat.pos_of_ne_zero hn) hin
  case write =>
    intro a bs fl s t p pa k hn hin hreach ht hst hhit hdrain hwait
    rw [bar2Write_writes hn hin hreach ht]
    exact congrArg _ (winWrite_at hhit hst hdrain hwait rfl)
  case writeHeld =>
    intro a bs fl s t p pa k hn hin hreach ht hst hhit hheld
    rw [bar2Write_writes hn hin hreach ht]
    exact congrArg _ (winWrite_held hhit hst hheld rfl rfl)
  case writeMiss =>
    intro a bs fl s t c hn hin hreach ht hhit
    rw [bar2Write_writes hn hin hreach ht]
    exact congrArg _ (winWrite_miss hhit)
  case writeHalted =>
    intro a bs fl s t p pa k hn hin hreach ht hst hhit
    rw [bar2Write_writes hn hin hreach ht]
    exact congrArg _ (winWrite_halted hhit hst)
  case writeBoot =>
    intro a bs fl s hin hreach
    show execBar2Write a bs fl s = _
    simp [execBar2Write, Nat.not_lt.mpr hin, hreach]
  case unmapped =>
    intro page off n write s hcond
    simp [winHit, mapHit, hcond]
  case causes =>
    intro page off n write s w e hw hmapped hentry
    subst hw
    refine ⟨fun hend => ?_, fun hend hright => ?_, fun hend hright hlost hremote => ?_⟩
    · simp [winHit, mapHit, hmapped, hentry, hend]
    · simp [winHit, mapHit, hmapped, hentry, Nat.not_lt.mpr hend, hright]
    · simp only [winHit, mapHit, hmapped, hentry, Nat.not_lt.mpr hend, hright, hlost, hremote]
      rfl
  case crosses =>
    intro a n bs fl s hcross hn
    subst hn
    exact ⟨if_pos hcross, if_pos hcross⟩

end Sys2Proof.Machine
end

section
/-! PROOFS. The four kinds of reset (R21, R454, R456). -/

namespace Sys2Proof.Machine

/-- The monitor takes up a stored record and keeps the slots (R348). -/
theorem startMon_slots (m : Mon) : (startMon m).slots = m.slots := by
  unfold startMon
  dsimp only
  split
  · rfl
  · split <;> rfl

/-- The monitor after a module reset keeps the slots (R454). -/
theorem moduleReset_slots {kind : ResetKind} {held : Bool} {s u : State} (hu : u = releaseForces (weltDark 3 s)) :
    (moduleReset kind held s).mon.slots = u.mon.slots := by
  subst hu
  exact startMon_slots _

end Sys2Proof.Machine

namespace Sys2Proof
open Machine

/-- Settles O19, reset by reset. -/
theorem resets : Obligations.Resets := by
  unfold Obligations.Resets
  refine ⟨?module, ?keeps, ?release, ?powerOn, ?power, ?functionLevel, ?link, ?hostLink, ?due⟩
  case module =>
    intro s hon
    exact powered_next hon
  case keeps =>
    intro kind held s u t hu ht
    have hslots := moduleReset_slots (kind := kind) (held := held) hu
    subst hu ht
    exact ⟨rfl, rfl, rfl, rfl, rfl, rfl, rfl, rfl, rfl, rfl, rfl, rfl, rfl, rfl, rfl, rfl, rfl, rfl, rfl, hslots,
      rfl, rfl, rfl, rfl, rfl, rfl⟩
  case release =>
    intro s hon hheld
    refine (powered_next hon).trans ?_
    simp [modResetRelease, hheld]
  case powerOn =>
    intro s hoff
    exact congrArg Host.Outcome.next (if_neg (by simp [hoff]))
  case power =>
    intro s
    exact ⟨_, rfl, rfl, rfl, rfl, rfl, rfl, rfl, rfl, rfl, rfl, rfl, rfl, startMon_slots s.mon, rfl, rfl⟩
  case functionLevel =>
    intro s halive
    exact live_alive halive
  case link =>
    intro s
    rfl
  case hostLink =>
    intro s t halive ht
    subst ht
    show execHostLinkReset s = _
    exact live_alive halive
  case due =>
    intro s kind n rest t halive hdue hover ht
    subst ht
    refine (live_alive halive).trans ?_
    simp [resetDelayExpiry, hdue, hover]

end Sys2Proof
end

section
/-! PROOFS. The boot ROM, migration and the end of start-up (R432 to R437, R455). -/

namespace Sys2Proof.Machine

variable {s t : State}

theorem bootCopy_glb (s : State) : (bootCopy s).glb = s.glb := by
  unfold bootCopy
  split <;> rfl

/-- The boot ROM with a good key starts the image that the copy leaves, where it is good (R432 to R434). -/
theorem bootRomStart_good (hdown : s.glb.yarlerUp = false) (hst : s.glb.state = .boot ∨ s.glb.state = .halted)
    (hkey : (!romKeyOk || s.fw.boot = .dead : Bool) = false) (ht : t = bootCopy s) (hgood : areaGood t = true) :
    bootRomStart s = (fun u => if u.glb.state = .boot then { u with fabric.ptr0 := u.tmu.ns.toNat % 256 } else showVersion u)
      { t with
        glb := { t.glb with yarlerUp := true, heartbeat := 0 }
        fw := { t.fw with migrateDue := olderRecords t, trialStart := if t.fw.boot = .trial ∧ t.glb.state = .boot then some t.clk else none } } := by
  have hglb : t.glb.state = s.glb.state := by rw [ht, bootCopy_glb]
  have hrun : (s.glb.yarlerUp || !(s.glb.state = .boot || s.glb.state = .halted) : Bool) = false := by
    rw [hdown]
    obtain h | h := hst <;> rw [h] <;> rfl
  simp only [bootRomStart, hrun, hkey, ← ht, hgood]
  obtain h | h := hst <;> rw [h] at hglb <;> simp [hglb]

theorem bootRomStart_bad (hdown : s.glb.yarlerUp = false) (hst : s.glb.state = .boot ∨ s.glb.state = .halted)
    (hkey : (!romKeyOk || s.fw.boot = .dead : Bool) = false) (ht : t = bootCopy s) (hbad : areaGood t = false) :
    bootRomStart s = enterDead { t with fw := { t.fw with boot := .dead } } := by
  have hrun : (s.glb.yarlerUp || !(s.glb.state = .boot || s.glb.state = .halted) : Bool) = false := by
    rw [hdown]
    obtain h | h := hst <;> rw [h] <;> rfl
  simp only [bootRomStart, hrun, hkey, ← ht, hbad]
  rfl

theorem bootRomStart_dead (hdown : s.glb.yarlerUp = false) (hst : s.glb.state = .boot ∨ s.glb.state = .halted)
    (hkey : (!romKeyOk || s.fw.boot = .dead : Bool) = true) : bootRomStart s = enterDead s := by
  have hrun : (s.glb.yarlerUp || !(s.glb.state = .boot || s.glb.state = .halted) : Bool) = false := by
    rw [hdown]
    obtain h | h := hst <;> rw [h] <;> rfl
  simp only [bootRomStart, hrun, hkey]
  rfl

end Sys2Proof.Machine

namespace Sys2Proof
open Machine

/-- Settles O20, step by step of a start. -/
theorem startUp : Obligations.StartUp := by
  unfold Obligations.StartUp
  refine ⟨?rom, ?copy, ?trial, ?toMigrate, ?migrated, ?complete, ?heartbeat, ?opsec⟩
  case rom =>
    intro s t halive hdown hst ht
    refine (live_alive halive).trans ?_
    split
    next hkey => exact congrArg _ (bootRomStart_dead hdown hst hkey)
    next hkey =>
      split
      next hgood => exact congrArg _ (bootRomStart_good hdown hst (Bool.eq_false_iff.mpr hkey) ht hgood)
      next hbad => exact congrArg _ (bootRomStart_bad hdown hst (Bool.eq_false_iff.mpr hkey) ht (Bool.eq_false_iff.mpr hbad))
  case copy =>
    intro s hcopy
    exact if_pos hcopy
  case trial =>
    intro s n hon htrial hover hst
    refine (powered_next hon).trans ?_
    simp [trialTimeout, htrial, hover, hst]
  case toMigrate =>
    intro ok s halive hst hup hdue
    refine (live_alive halive).trans ?_
    simp [migration, hst, hup, hdue]
  case migrated =>
    intro ok s halive hst hnot
    refine (live_alive halive).trans ?_
    simp [migration, hst, hnot]
  case complete =>
    intro n s t halive hready ht
    subst ht
    refine (live_alive halive).trans ?_
    simp only [startupComplete, hready, if_true]
  case heartbeat =>
    intro s halive hup
    refine (live_alive halive).trans ?_
    simp [hup]
  case opsec =>
    intro s hon
    show execOpsecTick s = _
    exact powered_next hon

end Sys2Proof
end

section
/-! PROOFS. Power failure, the input, the converter and the hold-up store (R447 to R460). -/

namespace Sys2Proof.Machine

variable {s t : State}

/-- A module that is off, held in reset or in a power failure sends nothing. -/
theorem sends_still {f : State → State} (h : s.power.on = false ∨ s.power.held = true ∨ s.power.failing = true) :
    sends f s = .next s := fed_still h

/-- A check of the charged store that is due sets the alarm by what it measures, and raises it with the event (R458). -/
theorem holdupCheck_due {cap v : Nat} (hcharged : s.power.charged = true)
    (hdue : s.power.checkedAt = none ∨ ∃ n, s.power.checkedAt = some n ∧ ticksS 86400 ≤ since n s) :
    holdupCheck cap v s = if cap < 3200 ∨ v < 5700 then
        raise 0x1007 2 [word cap, word v] { s with power.checkedAt := some s.clk, power.holdupFault := true }
      else { s with power.checkedAt := some s.clk, power.holdupFault := false } := by
  obtain hnone | ⟨n, hsome, hover⟩ := hdue
  · by_cases hcap : cap < 3200 <;> by_cases hv : v < 5700 <;> simp [holdupCheck, hcharged, hnone, hcap, hv]
  · by_cases hcap : cap < 3200 <;> by_cases hv : v < 5700 <;> simp [holdupCheck, hcharged, hsome, hover, hcap, hv]

/-- Settles O21, command by command. -/
theorem powerEvents : Obligations.PowerEvents := by
  unfold Obligations.PowerEvents
  refine ⟨?fail, ?shed, ?present, ?gone, ?rangeSame, ?range, ?converter, ?storeGood, ?storeBad, ?still, ?stillSteps, ?charged⟩
  case fail =>
    intro v s t u hon hfailing ht hu
    subst ht hu
    refine (powered_next hon).trans ?_
    simp only [powerFail, hfailing]
    rfl
  case shed =>
    intro s
    exact ⟨rfl, rfl, rfl, rfl, rfl, rfl, rfl, rfl⟩
  case present =>
    intro s hon hfailing
    refine (powered_next hon).trans ?_
    simp [holdupEnd, hfailing]
  case gone =>
    intro s hon hfailing
    refine (powered_next hon).trans ?_
    simp [holdupEnd, hfailing, powerOff]
  case rangeSame =>
    intro v s t hon ht hsame
    subst ht
    exact (powered_next hon).trans (congrArg _ (if_pos hsame))
  case range =>
    intro v s t hon ht hchanged
    subst ht
    exact (powered_next hon).trans (congrArg _ (if_neg hchanged))
  case converter =>
    intro c s hon hcrossed
    exact (powered_next hon).trans (congrArg _ (if_pos (by simpa using hcrossed)))
  case storeGood =>
    intro cap v s halive hcharged hdue hcap hv
    exact (live_alive halive).trans (congrArg _ ((holdupCheck_due hcharged hdue).trans (if_neg (by omega))))
  case storeBad =>
    intro cap v s halive hcharged hdue hbad
    exact (live_alive halive).trans (congrArg _ ((holdupCheck_due hcharged hdue).trans (if_pos hbad)))
  case still =>
    intro f s h
    exact ⟨fed_still h, sends_still h⟩
  case stillSteps =>
    intro s hfailing
    have still {f : State → State} : fed f s = .next s := fed_still (.inr (.inr hfailing))
    have silent {f : State → State} : sends f s = .next s := sends_still (.inr (.inr hfailing))
    exact ⟨still, still, silent, still, still, still, still, still, still, still⟩
  case charged =>
    intro v s hon hfailing
    refine (powered_next hon).trans ?_
    simp [holdupCharged, hfailing]

end Sys2Proof.Machine
end

section
/-! PROOFS. The trips, the Fatal events and the clocks that they wait for (R55, R334, R402, R453). -/

namespace Sys2Proof.Machine

variable {s t : State}

/-- A list of sensors that stand over a limit has an entry for each that does. -/
theorem tget_filter_map {α : Type} (l : List Nat) (p : Nat → Bool) (f : Nat → Option α) (i : Nat) :
    tget none ((l.filter p).map (fun i => (i, f i))) i = if i ∈ l ∧ p i = true then f i else none := by
  induction l with
  | nil => simp
  | cons x l ih =>
    by_cases hp : p x = true
    · by_cases hx : x = i
      · subst hx
        simp [hp, tget]
      · simp [hp, tget, hx, ih, Ne.symm hx]
    · have hne : p i = true → ¬ i = x := fun h he => hp (he ▸ h)
      grind

/-- The clocks of the trips after a sample (R453). -/
theorem powerSample_clocks {r : PowerReading} {e : Nat}
    (he : e = if (1050 < r.pdieW ∨ 37500 < r.iinMa ∨ qi 100 < dieTemp s) ∧ 1400 < s.power.eclk
      then s.power.eclk - 25 else s.power.eclk) :
    ∃ p : Power, Loud { s with power := p } (powerSample r s) ∧
      p.pdieOver = (if e = 1400 ∧ 1100 < r.pdieW then some (s.power.pdieOver.getD s.clk) else none) ∧
      p.iinOver = (if e = 1400 ∧ 40000 < r.iinMa then some (s.power.iinOver.getD s.clk) else none) ∧
      p.dieOver = hotSensors s := by
  unfold powerSample
  dsimp only
  rw [sample_lowers]
  simp only [decide_eq_true_eq]
  rw [← he]
  refine ⟨_, .trans (.ite (loud_raiseLimited _ _ _ _ _ _ _) (.refl _)) (loud_limitedEvent _ _ _), ?_, ?_, rfl⟩
  all_goals
    rw [heldSince]
    refine ite_congr (propext ?_) (fun _ => Option.or_some) (fun _ => rfl)
    rw [Bool.and_eq_true, decide_eq_true_iff, decide_eq_true_iff, eclkMin]

/-- A Fatal event halts a module that is neither Dead nor Halted (R55). -/
theorem fatal_halts {code : BitVec 16} {items : List Word} {u : State} (ht : t = raise code 4 items s)
    (hdead : t.glb.state ≠ .dead) (hhalted : t.glb.state ≠ .halted)
    (hu : u = moveAbort 5 0 (showVersion { discardStarts (forAll jobNos haltJob (enter .halted code t)) with
      fw.trialStart := none })) :
    fatal code items s = if killsWelt code t.glb.state then weltDark 2 { u with glb.weltKilled := true } else u := by
  rw [fatal, halt, ← ht]
  dsimp only
  rw [if_neg hdead, if_neg hhalted, ← hu]

/-- The clock of a plane over its limit (R334). -/
theorem hotTick_hotSince {p : Nat} {x : Plane} {hot : Bool} (hx : x = planeOf s p)
    (hhot : hot = match x.limits with
      | some l => decide (qAdd l.tLim (qi 10) ≤ x.tp)
      | none => false) :
    (planeOf (hotTick p s) p).hotSince = if hot then some (x.hotSince.getD s.clk) else none := by
  subst hhot hx
  rw [← Option.or_some, hotTick, planeOf_setPlane_same] <;> rfl

/-- A boundary of a plane, by what its law gives (R330 to R334). -/
theorem boundary_of_law {p : Nat} {u v : State} {swap : Bool} {y : State × Bool}
    (hswap : takeSwap p (applyLimits p (firstLoad p (rateChange p s))) = (u, swap))
    (hv : v = setPlane p { planeOf (unusedCells p (latchReadings p u)) p with
        tp := planeTemp p (unusedCells p (latchReadings p u)), heater := planeHeater p (unusedCells p (latchReadings p u)) }
        (unusedCells p (latchReadings p u)))
    (hlaw : (match (planeOf v p).active, (planeOf v p).limits with
      | some c, some lim => planeLaw p c lim swap v
      | _, _ => (v, false)) = y) :
    boundary p s = cellsLocked p (lacesAfterSample p (stepSlews (planeItem p)
      (hotTick p (if swap then swapMade p y.2 y.1 else y.1)))) := by
  subst hlaw hv
  simp only [boundary, hswap] <;> rfl

/-- Settles O23, trip by trip. -/
theorem trips : Obligations.Trips := by
  unfold Obligations.Trips
  refine ⟨?power, ?powerStill, ?die, ?dieStill, ?shank, ?shankStill, ?event, ?fatalEvent, ?halts, ?kills, ?clocks, ?boundary⟩
  case power =>
    intro s p i halive hp hi hover
    subst hp hi
    exact (live_alive halive).trans (congrArg _ (if_pos (by simpa using hover)))
  case powerStill =>
    intro s halive hp hi
    exact (live_alive halive).trans (congrArg _ (if_neg (by rw [hp, hi]; decide)))
  case die =>
    intro k s halive hover htold
    exact (live_alive halive).trans (congrArg _ (if_pos (by rw [hover, htold]; rfl)))
  case dieStill =>
    intro k s halive hstill
    exact (live_alive halive).trans (congrArg _ (if_neg (Bool.eq_false_iff.mp hstill)))
  case shank =>
    intro p s l halive hlim hover htold
    refine (live_alive halive).trans ?_
    simp [shankThermalTrip, hlim, hover, htold]
  case shankStill =>
    intro p s halive hstill
    refine (live_alive halive).trans (congrArg _ ?_)
    cases hlim : (planeOf s p).limits with
    | none => simp [shankThermalTrip, hlim]
    | some l =>
      have hno := hstill.resolve_left (by simp [hlim])
      simp [shankThermalTrip, hlim, hno]
  case event =>
    intro e s hon hsev
    exact (powered_next hon).trans (congrArg _ (if_neg (Nat.ne_of_lt hsev)))
  case fatalEvent =>
    intro e s hon hsev
    refine (powered_next hon).trans ?_
    simp [eventRaise, hsev, fatal]
  case halts =>
    intro code items s t u ht hdead hhalted hkill hu
    refine ⟨?_, by rw [enter_eq .halted code t hhalted]⟩
    rw [fatal_halts ht hdead hhalted rfl, if_neg (Bool.eq_false_iff.mp hkill), hu]
  case kills =>
    intro code items s t u ht hdead hhalted hkill hu
    have hkills : killsWelt code t.glb.state = true := by simpa [killsWelt, or_assoc] using hkill
    rw [fatal_halts ht hdead hhalted hu, if_pos hkills]
  case clocks =>
    intro r s e halive he
    obtain ⟨p, hloud, hpdie, hiin, hdie⟩ := powerSample_clocks (r := r) he
    obtain ⟨hp, -⟩ := hloud.frame_power
    refine ⟨_, live_alive halive, by rw [hp, hpdie], by rw [hp, hiin], fun i hi => ?_⟩
    rw [hp, hdie, hotSensors, tget_filter_map]
    simp [hi]
  case boundary =>
    intro p s x hot hx hhot
    exact ⟨hotTick_hotSince hx hhot, fun u v w swap clamped hswap hv hlaw =>
      boundary_of_law (y := (w, clamped)) hswap hv hlaw⟩

end Sys2Proof.Machine
end

section
/-! PROOFS. The addend, and the commands of the time unit (R351 to R356, R367 to R371). -/

namespace Sys2Proof.Machine

variable {s t : State}

theorem addendOk_iff {v : Word} : addendOk v = true ↔ 0x1FFBE76D ≤ v.toNat ∧ v.toNat ≤ 0x20041893 := by
  simp [addendOk]

theorem addendOk_of_outside {v : Word} (h : v.toNat < 0x1FFBE76D ∨ 0x20041893 < v.toNat) : addendOk v = false := by
  rw [Bool.eq_false_iff, Ne, addendOk_iff]
  omega

/-- An addend outside its range is refused (R355). -/
theorem tmuAddendWrite_refused {v : Word} (h : v.toNat < 0x1FFBE76D ∨ 0x20041893 < v.toNat) :
    tmuAddendWrite v s = raise 0x7005 2 [v] (tmuFlag 6 s) := by
  simp [tmuAddendWrite, addendOk_of_outside h]

/-- What a refused addend leaves of the time unit. -/
theorem tmuAddendWrite_refused_tmu {v : Word} (h : v.toNat < 0x1FFBE76D ∨ 0x20041893 < v.toNat) :
    (tmuAddendWrite v s).tmu = { s.tmu with status := s.tmu.status ||| BitVec.ofNat 8 (2 ^ 6) } := by
  have hloud : Loud (tmuFlag 6 s) (tmuAddendWrite v s) := tmuAddendWrite_refused h ▸ loud_raise _ _ _ _
  unfold Loud at hloud
  rw [hloud]
  exact tmuFlag_tmu 6 s (by decide)

/-- Settles O24: the write in its range, the write outside it, and what that one leaves. -/
theorem addendWrite : Obligations.AddendWrite := by
  unfold Obligations.AddendWrite
  refine ⟨?taken, ?refused, ?leaves⟩
  case taken =>
    intro v s t hreach hlo hhi ht
    subst ht
    refine (onWrite_next hreach).trans (congrArg _ ?_)
    simp [tmuAddendWrite, addendOk_iff.mpr ⟨hlo, hhi⟩, wdogRestart]
  case refused =>
    intro v s hreach hout
    exact (onWrite_next hreach).trans (congrArg _ (tmuAddendWrite_refused hout))
  case leaves =>
    intro v s hout
    cases hreach : reachable s with
    | false => exact ⟨s, onWrite_still hreach, rfl, rfl, rfl, fun h => absurd h Bool.false_ne_true⟩
    | true =>
      have htmu := tmuAddendWrite_refused_tmu (s := s) hout
      refine ⟨_, onWrite_next hreach, by rw [htmu], by rw [htmu], by rw [htmu], fun _ => ?_⟩
      rw [htmu]
      simp [bit]

/-- The capture, when there was one, is no later than both clocks say (R367). -/
theorem ppsLost_due (hen : s.tmu.inEn = true) (htold : s.tmu.lostTold = false)
    (hstart : ticksS 2 ≤ since s.tmu.enabledAt s) (hcap : ∀ n, s.tmu.lastCapture = some n → ticksS 2 ≤ since n s) :
    ppsLost s = raise 0x7006 2 [s.tmu.ppsTs] (tmuFlag 7 { s with tmu.lostTold := true }) := by
  cases hlast : s.tmu.lastCapture with
  | none => simp [ppsLost, hen, htold, hlast, hstart]
  | some n =>
    have hmax : ticksS 2 ≤ since (max n s.tmu.enabledAt) s := by
      have hn := hcap n hlast
      unfold since at *
      omega
    simp [ppsLost, hen, htold, hlast, hmax]

/-- An edge of the right sense, of a pulse long enough and late enough after the last one, is captured (R367). -/
theorem ppsInputEdge_captured {rising : Bool} {pulse : Nat} {v : BitVec 48} (hen : s.tmu.inEn = true)
    (hedge : rising = !s.tmu.inFall) (hpulse : 100 ≤ pulse)
    (hcap : ∀ n, s.tmu.lastCapture = some n → ticksMs 500 ≤ since n s) (hv : v = siteNow s - s.tmu.inDelay.signExtend 48)
    (ht : t = { s with tmu := { s.tmu with
      ppsTs := v.setWidth 32, ppsFrac := s.tmu.frac, ppsEra := (v >>> 32).setWidth 16, lastCapture := some s.clk,
      lostTold := false } }) :
    ppsInputEdge rising pulse s = tmuFlag 3 (if bit s.tmu.status 3 then tmuFlag 5 t else t) := by
  subst hv ht
  have hsense : decide (rising = s.tmu.inFall) = false := by
    rw [hedge]
    cases s.tmu.inFall <;> rfl
  cases hlast : s.tmu.lastCapture with
  | none => simp [ppsInputEdge, hen, hsense, Nat.not_lt.mpr hpulse, hlast]
  | some n => simp [ppsInputEdge, hen, hsense, Nat.not_lt.mpr hpulse, hlast, Nat.not_lt.mpr (hcap n hlast)]

/-- Settles O26, command by command. -/
theorem timeCommands : Obligations.TimeCommands := by
  unfold Obligations.TimeCommands
  refine ⟨?nsRead, ?wdog, ?wdogZero, ?holdover, ?wrap, ?tick, ?second, ?edge, ?lost, ?rise, ?fall, ?expire⟩
  case nsRead =>
    intro s hreach
    exact onRead_next hreach
  case wdog =>
    intro v s hreach hv
    refine (onWrite_next hreach).trans (congrArg _ ?_)
    simp only [tmuWdogWrite, hv, if_false, wdogRestart]
  case wdogZero =>
    intro v s hreach hv
    refine (onWrite_next hreach).trans (congrArg _ ?_)
    simp only [tmuWdogWrite, hv, if_true, wdogRestart]
  case holdover =>
    intro s halive hdone hover hnot
    refine (live_alive halive).trans (congrArg _ ?_)
    simp [holdoverEnter, wdogExpired, hdone, hover, hnot]
  case wrap =>
    intro s halive hwrap
    have hwraps : wrapsNext s = true := by
      rw [wrapsNext, wrapsAt, tickSum]
      exact decide_eq_true hwrap
    show execNsWrap s = _
    rw [execNsWrap, live_alive halive, if_pos hwraps]
  case tick =>
    intro s _
    exact tickCounter_counts s
  case second =>
    intro s halive hreached
    exact (live_alive halive).trans (congrArg _ (if_pos (decide_eq_true hreached)))
  case edge =>
    intro rising pulse s v t halive hen hedge hpulse hcap hv ht
    exact (live_alive halive).trans (congrArg _ (ppsInputEdge_captured hen hedge hpulse hcap hv ht))
  case lost =>
    intro s halive hen htold hstart hcap
    exact (live_alive halive).trans (congrArg _ (ppsLost_due hen htold hstart hcap))
  case rise =>
    intro s halive hen hloaded howed
    refine (live_alive halive).trans (congrArg _ ?_)
    simp [ppsOutRise, hen, hloaded, howed]
  case fall =>
    intro s halive hout hover
    refine (live_alive halive).trans (congrArg _ ?_)
    simp [ppsOutFall, hout, hover]
  case expire =>
    intro k s halive hst hover
    have hexp : entExpired (schedOf s k) s = true := by
      rw [entExpired, Bool.and_eq_true, decide_eq_true_iff]
      exact ⟨by simpa using hst, hover⟩
    exact (live_alive halive).trans (congrArg _ (if_pos hexp))

end Sys2Proof.Machine
end

section
/-! PROOFS. The timing port (R363 to R366, R377). -/

namespace Sys2Proof.Machine

variable {s t : State}

theorem ringHas_eq_true {x : Ring} {p : Tpm} (hsize : x.size ≠ 0) (hup : portUp p = true)
    (hhead : x.head % x.size ≠ x.tail % x.size) : ringHas x p = true := by
  simp [ringHas, hsize, hup, hhead]

theorem ringHas_eq_false {x : Ring} {p : Tpm} (h : x.size = 0 ∨ x.head % x.size = x.tail % x.size) :
    ringHas x p = false := by
  obtain h | h := h <;> simp [ringHas, h]

/-- A size that R364 allows empties the ring and gives it that size. -/
theorem ringSizeOk_of_mem {n : Nat} (h : n ∈ [0, 16, 32, 64, 128, 256, 512, 1024, 2048, 4096]) : ringSizeOk n = true := by
  simpa [ringSizeOk] using h

/-- Settles O27, command by command. -/
theorem timingPort : Obligations.TimingPort := by
  unfold Obligations.TimingPort
  refine ⟨?receive, ?noDesc, ?bad, ?transmit, ?tail, ?sizeTx, ?sizeRx, ?drop, ?link, ?noLink, ?same, ?up⟩
  case receive =>
    intro f dma s d t halive hup hspeed hfcs hlen hpass hsize hhead hdma ht
    subst ht
    refine (live_alive halive).trans (congrArg _ ?_)
    have hhas := ringHas_eq_true hsize hup hhead
    have hread : nth none dma 0 = some d := by simp [nth, hdma]
    simp [tpmReceive, hup, hspeed, hfcs, Nat.not_lt.mpr hlen, hpass, hhas, hread, portRead, ringNext, emit]
  case noDesc =>
    intro f dma s halive hup hspeed hfcs hlen hpass hno
    refine (live_alive halive).trans (congrArg _ ?_)
    simp [tpmReceive, hup, hspeed, hfcs, Nat.not_lt.mpr hlen, hpass, ringHas_eq_false hno]
  case bad =>
    intro f dma s halive hup hspeed hbad
    refine (live_alive halive).trans (congrArg _ ?_)
    have hdrop : (!f.fcsOk || decide (2000 < f.bytes.length)) = true := by simpa using hbad
    simp only [tpmReceive, hup, hdrop]
    simp [hspeed]
  case transmit =>
    intro dma s d bs n t halive hup hspeed hsize hhead hd hbs hn hlo hhi ht
    subst ht
    refine (live_alive halive).trans (congrArg _ ?_)
    have hhas := ringHas_eq_true hsize hup hhead
    have hok : (decide (14 ≤ n) && decide (n ≤ 2000)) = true := by simp [hlo, hhi]
    have hdesc : nth none dma 0 = some d := by simp [nth, hd]
    have hdata : nth none dma 1 = some bs := by simp [nth, hbs]
    simp only [tpmTransmit, hspeed, hhas, hdesc, hdata, portRead, ← hn, hok]
    rfl
  case tail =>
    intro v s hreach
    show execTpmTxTailWrite v s = _
    exact onWrite_next hreach
  case sizeTx =>
    intro v s hreach hok
    refine (onWrite_next hreach).trans (congrArg _ ?_)
    simp [ringSizeWrite, resizeRing, ringSizeOk_of_mem hok]
  case sizeRx =>
    intro v s hreach hok
    refine (onWrite_next hreach).trans (congrArg _ ?_)
    simp [ringSizeWrite, resizeRing, ringSizeOk_of_mem hok]
  case drop =>
    intro s hreach
    exact onRead_next hreach
  case link =>
    intro up s halive hother hok
    show execTimePortLinkChange up s = _
    rw [execTimePortLinkChange, live_alive halive]
    cases up with
    | false => simp [portLink, hother]
    | true =>
      obtain ⟨hspeed, hcage⟩ := hok rfl
      simp [portLink, hother, hspeed, hcage]
  case noLink =>
    intro s halive hoff
    show execTimePortLinkChange true s = _
    rw [execTimePortLinkChange, live_alive halive]
    simp [hoff]
  case same =>
    intro up s halive hsame
    show execTimePortLinkChange up s = _
    rw [execTimePortLinkChange, live_alive halive]
    simp [portLink, hsame]
  case up =>
    intro p
    simp [portUp]

end Sys2Proof.Machine
end

section
/-! PROOFS. The check-value units: the queue, its pace, start, feed and configuration (R414 to R418). -/

namespace Sys2Proof.Machine

variable {s : State} {n : Nat}

/-- A write to a unit's register waits in its queue where there is room, and is lost where there is none (R417). -/
theorem onWrite_cvuWrite {off : Nat} (hoff : cvuHas off = true) (hreach : reachable s = true) (v : Word)
    (hroom : (cvuOf s n).queue.length < 16) :
    onWrite (cvuWrite n off v) s =
      .next (setCvu n { cvuOf s n with queue := (cvuOf s n).queue ++ [{ off := off, value := v }] } s) := by
  rw [onWrite_next hreach, cvuWrite_of_room hoff hroom]

theorem onWrite_cvuWrite_full {off : Nat} (hoff : cvuHas off = true) (hreach : reachable s = true) (v : Word)
    (hfull : 16 ≤ (cvuOf s n).queue.length) :
    onWrite (cvuWrite n off v) s = .next (setCvu n { cvuOf s n with overrun := true } s) := by
  rw [onWrite_next hreach, cvuWrite_of_full hoff hfull]

/-- A write that asks for no check does what its register says, and the result follows (R415, R417). -/
theorem cvuOf_cvuApply {w : CvuWrite} (h : (w.off = 0x10 && bit w.value 1 : Bool) = false) :
    cvuOf (cvuApply n w s) n =
      { cvuEffect w (cvuOf s n) with result := cvuResult (cvuEffect w (cvuOf s n)) } := by
  simp only [cvuApply, h]
  simp [modCvu]

theorem leBytes_one (v : Word) : leBytes v.toNat 1 = [v.setWidth 8] := by
  simp [leBytes]

theorem ofNat_div_byte (v : Word) (k : Nat) : BitVec.ofNat 8 (v.toNat / 2 ^ k) = (v >>> k).setWidth 8 := by
  apply BitVec.eq_of_toNat_eq
  simp [Nat.shiftRight_eq_div_pow]

theorem leBytes_two (v : Word) : leBytes v.toNat 2 = [v.setWidth 8, (v >>> 8).setWidth 8] := by
  rw [← ofNat_div_byte]
  simp [leBytes]

theorem leBytes_four (v : Word) :
    leBytes v.toNat 4 = [v.setWidth 8, (v >>> 8).setWidth 8, (v >>> 16).setWidth 8, (v >>> 24).setWidth 8] := by
  simp only [← ofNat_div_byte]
  simp [leBytes, Nat.div_div_eq_div_mul]

/-- A CTRL write is taken whole or refused whole (R414). -/
theorem cvuCtrl_good {v : Word} {u : Cvu} (hone : 1 ≤ field v 0 6) (hmax : field v 0 6 ≤ 32) (hpfx : field v 10 3 ≤ 4) :
    cvuCtrl v u = { u with
      width := field v 0 6, refin := bit v 8, refout := bit v 9, prefixWords := field v 10 3, irqEn := bit v 13 } := by
  simp [cvuCtrl, Nat.ne_of_gt hone, Nat.not_lt.mpr hmax, Nat.not_lt.mpr hpfx]

theorem cvuCtrl_bad {v : Word} {u : Cvu} (h : field v 0 6 = 0 ∨ 32 < field v 0 6 ∨ 4 < field v 10 3) :
    cvuCtrl v u = { u with cfgErr := true } := by
  simp [cvuCtrl, or_assoc, h]

/-- Settles O29, write by write. -/
theorem checkUnitFeeds : Obligations.CheckUnitFeeds := by
  unfold Obligations.CheckUnitFeeds
  refine ⟨?start, ?startCheck, ?feedB, ?feedH, ?feedW, ?ctrl, ?full, ?cost, ?wait, ?turn, ?started, ?fedB, ?fedH, ?fedW,
    ?ctrlGood, ?ctrlBad⟩
  case start =>
    intro n s hreach hroom
    exact onWrite_cvuWrite (by decide) hreach _ hroom
  case startCheck =>
    intro n s hreach hroom
    exact onWrite_cvuWrite (by decide) hreach _ hroom
  case feedB =>
    intro n v s hreach hroom
    exact onWrite_cvuWrite (by decide) hreach v hroom
  case feedH =>
    intro n v s hreach hroom
    exact onWrite_cvuWrite (by decide) hreach v hroom
  case feedW =>
    intro n v s hreach hroom
    exact onWrite_cvuWrite (by decide) hreach v hroom
  case ctrl =>
    intro n v s hreach hroom
    exact onWrite_cvuWrite (by decide) hreach v hroom
  case full =>
    intro n b v s hreach hfull
    have lost {off : Nat} (hoff : cvuHas off = true) (w : Word) : onWrite (cvuWrite n off w) s =
        .next (setCvu n { cvuOf s n with overrun := true } s) := onWrite_cvuWrite_full hoff hreach w hfull
    exact ⟨lost (by decide) _, lost (by decide) v, lost (by decide) v, lost (by decide) v, lost (by decide) v⟩
  case cost =>
    intro u v
    simp [cvuCost, bit]
  case wait =>
    intro n s w ws hqueue hlong
    simp [cvuTick, hqueue, cvuRun, Nat.not_le.mpr hlong, modCvu]
  case turn =>
    intro n s w ws hqueue hshort
    rw [cvuTick, hqueue, cvuRun]
    exact if_pos hshort
  case started =>
    intro n s u hu
    subst hu
    rw [cvuOf_cvuApply (by decide)]
    rfl
  case fedB =>
    intro n v s u hu
    subst hu
    rw [cvuOf_cvuApply (by rfl), ← leBytes_one]
    rfl
  case fedH =>
    intro n v s u hu
    subst hu
    rw [cvuOf_cvuApply (by rfl), ← leBytes_two]
    rfl
  case fedW =>
    intro n v s u hu
    subst hu
    rw [cvuOf_cvuApply (by rfl), ← leBytes_four]
    rfl
  case ctrlGood =>
    intro n v s u x hu hone hmax hpfx hx
    subst hu hx
    rw [cvuOf_cvuApply (by rfl)]
    show { cvuCtrl v (cvuOf s n) with result := cvuResult (cvuCtrl v (cvuOf s n)) } = _
    rw [cvuCtrl_good hone hmax hpfx]
  case ctrlBad =>
    intro n v s u hu hbad
    subst hu
    rw [cvuOf_cvuApply (by rfl)]
    show { cvuCtrl v (cvuOf s n) with result := cvuResult (cvuCtrl v (cvuOf s n)) } = _
    rw [cvuCtrl_bad hbad]
    rfl

end Sys2Proof.Machine
end

section
/-! PROOFS. The recorder's flash: chunks, erases, scans and the end of a freeze (R396 to R412). -/

namespace Sys2Proof.Machine

variable {s t : State}

/-! What the recorder's own helpers leave of it. -/

/-- The buffer takes its new records and the peak follows (R409, R412). -/
theorem growBuffer_log (l : List Record) (s : State) :
    ∃ b, (growBuffer l s).log = { s.log with buf := l, peak := max s.log.peak (recsLen l), threshBit := b } := by
  unfold growBuffer
  dsimp only
  split
  · exact ⟨true, setCause_log _ _⟩
  · exact ⟨s.log.threshBit, rfl⟩

/-- The check of a freeze leaves all of the recorder but its own bits (R406). -/
theorem checkFreeze_log (s : State) :
    ∃ b c, (checkFreeze s).log = { s.log with freezeDone := b, freezeTold := c } := by
  unfold checkFreeze
  split
  · refine ⟨true, true, ?_⟩
    dsimp only
    split
    · rfl
    · exact setCause_log _ _
  · exact ⟨s.log.freezeDone, s.log.freezeTold, rfl⟩

/-- The write point moves on, and no more (R398, R399). -/
theorem advance_eq (c : Nat) (l : Rec) : ∃ h n o e,
    advance c l = { l with heelNext := h, tailNext := n, toeNext := o, eraseDue := e } := by
  unfold advance
  split
  · exact ⟨c + 1, l.tailNext, l.toeNext, l.eraseDue, rfl⟩
  · split
    · exact ⟨l.heelNext, c + 1, l.toeNext, l.eraseDue, rfl⟩
    · exact ⟨l.heelNext, l.tailNext, _, _, rfl⟩

/-- A chunk outside the tail is no tail chunk. -/
theorem not_tail {c : Nat} (h : c ≤ 895 ∨ 1024 ≤ c) : (heelLast < c && c < 1024 : Bool) = false := by
  rw [Bool.and_eq_false_iff, decide_eq_false_iff_not, decide_eq_false_iff_not, heelLast]
  omega

/-! Chunk writes. -/

/-- The conditions under which nothing is programmed (R398). -/
theorem logChunkWrite_still
    (h : s.log.inFlight.isSome = true ∨ s.log.erasing.isSome = true ∨ s.log.pf = true ∨ s.log.scanDone = false ∨ fill s < 4096) :
    logChunkWrite s = s := by
  refine if_pos ?_
  simpa [or_assoc] using h

/-- A flash that is free, with enough waiting, has the write point's chunk programmed (R398). -/
theorem logChunkWrite_starts {c : Nat} (hflight : s.log.inFlight = none) (herase : s.log.erasing = none)
    (hpf : s.log.pf = false) (hscan : s.log.scanDone = true) (hfill : 4096 ≤ fill s) (htarget : target s.log = some c) :
    logChunkWrite s = startChunk c (pack (roomOf c) s.log.buf) s := by
  simp [logChunkWrite, hflight, herase, hpf, hscan, Nat.not_lt.mpr hfill, htarget]

/-- The write point that waits for an erase makes that erase due (R399). -/
theorem logChunkWrite_erases (hflight : s.log.inFlight = none) (herase : s.log.erasing = none) (hpf : s.log.pf = false)
    (hscan : s.log.scanDone = true) (hfill : 4096 ≤ fill s) (htarget : target s.log = none)
    (hmedia : s.log.mediaFail = false) (htail : s.log.tailActive = false) :
    logChunkWrite s = startErase { s with log := { s.log with
      eraseDue := some (if sectorErased s.log (s.log.toeNext / 16) then nextToe s.log.retired 448 (s.log.toeNext / 16)
        else s.log.toeNext / 16) } } := by
  simp [logChunkWrite, hflight, herase, hpf, hscan, Nat.not_lt.mpr hfill, htarget, hmedia, htail]

theorem startChunk_other {c : Nat} (hc : c ≠ 895) :
    startChunk c (pack (roomOf c) s.log.buf) s =
      { s with log := { s.log with inFlight := some (c, pack 4088 s.log.buf), flightVersion := s.fw.logVersion } } := by
  have hroom : roomOf c = 4088 := if_neg hc
  rw [hroom, startChunk]
  simp [heelLast, hc]

theorem startChunk_last {r : Record} {u : State} (hdone : (r, u) = heelDone (pack 4060 s.log.buf) s) :
    startChunk 895 (pack (roomOf 895) s.log.buf) s =
      { u with log := { u.log with inFlight := some (895, pack 4060 s.log.buf ++ [r]), flightVersion := u.fw.logVersion } } := by
  have hroom : roomOf 895 = 4060 := rfl
  rw [hroom]
  simp only [startChunk, ← hdone]
  rfl

/-! Chunks that are programmed or fail. -/

/-- A chunk that fails is put aside, and its records are put back (R401). -/
theorem chunkFailed_log {c v : Nat} {rs : List Record} (hrow : c < 1024 ∨ s.log.failsInRow < 2)
    (hc : c ≤ 895 ∨ 1024 ≤ c) :
    (chunkFailed c v rs s).log.flash = tset none s.log.flash c (some { recs := [], bad := true, version := v }) ∧
    (chunkFailed c v rs s).log.buf =
      (rs.filter (fun r => !s.log.buf.any (fun q => q.seq = r.seq))).foldl (fun b r => insertRec r b) s.log.buf ∧
    (chunkFailed c v rs s).log.failsInRow = s.log.failsInRow + 1 ∧
    (chunkFailed c v rs s).log.peak = max s.log.peak (recsLen (chunkFailed c v rs s).log.buf) := by
  obtain ⟨h, n, o, e, hadv⟩ := advance_eq c { s.log with
    flash := tset none s.log.flash c (some { recs := [], bad := true, version := v }), failsInRow := s.log.failsInRow + 1 }
  obtain ⟨b, hgrow⟩ := growBuffer_log
    ((rs.filter (fun r => !s.log.buf.any (fun q => q.seq = r.seq))).foldl (fun b r => insertRec r b) s.log.buf)
    { s with log := advance c { s.log with
      flash := tset none s.log.flash c (some { recs := [], bad := true, version := v }), failsInRow := s.log.failsInRow + 1 } }
  have hrow3 : (1024 ≤ c && 3 ≤ s.log.failsInRow + 1 : Bool) = false := by
    rw [Bool.and_eq_false_iff, decide_eq_false_iff_not, decide_eq_false_iff_not]
    omega
  unfold chunkFailed
  dsimp only
  rw [if_neg (Bool.eq_false_iff.mp (not_tail hc)), if_neg (by rw [hgrow, hadv]; exact Bool.eq_false_iff.mp hrow3), hgrow, hadv]
  exact ⟨rfl, rfl, rfl, rfl⟩

/-- A chunk that is programmed holds its records, and the buffer holds them no more (R398). -/
theorem chunkWritten_log {c v : Nat} {rs : List Record} (hc : c ≤ 895 ∨ 1024 ≤ c) :
    (chunkWritten c v rs false s).log.flash =
      tset none s.log.flash c (some { recs := rs.map (writtenRec false false), bad := false, version := v }) ∧
    (chunkWritten c v rs false s).log.buf = s.log.buf.filter (fun r => !rs.any (fun q => q.seq = r.seq)) ∧
    (chunkWritten c v rs false s).log.failsInRow = 0 := by
  obtain ⟨h, n, o, e, hadv⟩ := advance_eq c { s.log with
    flash := tset none s.log.flash c (some { recs := rs.map (writtenRec false false), bad := false, version := v })
    buf := s.log.buf.filter (fun r => !rs.any (fun q => q.seq = r.seq))
    seqFlash := highSeq s.log.seqFlash rs, failsInRow := 0 }
  obtain ⟨b, d, hcheck⟩ := checkFreeze_log { s with log := advance c { s.log with
    flash := tset none s.log.flash c (some { recs := rs.map (writtenRec false false), bad := false, version := v })
    buf := s.log.buf.filter (fun r => !rs.any (fun q => q.seq = r.seq))
    seqFlash := highSeq s.log.seqFlash rs, failsInRow := 0 } }
  unfold chunkWritten
  dsimp only
  rw [not_tail hc, Bool.false_and, if_neg Bool.false_ne_true, hcheck, hadv]
  exact ⟨rfl, rfl, rfl⟩

/-! Erases and the end of a freeze. -/

/-- An erase that fails retires its sector, and more than 16 of them fail the Toe (R400, R407). -/
theorem toeEraseComplete_failed {k : Nat} (herase : s.log.erasing = some k)
    (ht : t = raise 0xA007 2 [word k, 0] { s with log := { s.log with
      erasing := none, halfErased := s.log.halfErased.filter (· ≠ k), retired := s.log.retired ++ [k],
      retiredNow := s.log.retiredNow + 1,
      toeNext := if s.log.toeNext / 16 = k then 16 * nextToe (s.log.retired ++ [k]) 448 k else s.log.toeNext } }) :
    toeEraseComplete false s = startErase (if 16 < t.log.retiredNow then toeFail k 0 t else t) := by
  subst ht
  simp only [toeEraseComplete, herase]
  rfl

/-- Settles O30, operation by operation. -/
theorem recorderFlash : Obligations.RecorderFlash := by
  unfold Obligations.RecorderFlash
  refine ⟨?chunk, ?chunkLast, ?chunkErase, ?chunkStill, ?complete, ?completeNone, ?failed, ?written, ?erased, ?retired,
    ?eraseNone, ?thaws, ?scan, ?scanned, ?loss, ?lossStill, ?peak, ?lost⟩
  case chunk =>
    intro s c hon hflight herase hpf hscan hfill htarget hc
    refine (powered_next hon).trans (congrArg _ ?_)
    rw [logChunkWrite_starts hflight herase hpf hscan hfill htarget, startChunk_other hc]
  case chunkLast =>
    intro s r u hon hflight herase hpf hscan hfill htarget hdone
    refine (powered_next hon).trans (congrArg _ ?_)
    rw [logChunkWrite_starts hflight herase hpf hscan hfill htarget, startChunk_last hdone]
  case chunkErase =>
    intro s hon hflight herase hpf hscan hfill htarget hmedia htail
    exact (powered_next hon).trans (congrArg _ (logChunkWrite_erases hflight herase hpf hscan hfill htarget hmedia htail))
  case chunkStill =>
    intro s hon hstill
    exact (powered_next hon).trans (congrArg _ (logChunkWrite_still hstill))
  case complete =>
    intro ok s c rs t u hon hflight hu ht
    refine (powered_next hon).trans (congrArg _ ?_)
    subst hu ht
    simp only [logChunkComplete, hflight]
  case completeNone =>
    intro ok s hon hflight
    refine (powered_next hon).trans (congrArg _ ?_)
    simp [logChunkComplete, hflight]
  case failed =>
    intro s t c v rs hrow hc ht
    subst ht
    exact chunkFailed_log hrow hc
  case written =>
    intro s t c v rs hc ht
    subst ht
    exact chunkWritten_log hc
  case erased =>
    intro s k hon herase
    refine (powered_next hon).trans (congrArg _ ?_)
    simp [toeEraseComplete, herase]
  case retired =>
    intro s k t hon herase ht
    exact (powered_next hon).trans (congrArg _ (toeEraseComplete_failed herase ht))
  case eraseNone =>
    intro ok s hon herase
    refine (powered_next hon).trans (congrArg _ ?_)
    simp [toeEraseComplete, herase]
  case thaws =>
    intro s q hon hfrozen hover
    refine (powered_next hon).trans (congrArg _ ?_)
    simp only [logFreezeTimeout, hfrozen, hover, thaw]
    rfl
  case scan =>
    intro bad s l t u hon hscan hl ht hu
    subst hl ht hu
    refine (powered_next hon).trans (congrArg _ ?_)
    exact if_neg (Bool.eq_false_iff.mp hscan)
  case scanned =>
    intro bad s hon hscan
    exact (powered_next hon).trans (congrArg _ (if_pos hscan))
  case loss =>
    intro s hon htotal hpf hroom
    refine (powered_next hon).trans (congrArg _ ?_)
    simp [lossRecordWrite, htotal, hpf, Nat.not_lt.mpr hroom, clearCounts]
  case lossStill =>
    intro s hon hstill
    refine (powered_next hon).trans (congrArg _ (if_pos ?_))
    simpa [or_assoc] using hstill
  case peak =>
    intro s hreach
    exact onRead_next hreach
  case lost =>
    intro s hreach
    exact onRead_next hreach

end Sys2Proof.Machine
end

section
/-! PROOFS. The sessions of the service port and the test nonce (R438 to R441, R444, R445). -/

namespace Sys2Proof.Machine

variable {s t : State}

/-- A token of a wrong form, or for another module, is refused first (R440; log 19). -/
theorem tokenRefused_form {token : List Byte}
    (h : token.length ≠ 3341 ∨ leNat (slice 0 4 token) ≠ 0x544B4E31 ∨ leNat (slice 4 8 token) ≠ s.glb.serial.toNat) :
    tokenRefused token s = some 1 := by
  have hform : (token.length = 3341 && leNat (slice 0 4 token) = 0x544B4E31 &&
      leNat (slice 4 8 token) = s.glb.serial.toNat : Bool) = false := by
    rw [Bool.eq_false_iff, Ne, Bool.and_eq_true, Bool.and_eq_true, decide_eq_true_iff, decide_eq_true_iff,
      decide_eq_true_iff]
    rintro ⟨⟨hlen, hmagic⟩, hserial⟩
    obtain h | h | h := h
    · exact h hlen
    · exact h hmagic
    · exact h hserial
  rw [tokenRefused, hform]
  rfl

/-- A token of the right form is refused by its keys and then by its times (R440, R441). -/
theorem tokenRefused_keys {token : List Byte} (hlen : token.length = 3341) (hmagic : leNat (slice 0 4 token) = 0x544B4E31)
    (hserial : leNat (slice 4 8 token) = s.glb.serial.toNat) :
    tokenRefused token s = if (tokenKeys s).isEmpty then some 4
      else if !(tokenKeys s).any (fun k => signedBy k (slice 0 32 token) (slice 32 3309 token)) then some 2
      else if leNat (slice 12 4 token) ≤ s.tmu.sec.toNat ∧ s.tmu.sec.toNat ≤ leNat (slice 16 4 token) ∧
          leNat (slice 16 4 token) ≤ leNat (slice 12 4 token) + 604800 then none else some 3 := by
  simp only [tokenRefused, hlen, hmagic, hserial, decide_true, Bool.and_self, Bool.not_true, Bool.false_eq_true, if_false,
    Bool.not_eq_true', Bool.and_eq_false_iff, decide_eq_false_iff_not]
  grind

/-- A message of an open session, by the right that its command needs (R438, R439, R441). -/
theorem svcMessage_open {words : List Word} {env : Env} {x : Session} {op : Nat} {r : Req} (hx : s.fw.session = some x)
    (hop : op = field (nth 0 words 0) 0 16)
    (ht : t = svcSeen { s with fw := { s.fw with session := some { x with lastMsg := s.clk } } })
    (hr : r = requestOf .service (nth 0 words 0) (nth 0 words 1) (nth 0 words) env) :
    svcMessage words env s = match rightFor op with
      | none => complete { r with env := svcEnv r op (wordsBytes (words.drop (reqLength r))) } false .badOpcode [] [] t
      | some b =>
        if !bit x.rights b then complete { r with env := svcEnv r op (wordsBytes (words.drop (reqLength r))) } false
          .authFail [] [] (raise 0x9011 2 ([5] ++ dwords x.tokenId.toNat ++ [word op]) t)
        else if words.length < reqLength r then
          complete { r with env := svcEnv r op (wordsBytes (words.drop (reqLength r))) } false .badLength [] [] t
        else runTaken ⟨BitVec.ofNat 16 op, { r with env := svcEnv r op (wordsBytes (words.drop (reqLength r))) },
          t.mbx.orders, 0⟩ t := by
  subst hop ht hr
  simp only [svcMessage, hx]
  rfl

theorem execSvcMessage_serving {words : List Word} {env : Env} (hserve : serving s = true) :
    exec (.svcMessage words env) s = .next (svcMessage words env s) := congrArg _ (if_pos hserve)

/-- Settles O31, message by message. -/
theorem servicePort : Obligations.ServicePort := by
  unfold Obligations.ServicePort
  refine ⟨?opens, ?again, ?unserved, ?send, ?form, ?keys, ?runs, ?short, ?noRight, ?badOp, ?still, ?idle, ?notIdle, ?close,
    ?closes, ?nonce⟩
  case opens =>
    intro token peer s hserve hnone
    show execSvcSessionOpen token peer s = _
    rw [execSvcSessionOpen, if_pos hserve, if_pos (by simp [hnone])]
    have hsame : tokenRefused token (svcSeen s) = tokenRefused token s := rfl
    rw [sessionOpen, hsame]
    cases tokenRefused token s <;> rfl
  case again =>
    intro token peer s hserve hsome
    show execSvcSessionOpen token peer s = _
    rw [execSvcSessionOpen, if_pos hserve, if_neg (by simpa [Option.isSome_iff_ne_none] using hsome)]
  case unserved =>
    intro token peer s hserve
    exact congrArg _ (if_neg (Bool.eq_false_iff.mp hserve))
  case send =>
    intro ws data s
    rfl
  case form =>
    intro token s h
    exact tokenRefused_form h
  case keys =>
    intro token s nb na hlen hmagic hserial hnb hna
    subst hnb hna
    rw [tokenRefused_keys hlen hmagic hserial]
    refine ⟨fun hnone => by simp [hnone], fun hsome hbad => ?_, fun hgood => ?_⟩
    · rw [if_neg (by simpa using hsome), if_pos (by simpa using hbad)]
    · have hany : (tokenKeys s).any (fun k => signedBy k (slice 0 32 token) (slice 32 3309 token)) = true := by
        simpa using hgood
      have hsome : ¬ (tokenKeys s).isEmpty = true := by
        obtain ⟨k, hk, -⟩ := hgood
        simpa using List.ne_nil_of_mem hk
      rw [if_neg hsome, if_neg (by rw [hany]; decide)]
  case runs =>
    intro words env s x op b t r hserve hx hop hright hbit hlen ht hr
    rw [execSvcMessage_serving hserve, svcMessage_open hx hop ht hr, hright]
    simp only [hbit, Nat.not_lt.mpr hlen]
    rfl
  case short =>
    intro words env s x op b t r hserve hx hop hright hbit hlen ht hr
    rw [execSvcMessage_serving hserve, svcMessage_open hx hop ht hr, hright]
    simp only [hbit, hlen]
    rfl
  case noRight =>
    intro words env s x op b t r hserve hx hop hright hbit ht hr
    rw [execSvcMessage_serving hserve, svcMessage_open hx hop ht hr, hright]
    simp only [hbit]
    rfl
  case badOp =>
    intro words env s x op t r hserve hx hop hright ht hr
    rw [execSvcMessage_serving hserve, svcMessage_open hx hop ht hr, hright]
  case still =>
    intro words env s h
    obtain h | h := h
    · exact congrArg _ (if_neg (Bool.eq_false_iff.mp h))
    · show execSvcMessage words env s = _
      simp [execSvcMessage, svcMessage, h]
  case idle =>
    intro s x halive hx hover
    refine (live_alive halive).trans (congrArg _ ?_)
    simp [sessionIdle, hx, hover]
  case notIdle =>
    intro s x halive hx hsoon
    refine (live_alive halive).trans (congrArg _ ?_)
    simp [sessionIdle, hx, Nat.not_le.mpr hsoon]
  case close =>
    intro s halive
    exact live_alive halive
  case closes =>
    intro cause s x hx
    simp only [closeSession, hx]
  case nonce =>
    intro s n k halive hnonce
    refine (live_alive halive).trans (congrArg _ ?_)
    by_cases hover : ticksS 60 ≤ since k s
    · simp [nonceExpiry, validNonce, hnonce, hover, Nat.not_lt.mpr hover]
    · simp [nonceExpiry, validNonce, hnonce, hover, Nat.not_le.mp hover]

end Sys2Proof.Machine
end

section
/-! PROOFS. The mirror engine and the heartbeats (R197, R229, R380 to R387). -/

namespace Sys2Proof.Machine

variable {s t : State}

/-- What runs in a fed module, and what sends there, runs there. -/
theorem fed_ready {f : State → State} (h : Fed s) : fed f s = .next (f s) := fed_next h.1.1 h.1.2 h.2

theorem sends_ready {f : State → State} (h : Sends s) : sends f s = .next (f s) :=
  sends_next h.1.1.1 h.1.1.2 h.1.2 h.2

theorem alive_of_serving (h : serving s = true) : Alive s :=
  ⟨(serving_parts h).1, (serving_parts h).2.1⟩

/-! The copy. -/

/-- A page is read for a copy when nothing of it is staged to be sent first (R380 to R382). -/
theorem mirrorPageRead_next {c : Copy} (hcopy : t.resil.copy = some c) (hfree : c.started = false ∨ c.staged = []) :
    mirrorPageRead t = match nextPage c t with
      | none => t
      | some k =>
        if 2 ^ 24 < stagedBytes t + 65536 || mirrorLines (frontOf (k / 2 ^ 22) t) t < 1024 then t
        else if !(chanOf t (k / 2 ^ 22)).inService then copyFail 1 1 t
        else if piecesUe (pagePieces k) t then
          copyFail 1 0x13 (piecesTouch readerMirror (pagePieces k) (chargePieces atMirror 2 (pagePieces k) t))
        else retryWindows (releasePage k ((fun u => if c.started then
            sendPage k (piecesBytes (pagePieces k) t)
              { u with resil := { u.resil with copy := some { c with todo := c.todo.filter (· ≠ k) } } }
          else { u with resil := { u.resil with
            copy := some { c with todo := c.todo.filter (· ≠ k), staged := c.staged ++ [(k, piecesBytes (pagePieces k) t)] } } })
          (piecesTouch readerMirror (pagePieces k) (chargePieces atMirror 2 (pagePieces k) t)))) := by
  have hnone : (if c.started then c.staged else []) = [] := by
    obtain h | h := hfree <;> simp [h]
  simp only [mirrorPageRead, hcopy, hnone]
  cases nextPage c t <;> rfl

/-- The staged page goes out before another is read. -/
theorem mirrorPageRead_staged {c : Copy} {k : Nat} {bs : List Byte} {l : List (Nat × List Byte)}
    (hcopy : t.resil.copy = some c) (hstart : c.started = true) (hstaged : c.staged = (k, bs) :: l) :
    mirrorPageRead t = sendPage k bs { t with resil := { t.resil with copy := some { c with staged := l } } } := by
  simp only [mirrorPageRead, hcopy, hstart, hstaged]
  rfl

theorem mirrorPageRead_idle
    (h : t.resil.copy = none ∨ ∃ c, t.resil.copy = some c ∧ (c.started = false ∨ c.staged = []) ∧ nextPage c t = none) :
    mirrorPageRead t = t := by
  obtain h | ⟨c, hcopy, hfree, hnext⟩ := h
  · simp only [mirrorPageRead, h]
  · rw [mirrorPageRead_next hcopy hfree, hnext]

theorem execMirrorPageRead_next {fl : List Flaw} (h : Sends s) (ht : t = inject fl s) :
    exec (.mirrorPageRead fl) s = .next (mirrorPageRead t) := by
  subst ht
  show execMirrorPageRead fl s = _
  exact sends_ready h

/-- A page may be read: staging has room, and the Mirror class its lines (R382). -/
theorem pageMayBeRead {k : Nat} (hroom : stagedBytes t + 65536 ≤ 2 ^ 24)
    (hlines : 1024 ≤ mirrorLines (frontOf (k / 2 ^ 22) t) t) :
    (2 ^ 24 < stagedBytes t + 65536 || mirrorLines (frontOf (k / 2 ^ 22) t) t < 1024 : Bool) = false := by
  rw [Bool.or_eq_false_iff, decide_eq_false_iff_not, decide_eq_false_iff_not]
  exact ⟨Nat.not_lt.mpr hroom, Nat.not_lt.mpr hlines⟩

/-- A copy is sealed once nothing of it is left, and once only (R384). -/
theorem mirrorSeal_idle
    (h : s.resil.copy = none ∨ ∃ c, s.resil.copy = some c ∧ (c.started = false ∨ c.sealing = true ∨ c.todo ≠ [] ∨ c.staged ≠ [])) :
    mirrorSeal s = s := by
  obtain h | ⟨c, hcopy, h⟩ := h
  · simp only [mirrorSeal, h]
  · have hstop (b : Bool) : (!c.started || c.sealing || !c.todo.isEmpty || !c.staged.isEmpty || b) = true := by
      obtain h | h | h | h := h <;> simp [h]
    simp only [mirrorSeal, hcopy, hstop, if_true]

/-- A store's halves, by what its header shows (R383 to R385). -/
theorem applySeal_eq {x : Store} {new old : Word} {half : Nat} (hnew : new = hdrGet x 5 s) (hold : old = hdrGet x 6 s)
    (hhalf : half = field (hdrGet x 7 s) 0 1) (ht : t = storeRead x 0 64 s) :
    applySeal x s = if old = noIndex ∧ hdrGet x 10 s ≠ new then applyIndex x half new t else applyOld x t := by
  subst hnew hold hhalf ht
  simp [applySeal]

/-- Settles O32, command by command. -/
theorem mirrorCommands : Obligations.MirrorCommands := by
  unfold Obligations.MirrorCommands
  refine ⟨?drained, ?drainIdle, ?spent, ?start, ?noHalf, ?startIdle, ?noChannel, ?badLine, ?page, ?waits, ?idle, ?staged,
    ?seals, ?sealIdle, ?apply, ?applyIdle, ?halves⟩
  case drained =>
    intro s i hs hdrain
    show execDirtyDrainEnd s = _
    simp only [execDirtyDrainEnd, sends_ready hs, dirtyDrainEnd, hdrain]
  case drainIdle =>
    intro s hs hdrain
    show execDirtyDrainEnd s = _
    simp only [execDirtyDrainEnd, sends_ready hs, dirtyDrainEnd, hdrain]
  case spent =>
    intro s i hfiring
    exact if_pos hfiring
  case start =>
    intro header s c h t u hs hcopy hnot hhead hhalf ht hu
    subst ht hu
    refine (sends_ready hs).trans (congrArg _ ?_)
    simp only [mirrorCopyStart, hcopy, hhead, hnot, hhalf]
    rfl
  case noHalf =>
    intro header s c h hs hcopy hnot hhead hhalf
    refine (sends_ready hs).trans (congrArg _ ?_)
    simp only [mirrorCopyStart, hcopy, hhead, hnot, hhalf]
    rfl
  case startIdle =>
    intro header s hs h
    refine (sends_ready hs).trans (congrArg _ ?_)
    obtain h | ⟨c, hcopy, h⟩ := h
    · simp [mirrorCopyStart, h]
    · cases hhead : c.header with
      | none => simp [mirrorCopyStart, hcopy, hhead]
      | some b =>
        have hstarted := h.resolve_right (by simp [hhead])
        simp [mirrorCopyStart, hcopy, hhead, hstarted]
  case noChannel =>
    intro fl s t c k hs ht hcopy hfree hnext hroom hlines hout
    rw [execMirrorPageRead_next hs ht, mirrorPageRead_next hcopy hfree, hnext]
    simp only [pageMayBeRead hroom hlines, hout]
    rfl
  case badLine =>
    intro fl s t c k u hs ht hcopy hfree hnext hroom hlines hin hu hbad
    rw [execMirrorPageRead_next hs ht, mirrorPageRead_next hcopy hfree, hnext]
    simp only [pageMayBeRead hroom hlines, hin, hbad, ← hu]
    rfl
  case page =>
    intro fl s t c k u v hs ht hcopy hfree hnext hroom hlines hin hgood hu hv
    rw [execMirrorPageRead_next hs ht, mirrorPageRead_next hcopy hfree, hnext]
    simp only [pageMayBeRead hroom hlines, hin, hgood, ← hu, hv]
    rfl
  case waits =>
    intro fl s t c k hs ht hcopy hfree hnext hwait
    rw [execMirrorPageRead_next hs ht, mirrorPageRead_next hcopy hfree, hnext]
    refine congrArg _ (if_pos ?_)
    rwa [Bool.or_eq_true, decide_eq_true_iff, decide_eq_true_iff]
  case idle =>
    intro fl s t hs ht h
    rw [execMirrorPageRead_next hs ht, mirrorPageRead_idle h]
  case staged =>
    intro fl s t c k bs l hs ht hcopy hstart hstaged
    rw [execMirrorPageRead_next hs ht, mirrorPageRead_staged hcopy hstart hstaged]
  case seals =>
    intro s c halive hcopy hstart hnot htodo hstaged hwait htable
    refine (live_alive halive).trans (congrArg _ ?_)
    simp only [mirrorSeal, hcopy, hstart, hnot, htodo, hstaged, hwait, htable]
    rfl
  case sealIdle =>
    intro s halive h
    exact (live_alive halive).trans (congrArg _ (mirrorSeal_idle h))
  case apply =>
    intro k s x t hfed hx hseal ht
    refine (fed_ready hfed).trans (congrArg _ ?_)
    have hsome : x.sealAt.isNone = false := by simpa [Option.isNone_iff_eq_none] using hseal
    simp only [storeApply, hx, hsome, ← ht]
    cases applySeal x t <;> rfl
  case applyIdle =>
    intro k s hfed h
    refine (fed_ready hfed).trans (congrArg _ ?_)
    obtain h | ⟨x, hx, hnone⟩ := h
    · simp [storeApply, h]
    · simp [storeApply, hx, hnone]
  case halves =>
    intro x s t new old half hnew hold hhalf ht
    rw [applySeal_eq hnew hold hhalf ht]
    exact ⟨fun h h' => if_pos ⟨h, h'⟩, fun h => if_neg (by rintro ⟨hold', hnew'⟩; exact h.elim (· hold') (hnew' ·))⟩

/-! Heartbeats. -/

/-- A heartbeat of a peer that was lost, and is not Halted, brings it back (R387). -/
theorem heartbeatReceive_back {hb : List Word} {m : Nat} (hm : m = field (nth 0 hb 0) 0 16)
    (hwell : field (nth 0 hb 0) 16 4 ≠ 7) (hlost : s.resil.peers.any (fun p => p.id = m && p.lost) = true) :
    heartbeatReceive hb s = raise 0x8011 1 [word m] { s with resil := { s.resil with
      peers := s.resil.peers.map (fun p => if p.id = m then { p with lastAt := s.clk, hb := hb, lost := false } else p) } } := by
  subst hm
  simp only [heartbeatReceive, modPeers, decide_eq_true hwell, hlost, Bool.and_self, Bool.not_true, Bool.and_false, if_true,
    decide_eq_true_iff]

/-- Any other heartbeat marks its sender heard (R386). -/
theorem heartbeatReceive_heard {hb : List Word} {m : Nat} (hm : m = field (nth 0 hb 0) 0 16)
    (h : field (nth 0 hb 0) 16 4 = 7 ∨ s.resil.peers.any (fun p => p.id = m && p.lost) = false) :
    heartbeatReceive hb s = { s with resil := { s.resil with
      peers := s.resil.peers.map (fun p => if p.id = m then
        { p with lastAt := s.clk, hb := hb, lost := p.lost && decide (field (nth 0 hb 0) 16 4 = 7) } else p) } } := by
  subst hm
  have hno : (decide (field (nth 0 hb 0) 16 4 ≠ 7) &&
      s.resil.peers.any (fun p => p.id = field (nth 0 hb 0) 0 16 && p.lost)) = false := by
    obtain h | h := h
    · rw [decide_eq_false (not_not_intro h), Bool.false_and]
    · rw [h, Bool.and_false]
  simp only [heartbeatReceive, hno, modPeers]
  simp

/-- A peer that is not lost yet, silent for the miss limit or Halted, is lost now (R386, R387). -/
theorem peerCheck_lost {i : Nat} {p : Peer} {silent : Bool} (hp : s.resil.peers[i]? = some p) (hnot : p.lost = false)
    (hsilent : silent = decide (ticksUs (s.resil.miss * s.resil.hbUs) ≤ since p.lastAt s))
    (h : silent = true ∨ (p.hb ≠ [] ∧ field (nth 0 p.hb 0) 16 4 = 7))
    (ht : t = raise 0x8010 3 [word p.id, word (if silent then 0 else 1), word (since p.lastAt s / 500000)] { s with
      resil := { s.resil with peers := s.resil.peers.map (fun x => if x.id = p.id then { x with lost := true } else x) } }) :
    peerCheck i s = if t.resil.buddy = some p.id then copyFail 4 0 t else t := by
  have hlost : (p.lost || !(decide (p.hb ≠ []) && decide (field (nth 0 p.hb 0) 16 4 = 7) || silent)) = false := by
    rw [hnot]
    obtain h | ⟨hhb, hst⟩ := h
    · simp [h]
    · rw [decide_eq_true hhb, decide_eq_true hst]
      rfl
  subst ht hsilent
  simp only [peerCheck, hp, hlost, modPeers, decide_eq_true_iff]
  rfl

theorem peerCheck_still {i : Nat} (h : s.resil.peers[i]? = none ∨ ∃ p, s.resil.peers[i]? = some p ∧
      (p.lost = true ∨ (since p.lastAt s < ticksUs (s.resil.miss * s.resil.hbUs) ∧ (p.hb = [] ∨ field (nth 0 p.hb 0) 16 4 ≠ 7)))) :
    peerCheck i s = s := by
  obtain h | ⟨p, hp, h⟩ := h
  · simp only [peerCheck, h]
  · obtain hlost | ⟨hheard, hwell⟩ := h
    · simp [peerCheck, hp, hlost]
    · have hwell' : (decide (p.hb ≠ []) && decide (field (nth 0 p.hb 0) 16 4 = 7)) = false := by
        obtain h | h := hwell
        · rw [h]
          rfl
        · rw [decide_eq_false h, Bool.and_false]
      simp only [peerCheck, hp, hwell', decide_eq_false (Nat.not_le.mpr hheard), Bool.or_self, Bool.not_false, Bool.or_true,
        if_true]

/-- Settles O33, command by command. -/
theorem heartbeatCommands : Obligations.HeartbeatCommands := by
  unfold Obligations.HeartbeatCommands
  refine ⟨?send, ?sendIdle, ?back, ?heard, ?halted, ?unserved, ?lost, ?lostIdle⟩
  case send =>
    intro s t hs hserve hpeers ht
    subst ht
    show execHeartbeatSend s = _
    rw [execHeartbeatSend, sends_ready hs, if_pos hserve, heartbeatSend, if_neg (by simpa using hpeers)]
  case sendIdle =>
    intro s hs h
    show execHeartbeatSend s = _
    rw [execHeartbeatSend, sends_ready hs]
    obtain h | h := h <;> simp [heartbeatSend, h]
  case back =>
    intro hb s m hserve hst hm hwell hlost
    show execHeartbeatReceive hb s = _
    rw [execHeartbeatReceive, live_alive (alive_of_serving hserve), if_neg (by simp [hserve]), if_neg hst,
      heartbeatReceive_back hm hwell hlost]
  case heard =>
    intro hb s m hserve hst hm h
    show execHeartbeatReceive hb s = _
    rw [execHeartbeatReceive, live_alive (alive_of_serving hserve), if_neg (by simp [hserve]), if_neg hst,
      heartbeatReceive_heard hm h]
  case halted =>
    intro hb s m hserve hst hm
    subst hm
    show execHeartbeatReceive hb s = _
    rw [execHeartbeatReceive, live_alive (alive_of_serving hserve)]
    simp [hserve, hst]
  case unserved =>
    intro hb s halive hserve
    show execHeartbeatReceive hb s = _
    rw [execHeartbeatReceive, live_alive halive]
    simp [hserve]
  case lost =>
    intro i s p silent t hserve hp hnot hsilent h ht
    show execPeerCheck i s = _
    rw [execPeerCheck, live_alive (alive_of_serving hserve), if_pos hserve, peerCheck_lost hp hnot hsilent h ht]
  case lostIdle =>
    intro i s hserve h
    show execPeerCheck i s = _
    rw [execPeerCheck, live_alive (alive_of_serving hserve), if_pos hserve, peerCheck_still h]

end Sys2Proof.Machine
end

section
/-! PROOFS. The waiting steps of a Pattern and their ends (R119, R120, R134 to R139). -/

namespace Sys2Proof.Machine

variable {s u : State} {t : Nat}

/-- A tile that has just been written goes on from what was written. -/
theorem goOn_setTile (t : Nat) (x : Tile) (s : State) :
    goOn t (setTile t x s) = setTile t { x with pc := x.pc + 1, hold := .none } (setTile t x s) := by
  simp [goOn, modTile]

/-- A step command with no step of its kind to issue does nothing, unless the tile has run off its Pattern (R114). -/
theorem issue_of_not_due {kind : Nat} {f : BitVec 256 → State → State} (h : toIssue kind t s = none)
    (hu : u = if ranOff t s then roleFault t 0x0B ((tileOf s t).prog.length - 1) s else s) : issue kind t f s = u := by
  simp [issue, h, hu]

theorem metNow_iff {n : Nat} {v : Word} : metNow t n v s = true ↔ (tget 0 (tileOf s t).tallies n - v).toNat < 2 ^ 31 :=
  decide_eq_true_iff

theorem metNow_of_not_lt {n : Nat} {v : Word} (h : 2 ^ 31 ≤ (tget 0 (tileOf s t).tallies n - v).toNat) :
    metNow t n v s = false := decide_eq_false (Nat.not_lt.mpr h)

theorem ahead_of_le {v : Word} (h : 2 ^ 31 ≤ (s.tmu.ns - v).toNat) : ahead v s = true := decide_eq_true h

theorem ahead_of_lt {v : Word} (h : (s.tmu.ns - v).toNat < 2 ^ 31) : ahead v s = false :=
  decide_eq_false (Nat.not_le.mpr h)

/-- A line lies in tile SRAM when its number is below the number of lines (R139). -/
theorem inSram_line {line : Nat} : inSram (64 * line : Nat) 64 = true ↔ line < 98304 := by
  rw [inSram, Bool.and_eq_true, decide_eq_true_iff, decide_eq_true_iff, sramSize]
  omega

/-- A wait that is met goes on, less its target where it consumes it (R119, R134). -/
theorem passWait_eq {n : Nat} {v : Word} {c : Bool} (hu : u = if c then
      setTile t { tileOf s t with tallies := tset 0 (tileOf s t).tallies n (tget 0 (tileOf s t).tallies n - v) } s else s) :
    passWait t n v c s = setTile t { tileOf u t with pc := (tileOf u t).pc + 1, hold := .none } u := by
  subst hu
  rfl

/-- A fence that is met copies and clears the flags as its bits say, and goes on (R139). -/
theorem fenceAct_eq {bits line : Nat} {v : State}
    (hu : u = if bits / 8 % 2 = 1 then sramWrite t (64 * line) (leBytes (tileFlags (tileOf s t)) 64) s else s)
    (hv : v = if bits / 16 % 2 = 1 then setTile t { tileOf u t with nan := false, ovf := false, ternInv := false } u else u) :
    fenceAct t bits line s = setTile t { tileOf v t with pc := (tileOf v t).pc + 1, hold := .none } v := by
  subst hu hv
  rfl

/-- The target of a TIMEWAIT is the tile's last one from then on, and where Sitetime stands decides (R135 to R137). -/
theorem timewaitIssue_eq {st : BitVec 256} {target : Word} {x : Tile}
    (htarget : target = timeBase (tileOf s t) (jobOf s ((tileOf s t).job.getD 0)).startNs (sf st 2 0 2) + stepWord st 3)
    (hx : x = { tileOf s t with prevTarget := target }) :
    timewaitIssue t st s = if ahead target s then setTile t { x with hold := .time target } (setTile t x s)
      else if (s.tmu.ns - target).toNat ≤ (stepWord st 4).toNat then goOn t (setTile t x s)
      else if sb st 2 2 then roleFault t 9 x.pc (setTile t x s)
      else goOn t (tellOnce t 3 (raise 0x3014 2 [word ((tileOf s t).job.getD 0), word t, word x.pc,
        word (s.tmu.ns - target).toNat]) (setTile t x s)) := by
  have hahead : ahead target (setTile t x s) = ahead target s := rfl
  subst hx
  simp only [timewaitIssue, ← htarget, modTile, stepFault, tileOf_setTile_same, hahead]

/-- A fence of a line in tile SRAM is met or holds; any other line faults the job (R139, R141). -/
theorem fenceIssue_in {st : BitVec 256} (h : sb st 2 3 = false ∨ sf st 3 0 17 < 98304) :
    fenceIssue t st s = if fenceMet t (sf st 2 0 5) s then fenceAct t (sf st 2 0 5) (sf st 3 0 17) s
      else setTile t { tileOf s t with hold := .fence (sf st 2 0 5) (sf st 3 0 17) } s := by
  have hin : (sb st 2 3 && !inSram (64 * sf st 3 0 17 : Nat) 64) = false := by
    obtain h | h := h
    · rw [h, Bool.false_and]
    · rw [inSram_line.mpr h, Bool.not_true, Bool.and_false]
  simp only [fenceIssue, hin]
  rfl

theorem fenceIssue_out {st : BitVec 256} (hcopy : sb st 2 3 = true) (h : 98304 ≤ sf st 3 0 17) :
    fenceIssue t st s = roleFault t 6 (tileOf s t).pc s := by
  have hout : inSram (64 * sf st 3 0 17 : Nat) 64 = false := by
    rw [Bool.eq_false_iff, Ne, inSram_line]
    exact Nat.not_lt.mpr h
  simp only [fenceIssue, hcopy, hout]
  rfl

/-- The four ends of a hold that the tile is not in. -/
theorem ends_of_no_hold (h : (tileOf s t).hold = .none) :
    waitMet t s = s ∧ waitTimeout t s = s ∧ timewaitRelease t s = s ∧ fenceRelease t s = s := by
  simp only [waitMet, waitTimeout, timewaitRelease, fenceRelease, h, and_self]

/-- Settles O34, step by step. -/
theorem sequencerWaits : Obligations.SequencerWaits := by
  unfold Obligations.SequencerWaits
  refine ⟨?consumes, ?passes, ?holds, ?met, ?passed, ?unmet, ?timeout, ?noTimeout, ?ahead, ?within, ?late, ?early, ?reached,
    ?fence, ?acts, ?fenceHolds, ?fenceOut, ?fenceUnmet, ?noStep, ?noHold, ?fenceMet⟩
  case consumes =>
    intro t s st target x hfed hdue htarget hmet hconsume hx
    refine (fed_ready hfed).trans (congrArg _ ?_)
    rw [issue_of_due hdue]
    simp only [waitIssue, ← htarget, metNow_iff.mpr hmet, hconsume, if_true, passWait, modTile, ← hx, goOn_setTile]
  case passes =>
    intro t s st target hfed hdue htarget hmet hkeep
    refine (fed_ready hfed).trans (congrArg _ ?_)
    rw [issue_of_due hdue]
    simp only [waitIssue, ← htarget, metNow_iff.mpr hmet, hkeep]
    rfl
  case holds =>
    intro t s st target hfed hdue htarget hunmet
    refine (fed_ready hfed).trans (congrArg _ ?_)
    rw [issue_of_due hdue]
    simp only [waitIssue, ← htarget, metNow_of_not_lt hunmet]
    rfl
  case met =>
    intro t s n v c us since0 hfed hhold hmet
    refine (fed_ready hfed).trans (congrArg _ ?_)
    simp only [waitMet, hhold, metNow_iff.mpr hmet, if_true]
  case passed =>
    intro t n v c s u hu
    exact passWait_eq hu
  case unmet =>
    intro t s n v c us since0 hfed hhold hunmet
    refine (fed_ready hfed).trans (congrArg _ ?_)
    simp only [waitMet, hhold, metNow_of_not_lt hunmet]
    rfl
  case timeout =>
    intro t s n v c us since0 hfed hhold hus hover hunmet
    refine (fed_ready hfed).trans (congrArg _ ?_)
    simp only [waitTimeout, hhold, decide_eq_true hus, decide_eq_true hover, metNow_of_not_lt hunmet]
    rfl
  case noTimeout =>
    intro t s n v c us since0 hfed hhold h
    refine (fed_ready hfed).trans (congrArg _ ?_)
    have hno : (decide (us ≠ 0) && decide ((1000 * us : Nat) ≤ siteDiff (siteNow s) since0) && !metNow t n v s) = false := by
      obtain h | h | h := h
      · rw [decide_eq_false (not_not_intro h), Bool.false_and, Bool.false_and]
      · rw [decide_eq_false (Int.not_le.mpr h), Bool.and_false, Bool.false_and]
      · rw [metNow_iff.mpr h, Bool.not_true, Bool.and_false]
    simp only [waitTimeout, hhold, hno]
    rfl
  case ahead =>
    intro t s st target x hfed hdue htarget hx hahead
    refine (fed_ready hfed).trans (congrArg _ ?_)
    rw [issue_of_due hdue, timewaitIssue_eq htarget hx, if_pos (ahead_of_le hahead)]
  case within =>
    intro t s st target x hfed hdue htarget hx hreached hlate
    refine (fed_ready hfed).trans (congrArg _ ?_)
    rw [issue_of_due hdue, timewaitIssue_eq htarget hx, ahead_of_lt hreached, if_neg Bool.false_ne_true, if_pos hlate,
      goOn_setTile]
  case late =>
    intro t s st target x late u hfed hdue htarget hx hlate hreached hover hu
    subst hlate hu
    refine (fed_ready hfed).trans (congrArg _ ?_)
    rw [issue_of_due hdue, timewaitIssue_eq htarget hx, ahead_of_lt hreached, if_neg Bool.false_ne_true,
      if_neg (Nat.not_le.mpr hover)]
  case early =>
    intro t s target hfed hhold hahead
    refine (fed_ready hfed).trans (congrArg _ ?_)
    simp only [timewaitRelease, hhold, ahead_of_le hahead, if_true]
  case reached =>
    intro t s target hfed hhold hreached
    refine (fed_ready hfed).trans (congrArg _ ?_)
    simp only [timewaitRelease, hhold, ahead_of_lt hreached]
    rfl
  case fence =>
    intro t s st hfed hdue hin hmet
    refine (fed_ready hfed).trans (congrArg _ ?_)
    rw [issue_of_due hdue, fenceIssue_in hin, if_pos hmet]
  case acts =>
    intro t bits line s u v hu hv
    exact fenceAct_eq hu hv
  case fenceHolds =>
    intro t s st hfed hdue hin hunmet
    refine (fed_ready hfed).trans (congrArg _ ?_)
    rw [issue_of_due hdue, fenceIssue_in hin, if_neg (Bool.eq_false_iff.mp hunmet)]
  case fenceOut =>
    intro t s st hfed hdue hcopy hout
    refine (fed_ready hfed).trans (congrArg _ ?_)
    rw [issue_of_due hdue, fenceIssue_out hcopy hout]
  case fenceUnmet =>
    intro t s bits line hfed hhold hunmet
    refine (fed_ready hfed).trans (congrArg _ ?_)
    simp only [fenceRelease, hhold, hunmet]
    rfl
  case noStep =>
    intro t s u hfed hwait htime hfence hu
    exact ⟨(fed_ready hfed).trans (congrArg _ (issue_of_not_due hwait hu)),
      (fed_ready hfed).trans (congrArg _ (issue_of_not_due htime hu)),
      (fed_ready hfed).trans (congrArg _ (issue_of_not_due hfence hu))⟩
  case noHold =>
    intro t s hfed hhold
    obtain ⟨hmet, htimeout, htime, hfence⟩ := ends_of_no_hold hhold
    exact ⟨(fed_ready hfed).trans (congrArg _ hmet), (fed_ready hfed).trans (congrArg _ htimeout),
      (fed_ready hfed).trans (congrArg _ htime), (fed_ready hfed).trans (congrArg _ hfence)⟩
  case fenceMet =>
    intro t s bits line hfed hhold hmet
    refine (fed_ready hfed).trans (congrArg _ ?_)
    simp only [fenceRelease, hhold, hmet, if_true]

end Sys2Proof.Machine
end

section
/-! PROOFS. LOOP, END, the end of a role and the start of a job (R138, R140, R146, R147). -/

namespace Sys2Proof.Machine

variable {s u : State} {t : Nat}

/-- The wait of an END that is met ends the role, and its exit code counts where the job has none (R140, R147). -/
theorem roleEnd_met {code j : Nat} (hhold : (tileOf s t).hold = .ending code) (hjob : (tileOf s t).job = some j)
    (hmet : fenceMet t 7 s = true)
    (hu : u = setTile t { tileOf s t with run := .ended, hold := .none, exitCode := code } s) :
    roleEnd t s = jobDone j (setJob j { jobOf u j with
      exitCode := if (jobOf u j).exitCode = 0 then code else (jobOf u j).exitCode } u) := by
  subst hu
  unfold roleEnd
  split
  next code' j' hhold' hjob' =>
    cases hhold.symm.trans hhold'
    cases hjob.symm.trans hjob'
    exact if_pos hmet
  next hnot => exact absurd hjob (hnot code j hhold)

theorem roleEnd_still
    (h : (∀ code, (tileOf s t).hold ≠ .ending code) ∨ (tileOf s t).job = none ∨ fenceMet t 7 s = false) : roleEnd t s = s := by
  unfold roleEnd
  split
  next code j hhold hjob =>
    obtain h | h | h := h
    · exact absurd hhold (h code)
    · rw [h] at hjob
      exact absurd hjob (by simp)
    · rw [h]
      rfl
  next => rfl

/-- A job that runs, with no tile running and no stop asked for, is Done (R147). -/
theorem jobDone_ends {j : Nat} (hst : (jobOf s j).status = .running) (htiles : runningTiles j s = [])
    (hstop : (jobOf s j).stopping = none) (hu : u = changeStatus j .done s) :
    jobDone j s = reevaluate 0x3011 (raise 0x3011 1 [word j, (jobOf u j).tag, word (jobOf u j).exitCode] u) := by
  subst hu
  simp [jobDone, hst, htiles, hstop]

theorem jobDone_still {j : Nat}
    (h : (jobOf s j).status ≠ .running ∨ runningTiles j s ≠ [] ∨ (jobOf s j).stopping ≠ none) : jobDone j s = s := by
  refine if_neg ?_
  obtain h | h | h := h <;> simp [h]

/-- Settles O35, step by step. -/
theorem sequencerSteps : Obligations.SequencerSteps := by
  unfold Obligations.SequencerSteps
  refine ⟨?loopEnds, ?loops, ?ending, ?ends, ?done, ?starts, ?notDone, ?roleStill, ?jobStill, ?noStep⟩
  case loopEnds =>
    intro t s st x hfed hdue hcount hx
    refine (fed_ready hfed).trans (congrArg _ ?_)
    rw [issue_of_due hdue]
    simp only [loopIssue, hcount, if_true, modTile, ← hx, goOn_setTile]
  case loops =>
    intro t s st hfed hdue hcount
    refine (fed_ready hfed).trans (congrArg _ ?_)
    rw [issue_of_due hdue]
    exact if_neg hcount
  case ending =>
    intro t s st hfed hdue
    refine (fed_ready hfed).trans (congrArg _ ?_)
    rw [issue_of_due hdue]
    rfl
  case ends =>
    intro t s code j u hfed hhold hjob hmet hu
    exact (fed_ready hfed).trans (congrArg _ (roleEnd_met hhold hjob hmet hu))
  case done =>
    intro j s u hst htiles hstop hu
    exact jobDone_ends hst htiles hstop hu
  case starts =>
    intro j s i hfed hentry hst hfiring
    refine (fed_ready hfed).trans (congrArg _ ?_)
    simp [jobStartInstant, hentry, hst, hfiring]
  case notDone =>
    intro j s h
    exact jobDone_still h
  case roleStill =>
    intro t s hfed h
    exact (fed_ready hfed).trans (congrArg _ (roleEnd_still h))
  case jobStill =>
    intro j s hfed h
    refine (fed_ready hfed).trans (congrArg _ ?_)
    cases hentry : (jobOf s j).entry with
    | none => simp only [jobStartInstant, hentry]
    | some i =>
      have hno := h.resolve_left (by simp [hentry])
      obtain h | h := hno <;> simp [jobStartInstant, hentry, h]
  case noStep =>
    intro t s u hfed hloop hend hu
    exact ⟨(fed_ready hfed).trans (congrArg _ (issue_of_not_due hloop hu)),
      (fed_ready hfed).trans (congrArg _ (issue_of_not_due hend hu))⟩

end Sys2Proof.Machine
end

section
/-! PROOFS. The step, the reset state, the order of the checks, the operating state and the LEDs. -/

namespace Sys2Proof.Machine

variable {s u : State}

/-- A vector's message changes its own registers of the interrupt block only, not the causes (R47). -/
@[simp] theorem sendMsix_cause (v : Nat) (s : State) : (sendMsix v s).irq.cause = s.irq.cause := by
  unfold sendMsix
  split
  · rfl
  · dsimp only
    split <;> rfl

/-- Without power a tick only counts (R351). -/
theorem tick_of_off (h : s.power.on = false) : tick s = { s with clk := s.clk + 1 } := by
  simp [tick, h]

/-- The restart of an activation comes when its time is over (R432). -/
theorem activationRestart_waits (h : ∀ t, s.fw.restartAt = some t → since t s < min Config.restartTicks (ticksMs 50)) :
    activationRestart s = s := by
  unfold activationRestart
  split
  next t ht => exact if_neg (Nat.not_le.mpr (h t ht))
  next => rfl

theorem activationRestart_due {t : Nat} (ht : s.fw.restartAt = some t)
    (hdue : min Config.restartTicks (ticksMs 50) ≤ since t s) : activationRestart s = moduleReset .activation false s := by
  simp only [activationRestart, ht, if_pos hdue]

/-- Settles O46, clause by clause. -/
theorem stepRunsCommand : Obligations.StepRunsCommand := by
  unfold Obligations.StepRunsCommand
  refine ⟨?front, ?empty, ?noneWaits, fun s => rfl, fun s => activationRestart_waits,
    fun s t => activationRestart_due, ?off⟩
  case front =>
    intro c rest s h
    simp only [step, h]
  case empty =>
    intro s h
    simp only [step, h]
  case noneWaits =>
    intro s h
    simp [startWaiting, h]
  case off =>
    intro s hoff hnone
    unfold clock
    rw [tick_of_off hoff]
    simp [activationRestart, hoff, hnone]

/-- Settles O47, by evaluation of the reset state. -/
theorem resetValues : Obligations.ResetValues :=
  ⟨rfl, fun _ => rfl, rfl, rfl, rfl, rfl, rfl, rfl, rfl, rfl, rfl, rfl, rfl, fun _ => rfl, rfl, fun _ => ⟨rfl, rfl⟩,
    fun _ => rfl, fun _ => rfl, rfl⟩

/-- Settles O48: both memories are empty lists. -/
theorem resetIsSound : Obligations.ResetIsSound :=
  ⟨⟨.nil, by simp [State.reset]⟩, ⟨.nil, by simp [State.reset]⟩, by decide, by decide, by decide, rfl⟩

/-- Settles O54, by the three operating states and the law of a transition. -/
theorem stateEvaluation : Obligations.StateEvaluation := by
  unfold Obligations.StateEvaluation
  refine ⟨?degraded, ?running, ?ready, ?other, ?enters, enter_same, ?frame, ?cause⟩
  case degraded =>
    intro cause s hop hdeg
    simp [reevaluate, hop, operatingState, hdeg]
  case running =>
    intro cause s hop hdeg hrun
    simp [reevaluate, hop, operatingState, hdeg, hrun]
  case ready =>
    intro cause s hop hdeg hrun
    simp [reevaluate, hop, operatingState, hdeg, hrun]
  case other =>
    intro cause s hop
    simp [reevaluate, hop]
  case enters =>
    intro new cause s hne
    exact if_neg hne
  case frame =>
    intro new cause s hne
    rw [enter_eq new cause s hne]
    exact ⟨rfl, rfl, rfl, rfl, rfl⟩
  case cause =>
    intro v s hclear
    unfold setCause
    rw [if_neg (by simpa [bit] using hclear)]
    dsimp only
    split
    · rfl
    · exact sendMsix_cause _ _

/-- Settles O56, by the order of the checks in the verdict. -/
theorem checkOrder : Obligations.CheckOrder := by
  unfold Obligations.CheckOrder
  refine ⟨?opcode, ?length, ?header, ?state, ?object, ?args, ?runs, ?idle⟩
  case opcode =>
    intro t s h
    simp only [runTaken, Option.isNone_iff_eq_none.mp h]
  case length =>
    intro c r s h
    have hlen : headerLenOk c r = false := by
      obtain h | h | h := h
      · simp [headerLenOk, Nat.not_le.mpr h]
      · simp [headerLenOk, Nat.not_le.mpr h]
      · simp [headerLenOk, h]
    simp [answer, verdict, hlen]
  case header =>
    intro c r s h2 h512 hlen hhead
    simp [answer, verdict, headerLenOk, h2, h512, hlen, hhead]
  case state =>
    intro c r s h2 h512 hlen hhead hadm
    simp [answer, verdict, headerLenOk, h2, h512, hlen, hhead, hadm]
  case object =>
    intro c r s st ws h2 h512 hlen hhead hadm hobj
    simp [answer, verdict, headerLenOk, h2, h512, hlen, hhead, hadm, hobj]
  case args =>
    intro c r s st ws h2 h512 hlen hhead hadm hobj hargs
    simp [answer, verdict, headerLenOk, h2, h512, hlen, hhead, hadm, hobj, hargs]
  case runs =>
    intro c r s h2 h512 hlen hhead hadm hobj hargs
    simp only [answer, verdict_none rfl h2 h512 hlen hhead hadm hobj hargs]
  case idle =>
    intro c r s h
    simp [runCmd, h]

/-- An active lace that names a port of a receptacle is among those its LED shows (R478). -/
theorem mem_lacesAt {k i : Nat} {x : Lace} (hactive : (i, some x) ∈ s.welt.active)
    (hport : onReceptacle k (i % 160) = true ∨ onReceptacle k x.outlet = true) : (runOf s i).st ∈ lacesAt k s := by
  refine List.mem_filterMap.mpr ⟨_, hactive, ?_⟩
  simp only [Bool.or_eq_true, hport, if_true]
  rfl

theorem ledsDriven_of_off (h : s.power.on = false ∨ s.glb.state = .boot ∨ s.glb.state = .dead) : ledsDriven s = false := by
  obtain h | h | h := h <;> simp [ledsDriven, h]

theorem ledSvc_of_not_driven (h : ledsDriven s = false) : ledSvc s = .off := by
  simp [ledSvc, h]

theorem ledLace_of_not_lit {k : Nat} (h : ledsDriven s = false ∨ s.welt.powered = false) : ledLace k s = .off := by
  obtain h | h := h <;> simp [ledLace, h]

/-- Settles O60, LED by LED. -/
theorem statusLeds : Obligations.StatusLeds := by
  unfold Obligations.StatusLeds
  refine ⟨?failing, ?off, ?early, ?unlocked, fun s k h => ledLace_of_not_lit (.inr h), ?red⟩
  case failing =>
    intro s hon hfail
    simp [ledPwr, hon, hfail]
  case off =>
    intro s hoff
    have hleds : ledsDriven s = false := ledsDriven_of_off (.inl hoff)
    exact ⟨by simp [ledPwr, hoff], by simp [ledState, hoff], ledSvc_of_not_driven hleds,
      fun k => ledLace_of_not_lit (.inl hleds)⟩
  case early =>
    intro s k h
    have hleds : ledsDriven s = false := ledsDriven_of_off (.inr h)
    exact ⟨ledSvc_of_not_driven hleds, ledLace_of_not_lit (.inl hleds)⟩
  case unlocked =>
    intro s hleds hopen
    simp [ledSvc, hleds, hopen]
  case red =>
    intro s i x k hleds hon hactive hport hst
    have hmem : LaceSt.unlocked ∈ lacesAt k s := hst ▸ mem_lacesAt hactive hport
    have hne : (lacesAt k s).isEmpty = false := List.isEmpty_eq_false_iff_exists_mem.mpr ⟨_, hmem⟩
    simp [ledLace, hleds, hon, hne, hmem]

end Sys2Proof.Machine
end

section
/-! PROOFS. The schedule, the laces and the calibration runs (R309 to R320, R338 to R349, R372, R374). -/

namespace Sys2Proof.Machine

variable {s u : State}

/-! The schedule. -/

theorem relaceComplete_still (h : ∀ x, s.welt.relace = some x → relaceDone x s = false) : relaceComplete s = s := by
  unfold relaceComplete
  split
  next => rfl
  next x hx => exact if_neg (by rw [h x hx]; decide)

/-- Settles O43, by what is due and by the action of the entry. -/
theorem scheduleEvents : Obligations.ScheduleEvents := by
  unfold Obligations.ScheduleEvents
  refine ⟨?fires, ?noneDue, ?actions, ?noRelace, ?complete, ?incomplete⟩
  case fires =>
    intro s i e halive hdue
    refine (live_alive halive).trans (congrArg _ ?_)
    simp only [scheduleEntryFire, hdue]
  case noneDue =>
    intro s halive hdue
    refine (live_alive halive).trans (congrArg _ ?_)
    simp only [scheduleEntryFire, hdue]
  case actions =>
    intro i e s u hu
    unfold fireEntry
    dsimp only
    rw [← hu]
    refine ⟨?commit, ?job, ?boundary, ?image, ?other⟩
    case commit =>
      intro ha
      rw [ha]
      rfl
    case job =>
      intro ha
      rw [ha]
      rfl
    case boundary =>
      intro ha
      rw [ha]
      rfl
    case image =>
      intro ha
      rw [ha]
      rfl
    case other =>
      intro ha
      split
      · omega
      · omega
      · omega
      · omega
      · rfl
  case noRelace =>
    intro s hfed hnone
    exact (fed_ready hfed).trans (congrArg _ (relaceComplete_still (by simp [hnone])))
  case complete =>
    intro s x us u hfed hx hdone hus hu
    refine (fed_ready hfed).trans (congrArg _ ?_)
    simp only [relaceComplete, hx, hdone, if_true, ← hus, ← hu]
  case incomplete =>
    intro s x hfed hx hdone
    refine (fed_ready hfed).trans (congrArg _ (relaceComplete_still fun y hy => ?_))
    rw [Option.some.inj (hy.symm.trans hx)]
    exact hdone

/-! The laces. Each of their five commands changes nothing before its time and in any other state of the lace. -/

section Laces

variable {i : Nat}

theorem laceDark_still (h : (runOf s i).st = .idle ∨ (runOf s i).st = .forced ∨ (runOf s i).darkSince = none ∨
    -1966080 ≤ inletPower i s ∨ ∃ n, (runOf s i).darkSince = some n ∧ since n s < 50000) : laceDark i s = s := by
  unfold laceDark
  dsimp only
  split
  next t ht =>
    obtain h | h | h | h | ⟨n, hn, h⟩ := h
    · simp [h]
    · simp [h]
    · simp [h] at ht
    · have hlit : ¬ inletPower i s < qi (-30) := Int.not_lt.mpr h
      simp [hlit]
    · cases hn.symm.trans ht
      have hshort : ¬ ticksUs 100 ≤ since t s := Nat.not_le.mpr h
      simp [hshort]
  next => rfl

theorem laceLightReturn_still (h : (runOf s i).st ≠ .dark ∨ inletPower i s ≤ -1835008) : laceLightReturn i s = s := by
  obtain h | h := h
  · simp [laceLightReturn, h]
  · have hlow : ¬ qi (-28) < inletPower i s := Int.not_lt.mpr h
    simp [laceLightReturn, hlow]

theorem laceSettleTimeout_still (h : (runOf s i).st ≠ .settling ∨ since (runOf s i).settleAt s < 5000000) :
    laceSettleTimeout i s = s := by
  obtain h | h := h
  · simp [laceSettleTimeout, h]
  · have hshort : ¬ ticksMs 10 ≤ since (runOf s i).settleAt s := Nat.not_le.mpr h
    simp [laceSettleTimeout, hshort]

theorem laceLockLoss_still (h : (runOf s i).st ≠ .locked ∨ inletPower i s < -1966080 ∨
    (∀ t, (runOf s i).outSince = some t → since t s < 500000)) : laceLockLoss i s = s := by
  unfold laceLockLoss
  dsimp only
  split
  next t ht =>
    obtain h | h | h := h
    · simp [h]
    · have hlow : ¬ qi (-30) ≤ inletPower i s := Int.not_le.mpr h
      simp [hlow]
    · have hshort : ¬ ticksMs 1 ≤ since t s := Nat.not_le.mpr (h t ht)
      simp [hshort]
  next => rfl

theorem laceLossAlarm_still (h : (runOf s i).st ≠ .locked ∨ (runOf s i).lossTold = true ∨
    (∀ t, (runOf s i).lossSince = some t → since t s < 500000000)) : laceLossAlarm i s = s := by
  unfold laceLossAlarm
  dsimp only
  split
  next t ht =>
    obtain h | h | h := h
    · simp [h]
    · simp [h]
    · have hshort : ¬ ticksS 1 ≤ since t s := Nat.not_le.mpr (h t ht)
      simp [hshort]
  next => rfl

/-- A lace that leaves lock with no relace under way becomes Unlocked and says so (R314). -/
theorem unlockLace_eq (hnone : s.welt.relace = none) (hu : u = setRun i { st := .unlocked } s) :
    unlockLace i s = reevaluate 0x5005 (raise 0x5005 3 [word i, word (laceTag i u), word (failingCell i u)] u) := by
  have hsame : { u with welt := { u.welt with relace := none } } = u := by
    subst hu
    simp only [setRun, ← hnone]
  unfold unlockLace
  dsimp only
  rw [← hu, show u.welt.relace = none from hu ▸ hnone, Option.map_none, hsame]

end Laces

/-- Settles O44, command by command. -/
theorem laceEvents : Obligations.LaceEvents := by
  unfold Obligations.LaceEvents
  refine ⟨?dark, ?light, ?timeout, ?loss, ?alarm, ?sample, ?noSample, ?idle, ?darkStill, ?lightStill, ?timeoutStill,
    ?lossStill, ?alarmStill, fun i s u => unlockLace_eq⟩
  case dark =>
    intro i n s u hfed hsince hlong hst hlow hu
    refine (fed_ready hfed).trans (congrArg _ ?_)
    have hst' : (decide ((runOf s i).st = .settling) || decide ((runOf s i).st = .locked) ||
        decide ((runOf s i).st = .unlocked)) = true := by simpa [or_assoc] using hst
    have hlong' : ticksUs 100 ≤ since n s := hlong
    have hlow' : inletPower i s < qi (-30) := hlow
    simp only [laceDark, hsince, hst', darkEvent]
    rw [hu]
    exact if_pos (by simp [hlong', hlow'])
  case light =>
    intro i s u hfed hst hlight hu
    refine (fed_ready hfed).trans (congrArg _ ?_)
    rw [hu]
    have hlight' : qi (-28) < inletPower i s := hlight
    exact if_pos (by simp [hst, hlight'])
  case timeout =>
    intro i s hfed hst hlong
    refine (fed_ready hfed).trans (congrArg _ ?_)
    have hlong' : ticksMs 10 ≤ since (runOf s i).settleAt s := hlong
    exact if_pos (by simp [hst, hlong'])
  case loss =>
    intro i s t hfed hst hsince hlong hlight
    refine (fed_ready hfed).trans (congrArg _ ?_)
    simp only [laceLockLoss, hsince]
    have hlong' : ticksMs 1 ≤ since t s := hlong
    have hlight' : qi (-30) ≤ inletPower i s := hlight
    exact if_pos (by simp [hst, hlong', hlight'])
  case alarm =>
    intro i s t u hfed hst hsince htold hlong hu
    refine (fed_ready hfed).trans (congrArg _ ?_)
    have hlong' : ticksS 1 ≤ since t s := hlong
    unfold laceLossAlarm
    rw [hu]
    dsimp only
    split
    next t' ht' =>
      cases hsince.symm.trans ht'
      exact if_pos (by simp [hst, htold, hlong'])
    next hnone => exact absurd (hsince.symm.trans hnone) (by simp)
  case sample =>
    intro p s hfed hon hdue
    refine (fed_ready hfed).trans (congrArg _ ?_)
    exact if_pos (by simpa [hon] using hdue)
  case noSample =>
    intro p s hfed h
    refine (fed_ready hfed).trans (congrArg _ (if_neg ?_))
    rw [Bool.and_eq_true, decide_eq_true_iff]
    rintro ⟨hon, hdue⟩
    obtain h | h := h
    · exact absurd hon (by simp [h])
    · exact absurd hdue (Nat.not_le.mpr h)
  case idle =>
    intro i s hfed h
    have hdark : (runOf s i).st ≠ .dark := by obtain h | h := h <;> simp [h]
    have hsettling : (runOf s i).st ≠ .settling := by obtain h | h := h <;> simp [h]
    have hlocked : (runOf s i).st ≠ .locked := by obtain h | h := h <;> simp [h]
    exact ⟨(fed_ready hfed).trans (congrArg _ (laceDark_still (h.imp_right .inl))),
      (fed_ready hfed).trans (congrArg _ (laceLightReturn_still (.inl hdark))),
      (fed_ready hfed).trans (congrArg _ (laceSettleTimeout_still (.inl hsettling))),
      (fed_ready hfed).trans (congrArg _ (laceLockLoss_still (.inl hlocked))),
      (fed_ready hfed).trans (congrArg _ (laceLossAlarm_still (.inl hlocked)))⟩
  case darkStill =>
    intro i s hfed h
    exact (fed_ready hfed).trans (congrArg _ (laceDark_still (.inr (.inr h))))
  case lightStill =>
    intro i s hfed h
    exact (fed_ready hfed).trans (congrArg _ (laceLightReturn_still h))
  case timeoutStill =>
    intro i s hfed h
    exact (fed_ready hfed).trans (congrArg _ (laceSettleTimeout_still h))
  case lossStill =>
    intro i s hfed h
    exact (fed_ready hfed).trans (congrArg _ (laceLockLoss_still h))
  case alarmStill =>
    intro i s hfed h
    exact (fed_ready hfed).trans (congrArg _ (laceLossAlarm_still h))

/-! Calibration. -/

theorem bandgapFail_still (h : s.mon.bgTold = true ∨ ∀ t, s.mon.bgSince = some t → since t s < 5000000) :
    bandgapFail s = s := by
  unfold bandgapFail
  split
  next t ht =>
    obtain h | h := h
    · simp [h]
    · have hshort : ¬ ticksMs 10 ≤ since t s := Nat.not_le.mpr (h t ht)
      simp [hshort]
  next => rfl

/-- A drift raises its event, and starts a run unless a relace is near (R346). -/
theorem calDriftTest_drifted {i : Nat} {t : Q} (hbusy : calBusy s = false) (hdrift : drifted s = some (i, t))
    (hu : u = raise 0x6004 1 [word i, qWord (reading 1 i s), qWord t] s) :
    calDriftTest s = if relaceNear u then { u with mon := { u.mon with deferred := some u.clk } } else startRun 63 .drift u := by
  subst hu
  simp only [calDriftTest, hbusy, hdrift]
  rfl

theorem calDriftTest_still (h : calBusy s = true ∨ drifted s = none) : calDriftTest s = s := by
  unfold calDriftTest
  obtain h | h := h <;> simp [h]

/-- A deferred run starts when the relace is over, or after ten seconds (R344). -/
theorem calDeferredStart_due {t : Nat} (ht : s.mon.deferred = some t) (hdue : relaceNear s = false ∨ 5000000000 ≤ since t s) :
    calDeferredStart s = startRun 63 .drift s := by
  have hdue' : relaceNear s = false ∨ ticksS 10 ≤ since t s := hdue
  simp only [calDeferredStart, ht]
  exact if_pos (by simpa using hdue')

theorem calDeferredStart_still (h : ∀ t, s.mon.deferred = some t → relaceNear s = true ∧ since t s < 5000000000) :
    calDeferredStart s = s := by
  unfold calDeferredStart
  split
  next t ht =>
    obtain ⟨hnear, hshort⟩ := h t ht
    have hshort' : ¬ ticksS 10 ≤ since t s := Nat.not_le.mpr hshort
    exact if_neg (by simp [hnear, hshort'])
  next => rfl

theorem calRecordWrite_still {ok : Bool} (h : s.mon.writeDue = false ∨ (s.fw.migrateDue && !s.fw.converted) = true) :
    calRecordWrite ok s = s := by
  refine if_pos ?_
  obtain h | h := h <;> rw [h] <;> simp

/-- A record that is due goes to the slot that is not current (R348). -/
theorem calRecordWrite_due {ok : Bool} (hdue : s.mon.writeDue = true) (hformat : (s.fw.migrateDue && !s.fw.converted) = false) :
    calRecordWrite ok s = putRecord ok (calRecord s) { s with mon := { s.mon with writeDue := false } } := by
  refine if_neg ?_
  rw [hdue, hformat]
  decide

/-- Settles O45, command by command. -/
theorem calibrationEvents : Obligations.CalibrationEvents := by
  unfold Obligations.CalibrationEvents
  refine ⟨?scan, ?deliver, ?held, ?compare, ?fail, ?failStill, ?drift, ?driftStill, fun s => rfl, fun mask g s => rfl,
    ?deferred, ?deferredStill, ?complete, ?procedure, ?completeStill, ?good, ?bad, ?writeStill⟩
  case scan =>
    intro g l s t u halive ht hu
    refine (live_alive halive).trans (congrArg _ ?_)
    unfold monitorScan
    dsimp only
    rw [← ht, ← hu]
  case deliver =>
    intro g l key s u href hproc hu
    unfold deliverReading
    simp only [href, hproc, ← hu]
    rfl
  case held =>
    intro g l key s
    exact ⟨fun href => by simp [deliverReading, href], fun href hproc => by simp [deliverReading, href, hproc]⟩
  case compare =>
    intro a b s halive
    refine (live_alive halive).trans (congrArg _ ?_)
    unfold bandgapCompare
    simp [bgApart]
  case fail =>
    intro s t halive ht hlong htold
    refine (live_alive halive).trans (congrArg _ ?_)
    simp only [bandgapFail, ht]
    have hlong' : ticksMs 10 ≤ since t s := hlong
    exact if_pos (by simp [htold, hlong'])
  case failStill =>
    intro s halive h
    exact (live_alive halive).trans (congrArg _ (bandgapFail_still h))
  case drift =>
    intro s i t u halive hbusy hdrift hu
    exact (live_alive halive).trans (congrArg _ (calDriftTest_drifted hbusy hdrift hu))
  case driftStill =>
    intro s halive h
    exact (live_alive halive).trans (congrArg _ (calDriftTest_still h))
  case deferred =>
    intro s t halive ht hdue
    exact (live_alive halive).trans (congrArg _ (calDeferredStart_due ht hdue))
  case deferredStill =>
    intro s halive h
    exact (live_alive halive).trans (congrArg _ (calDeferredStart_still h))
  case complete =>
    intro items l s skipped ran e u halive hrun hproc hl hskipped hran he hu
    show execCalRunComplete items s = _
    have hgo : ¬ (decide (s.mon.running = 0) || decide (s.mon.proc ≠ 6)) = true := by simp [hrun, hproc]
    rw [execCalRunComplete, live_alive halive, if_neg hgo, calRunComplete, if_neg hgo]
    dsimp only
    rw [← hl, ← hskipped, ← hran, ← he, hu]
  case procedure =>
    intro l p n s v hv
    subst hv
    unfold endProcedure
    dsimp only
    cases firstFailing p l s <;> rfl
  case completeStill =>
    intro l s halive h
    show execCalRunComplete l s = _
    rw [execCalRunComplete, live_alive halive, if_pos (by simpa using h)]
  case good =>
    intro s n r halive hdue hformat hn hr
    refine (live_alive halive).trans (congrArg _ ((calRecordWrite_due hdue hformat).trans ?_))
    subst hn hr
    rfl
  case bad =>
    intro s n halive hdue hformat hn
    refine (live_alive halive).trans (congrArg _ ((calRecordWrite_due hdue hformat).trans ?_))
    subst hn
    rfl
  case writeStill =>
    intro ok s halive h
    exact (live_alive halive).trans (congrArg _ (calRecordWrite_still h))

/-- Settles O59, by the drift test and the start of a deferred run. -/
theorem deferral : Obligations.Deferral := by
  unfold Obligations.Deferral
  refine ⟨fun s => rfl, ?drift, ?starts, ?waits, ?command⟩
  case drift =>
    intro s i t u halive hbusy hdrift hu hnear
    refine (live_alive halive).trans (congrArg _ ((calDriftTest_drifted hbusy hdrift hu).trans ?_))
    exact if_pos hnear
  case starts =>
    intro s t halive ht hdue
    exact (live_alive halive).trans (congrArg _ (calDeferredStart_due ht hdue))
  case waits =>
    intro s t halive ht hnear hshort
    refine (live_alive halive).trans (congrArg _ (calDeferredStart_still fun x hx => ?_))
    rw [Option.some.inj (hx.symm.trans ht)]
    exact ⟨hnear, hshort⟩
  case command =>
    intro r s h _ hbusy hzero hsome
    exact Asked.completes calRunCmd h (by decide) rfl (by simp [calRunCmd, hbusy, hzero, hsome]) rfl

end Sys2Proof.Machine
end

section
/-! PROOFS. The memories: rewrites, scrubs, the temperature, parity and the training of channels (R203 to R234). -/

namespace Sys2Proof.Machine

variable {s u v : State} {c : Nat}

/-! The queued rewrites. -/

theorem sramRewrite_queued {k : Nat} (h : s.mem.sramRewrites.contains k = true) : sramRewrite k s = { s with
    mem := { s.mem with
      sramBad := if tget 0 s.mem.sramBad k = 1 then tset 0 s.mem.sramBad k 0 else s.mem.sramBad
      sramRewrites := s.mem.sramRewrites.filter (· ≠ k) } } := if_pos h

theorem sramRewrite_unqueued {k : Nat} (h : s.mem.sramRewrites.contains k = false) : sramRewrite k s = s := by
  simp only [sramRewrite, h]
  rfl

theorem mrdimmRewrite_queued {line : Nat} {r : Nat × List Byte} (hin : (chanOf s c).inService = true)
    (hfind : s.mem.rewrites.find? (·.1 = c * 2 ^ 32 + line) = some r) : mrdimmRewrite c line s = lineStore c line r.2 s := by
  have hkey : s.mem.rewrites.find? (·.1 = lineKey c line) = some r := hfind
  simp only [mrdimmRewrite, hin, lineRewrite, hkey]
  rfl

theorem mrdimmRewrite_still {line : Nat} (h : (chanOf s c).inService = false ∨
    s.mem.rewrites.find? (·.1 = c * 2 ^ 32 + line) = none) : mrdimmRewrite c line s = s := by
  obtain h | h := h
  · simp only [mrdimmRewrite, h]
    rfl
  · have hkey : s.mem.rewrites.find? (·.1 = lineKey c line) = none := h
    simp only [mrdimmRewrite, lineRewrite, hkey, ite_self]

/-! The scrubs. -/

/-- A patrol read of a channel in service takes the next line of its subchannel (R222, R223). -/
theorem patrolScrub_reads {sub n : Nat} {ch : Chan} {k : LineClass}
    (hu : u = modChan c (fun x => { x with
      scrub := if sub = 0 then n + 1 else x.scrub, scrub1 := if sub = 0 then x.scrub1 else n + 1,
      passCe := x.passCe + (match k with | .ce _ _ => 1 | _ => 0),
      passUe := x.passUe + (match k with | .ue => 1 | _ => 0) }) v)
    (hch : ch = chanOf s c) (hin : ch.inService = true)
    (hn : n = if sub = 0 then ch.scrub else ch.scrub1) (hleft : n < ch.spdGiB * 2 ^ 23)
    (hk : k = lineClass c (2 * n + sub) s) (hv : v = lineRead c readerScrub (2 * n + sub) s) :
    patrolScrub c sub s = passEnd c u := by
  have hpos : scrubPos sub (chanOf s c) = n := by rw [hn, hch, scrubPos]
  subst hk hv hch hu
  unfold patrolScrub
  dsimp only
  rw [hpos]
  refine if_neg ?_
  have hmore : ¬ subLines (chanOf s c) ≤ n := Nat.not_le.mpr hleft
  simp [hin, hmore]

theorem patrolScrub_still {sub : Nat} (h : (chanOf s c).inService = false ∨
    (chanOf s c).spdGiB * 2 ^ 23 ≤ (if sub = 0 then (chanOf s c).scrub else (chanOf s c).scrub1)) : patrolScrub c sub s = s := by
  refine if_pos ?_
  obtain h | h := h
  · simp [h]
  · have hend : subLines (chanOf s c) ≤ scrubPos sub (chanOf s c) := h
    simp [hend]

/-- A channel with more than 1,024 corrected errors in an hour scrubs fast, and slow again after a quiet day (R234). -/
theorem scrubPeriodChange_fast (hin : (chanOf s c).inService = true) (hslow : (chanOf s c).fast = false)
    (hmany : 1024 < ((chanOf s c).ceTimes.filter (fun t => since t s < ticksS 3600)).length) :
    scrubPeriodChange c s = raise 0x2008 1 [word c, 6] (modChan c (fun x => { x with fast := true }) s) := by
  simp [scrubPeriodChange, hin, hslow, hmany]

theorem scrubPeriodChange_slow (hin : (chanOf s c).inService = true) (hfast : (chanOf s c).fast = true)
    (hfew : ((chanOf s c).ceTimes.filter (fun t => since t s < ticksS 3600)).length ≤ 1024)
    (hquiet : ticksS 86400 ≤ since (chanOf s c).noisyAt s) :
    scrubPeriodChange c s = raise 0x2008 1 [word c, 24] (modChan c (fun x => { x with fast := false }) s) := by
  simp [scrubPeriodChange, hin, hfast, hfew, hquiet]

theorem scrubPeriodChange_still {n : Nat} (hn : n = ((chanOf s c).ceTimes.filter (fun t => since t s < ticksS 3600)).length)
    (h : (chanOf s c).inService = false ∨ ((chanOf s c).fast = true ∧ 1024 < n) ∨ ((chanOf s c).fast = false ∧ n ≤ 1024) ∨
      ((chanOf s c).fast = true ∧ since (chanOf s c).noisyAt s < ticksS 86400)) : scrubPeriodChange c s = s := by
  unfold scrubPeriodChange
  dsimp only
  rw [← hn]
  obtain h | ⟨hfast, hn⟩ | ⟨hfast, hn⟩ | ⟨hfast, hnoisy⟩ := h
  · simp [h]
  · simp [hfast, hn]
  · simp [hfast, Nat.not_lt.mpr hn]
  · simp [hfast, Nat.not_le.mpr hnoisy]

/-! Temperature, parity and training. -/

theorem dimmTemp_warm {temp : Int} {a b : Bool} (hin : (chanOf s c).inService = true) (hcool : temp < 105)
    (ha : a = hotNow (chanOf s c).hot85 85 temp) (hb : b = hotNow (chanOf s c).hot95 95 temp)
    (hu : u = modChan c (fun x => { x with hot85 := a, hot95 := b }) s) :
    dimmTemp c temp s = if a ≠ (chanOf s c).hot85 ∨ b ≠ (chanOf s c).hot95
      then raise 0x1020 2 [word c, sword temp, word (b2n a + 2 * b2n b)] u else u := by
  have hout : decide (105 ≤ temp) = false := decide_eq_false (Int.not_le.mpr hcool)
  have hmask : bitsNat [a, b, false] = b2n a + 2 * b2n b := by cases a <;> cases b <;> rfl
  unfold dimmTemp
  dsimp only
  rw [← ha, ← hb, ← hu, hout, hmask, hin]
  simp

theorem dimmTemp_shuts {temp : Int} (hin : (chanOf s c).inService = true) (hhot : 105 ≤ temp) :
    dimmTemp c temp s = leaveService c 1 (raise 0x1020 2 [word c, sword temp, 7]
      (modChan c (fun x => { x with hot85 := true, hot95 := true }) s)) := by
  have ha : hotNow (chanOf s c).hot85 85 temp = true := by simp [hotNow, show (85 : Int) ≤ temp by omega]
  have hb : hotNow (chanOf s c).hot95 95 temp = true := by simp [hotNow, show (95 : Int) ≤ temp by omega]
  unfold dimmTemp
  dsimp only
  rw [ha, hb, decide_eq_true hhot, hin, Bool.or_true]
  rfl

theorem dimmTemp_absent {temp : Int} (h : (chanOf s c).inService = false) : dimmTemp c temp s = s := by
  simp [dimmTemp, h]

theorem caParityError_still {n : Nat} (h : (chanOf s c).inService = false ∨ n = 0) : caParityError c n s = s := by
  obtain h | h := h <;> simp [caParityError, h]

/-- Parity errors of a channel in service are counted; the fourth failure of a command retrains it once (R224). -/
theorem caParityError_counts {n : Nat} {ch : Chan} {re : Bool} {times : List Nat} (hch : ch = chanOf s c)
    (hin : ch.inService = true) (hn : n ≠ 0) (hre : re = (decide (n = 4) && !ch.retrained && !ch.retraining))
    (htimes : times = if ch.retrained then List.replicate n s.clk ++ ch.parityTimes.filter (fun t => since t s < ticksS 1) else [])
    (hv : v = raiseLimited 0x2009 1 c (ticksS 10) (min n 3)
      (fun k => [word c, word k, word (b2n (ch.retrained || ch.retraining || re))])
      (modChan c (fun x => { x with retraining := x.retraining || re, parityTimes := times }) s)) :
    caParityError c n s = if 16 < times.length then leaveService c 2 v else v := by
  unfold caParityError
  dsimp only
  rw [← hch, ← hre, ← htimes, ← hv]
  exact if_neg (by simp [hin, hn])

/-- A channel that leaves service refuses what it holds, and its regions are lost (R226). -/
theorem leaveService_eq {cause : Nat} (hin : (chanOf s c).inService = true)
    (hu : u = modChan c (fun x => { x with inService := false, out := true, retraining := false }) (refuseChannel c s))
    (hv : v = raise 0x2005 3 [word c, word cause] { u with
      place := { u.place with owned := u.place.owned.filter (fun o => o.chan ≠ c) } }) :
    leaveService c cause s = reevaluate 0x2005 (markLost c (if moveOnChan c v then moveAbort 3 0 v else v)) := by
  unfold leaveService
  dsimp only
  rw [← hu, ← hv, hin]
  rfl

theorem leaveService_absent {cause : Nat} (h : (chanOf s c).inService = false) : leaveService c cause s = s := by
  simp [leaveService, h]

/-- The training of a channel is taken once, and after the last socket the capacities are compared (R203 to R208). -/
theorem dimmTraining_tried {x : Spd} {good : Bool} (hup : s.glb.yarlerUp = true) (hnew : (chanOf s c).tried = false)
    (hgood : good = (x.populated && decide (spdRefused x = 0)))
    (hu : u = modChan c (fun ch => { ch with
      tried := true, trained := good && x.trained, spdGiB := (if good then x.capGiB else 0), out := good && !x.trained }) s)
    (hv : v = if x.populated && decide (spdRefused x ≠ 0) then raise 0x2006 2 [word c, word x.capGiB, word (spdRefused x)] u
      else if good && !x.trained then raise 0x2005 3 [word c, 0] u else u) :
    dimmTraining c x s = if allTried v then calibrateAtStart (forAll (trainedChans v) (fun c s =>
        if capGiB s < (chanOf s c).spdGiB then raise 0x2006 2 [word c, word (chanOf s c).spdGiB, 0] s else s) v)
      else v := by
  have hzero : word leftTraining = 0 := rfl
  unfold dimmTraining
  dsimp only
  rw [← hgood, ← hu, hzero, ← hv]
  exact if_neg (by simp [hup, hnew])

theorem dimmTraining_still {x : Spd} (h : (chanOf s c).tried = true ∨ s.glb.yarlerUp = false) : dimmTraining c x s = s := by
  obtain h | h := h <;> simp [dimmTraining, h]

theorem channelZero_zeroes (htrained : (chanOf s c).trained = true) (hnew : (chanOf s c).inService = false)
    (hout : (chanOf s c).out = false) (hall : allTried s = true) :
    channelZero c s = calibrateAtStart (modChan c (fun x => { x with inService := true })
      (dramZero c 0 ((chanOf s c).spdGiB * 2 ^ 30) s)) := by
  simp only [channelZero, htrained, hnew, hout, hall]
  rfl

theorem channelZero_still (h : (chanOf s c).trained = false ∨ (chanOf s c).inService = true ∨ (chanOf s c).out = true ∨
    allTried s = false) : channelZero c s = s := by
  obtain h | h | h | h := h <;> simp [channelZero, h]

/-- Settles O39, command by command. -/
theorem memoryCommands : Obligations.MemoryCommands := by
  unfold Obligations.MemoryCommands
  refine ⟨?sram, ?sramStill, ?bank, ?line, ?lineStill, ?store, ?patrol, ?patrolStill, ?pass, ?fast, ?slow, ?period,
    ?warm, ?hot, ?absent, ?parityZero, ?parity, ?retrain, ?retrainStill, ?shutdown, ?leave, ?leaveStill, ?train,
    ?trainStill, ?spd, ?zero, ?zeroStill⟩
  case sram =>
    intro t w s k hfed hw hk hqueued
    subst hk
    refine (fed_ready hfed).trans (congrArg _ ?_)
    exact (if_pos hw).trans (sramRewrite_queued hqueued)
  case sramStill =>
    intro t w s hfed h
    show execSramCorrectionRewrite t w s = _
    rw [execSramCorrectionRewrite, fed_ready hfed]
    refine congrArg _ ?_
    split
    next hw => exact sramRewrite_unqueued (h.resolve_left (Nat.not_le.mpr hw))
    next => rfl
  case bank =>
    intro t b flaws s u hfed hu
    subst hu
    show execSramBankScrub t b flaws s = _
    rw [execSramBankScrub, fed_ready hfed, sramBankScrub]
  case line =>
    intro c line s r hfed hline hin hfind
    refine (fed_ready hfed).trans (congrArg _ ?_)
    exact (if_pos hline).trans (mrdimmRewrite_queued hin hfind)
  case lineStill =>
    intro c line s hfed h
    show execMrdimmCorrectionRewrite c line s = _
    rw [execMrdimmCorrectionRewrite, fed_ready hfed]
    refine congrArg _ ?_
    split
    next hline => exact mrdimmRewrite_still (h.resolve_left (Nat.not_le.mpr hline))
    next => rfl
  case store =>
    intro c line bs s
    exact ⟨by simp [lineStore], fun a ha => readByte_writeBytes_other _ _ _ ha,
      fun i hi => (readByte_writeBytes_in _ _ _ hi).trans (by simp [hi]), rfl⟩
  case patrol =>
    intro c sub flaws s u ch n k v hfed hu hch hin hn hleft hk hv
    subst hu
    show execPatrolScrubRead c sub flaws s = _
    rw [execPatrolScrubRead, fed_ready hfed]
    exact congrArg _ (patrolScrub_reads rfl hch hin hn hleft hk hv)
  case patrolStill =>
    intro c sub flaws s u hfed hu h
    subst hu
    show execPatrolScrubRead c sub flaws s = _
    rw [execPatrolScrubRead, fed_ready hfed, patrolScrub_still h]
  case pass =>
    intro c s ch hch
    subst hch
    unfold passEnd
    dsimp only
    simp only [Bool.or_eq_true, decide_eq_true_iff]
    rfl
  case fast =>
    intro c s hfed hin hslow hmany
    exact (fed_ready hfed).trans (congrArg _ (scrubPeriodChange_fast hin hslow hmany))
  case slow =>
    intro c s hfed hin hfast hfew hquiet
    exact (fed_ready hfed).trans (congrArg _ (scrubPeriodChange_slow hin hfast hfew hquiet))
  case period =>
    intro c s n hfed hn h
    exact (fed_ready hfed).trans (congrArg _ (scrubPeriodChange_still hn h))
  case warm =>
    intro c temp s a b u hfed hin hcool ha hb hu
    exact (fed_ready hfed).trans (congrArg _ (dimmTemp_warm hin hcool ha hb hu))
  case hot =>
    intro c temp s hfed hin hhot
    exact (fed_ready hfed).trans (congrArg _ (dimmTemp_shuts hin hhot))
  case absent =>
    intro c temp n s hfed h
    exact ⟨(fed_ready hfed).trans (congrArg _ (dimmTemp_absent h)),
      (fed_ready hfed).trans (congrArg _ (caParityError_still (.inl h)))⟩
  case parityZero =>
    intro c s hfed
    exact (fed_ready hfed).trans (congrArg _ (caParityError_still (.inr rfl)))
  case parity =>
    intro c n s ch re times v hfed hch hin hn hre htimes hv
    exact (fed_ready hfed).trans (congrArg _ (caParityError_counts hch hin hn hre htimes hv))
  case retrain =>
    intro c ok s u hfed hbusy hu
    refine (fed_ready hfed).trans (congrArg _ ?_)
    simp only [memoryRetrainComplete, hbusy, ← hu]
    rfl
  case retrainStill =>
    intro c ok s hfed hidle
    refine (fed_ready hfed).trans (congrArg _ ?_)
    simp only [memoryRetrainComplete, hidle]
    rfl
  case shutdown =>
    intro c s hfed
    exact fed_ready hfed
  case leave =>
    intro c cause s u v hin hu hv
    exact leaveService_eq hin hu hv
  case leaveStill =>
    intro c cause s h
    exact leaveService_absent h
  case train =>
    intro c x s good u v hfed hup hnew hgood hu hv
    exact (fed_ready hfed).trans (congrArg _ (dimmTraining_tried hup hnew hgood hu hv))
  case trainStill =>
    intro c x s hfed h
    exact (fed_ready hfed).trans (congrArg _ (dimmTraining_still h))
  case spd =>
    intro x
    simp [spdRefused, or_assoc]
  case zero =>
    intro c s hfed htrained hnew hout hall
    exact (fed_ready hfed).trans (congrArg _ (channelZero_zeroes htrained hnew hout hall))
  case zeroStill =>
    intro c s hfed h
    exact (fed_ready hfed).trans (congrArg _ (channelZero_still h))

end Sys2Proof.Machine
end

section
/-! PROOFS. Stitch at its initiator and at its target (R162 to R197). -/

namespace Sys2Proof.Machine

variable {s u v w : State} {k part : Nat}

/-! The initiator. -/

/-- A step with a descriptor and a free entry of its tile starts its operation and goes on (R173). -/
theorem stitchIssue_starts {t e : Nat} {st : BitVec 256} {d : Desc} (hd : formDesc t st s = .ok d)
    (hw : w = if isFetching d.op then useFresh 1 (sramTouch t readerSend d.localOff (footprint d.op d.len) s) else s)
    (hfree : freeIn (128 * t) 128 w = some e) :
    stitchIssue t st s = startOp e t (tileOf s t).pc 0 d (goOn t w) := by
  unfold stitchIssue
  simp only [hd, ← hw, hfree]

/-- A step without a free entry of its tile waits for one (R173). -/
theorem stitchIssue_waits {t : Nat} {st : BitVec 256} {d : Desc} (hd : formDesc t st s = .ok d)
    (hw : w = if isFetching d.op then useFresh 1 (sramTouch t readerSend d.localOff (footprint d.op d.len) s) else s)
    (hfree : freeIn (128 * t) 128 w = none) (hv : v = setTile t { tileOf w t with hold := .entry } w) :
    stitchIssue t st s = { v with
      stitch := { v.stitch with
        waitList := w.stitch.waitList ++ [{ who := t, at0 := w.clk, desc := d, step := (tileOf s t).pc }] } } := by
  unfold stitchIssue
  simp only [hd, ← hw, hfree]
  rw [hv]
  rfl

theorem stitchIssue_faults {t c : Nat} {st : BitVec 256} (hd : formDesc t st s = .error c) :
    stitchIssue t st s = roleFault t c (tileOf s t).pc s := by
  simp only [stitchIssue, hd, stepFault]

/-- The parts of an operation: its segments, and the signal of a put with signal (R181). -/
theorem mem_partsOf {d : Desc} : part ∈ partsOf d ↔ part < segments d ∨ (d.op = 2 ∧ part = 16) := by
  unfold partsOf
  split
  next hop => simp [hop]
  next hop => simp [hop]

theorem segmentDue_iff : segmentDue k part s = true ↔ (entryOf s k).cond = .waiting ∧ (entryOf s k).error = 0 ∧
    (part < segments (entryOf s k).desc ∨ ((entryOf s k).desc.op = 2 ∧ part = 16)) ∧ tget none (entryOf s k).sent part = none ∧
    (part = 16 → ∀ i < segments (entryOf s k).desc, (entryOf s k).done.contains i = true) := by
  simp only [segmentDue, Bool.and_eq_true, Bool.or_eq_true, decide_eq_true_iff, List.contains_iff_mem, mem_partsOf,
    List.all_eq_true, List.mem_range, and_assoc, ← Decidable.imp_iff_not_or]

theorem restoreGo_idle (n : Nat) (h : s.resil.restore = none) : restoreGo n s = s := by
  cases n with
  | zero => rfl
  | succ n => simp only [restoreGo, h]

/-- Without a copy that fails, a segment is sent by its own rule (R251). -/
theorem segmentSendRow_sends (hcopy : copyReadFails k part s = none) : segmentSendRow k part s = segmentSend k part s := by
  simp only [segmentSendRow, hcopy]

theorem copyReadFails_of_not_due (hdue : segmentDue k part s = false) : copyReadFails k part s = none := by
  simp [copyReadFails, hdue]

theorem segmentSend_ready {dest : Nat} (hdue : segmentDue k part s = true)
    (hheld : ((entryOf s k).sent.isEmpty && mustHold k s) = false) (hdest : partDest (entryOf s k).desc part s = some dest) :
    segmentSend k part s = sendPart k part dest s := by
  simp only [segmentSend, hdue, hheld, hdest]
  rfl

theorem segmentSend_unbound (hdue : segmentDue k part s = true)
    (hheld : ((entryOf s k).sent.isEmpty && mustHold k s) = false) (hdest : partDest (entryOf s k).desc part s = none) :
    segmentSend k part s = recordError k 1 s := by
  simp only [segmentSend, hdue, hheld, hdest]
  rfl

theorem segmentSend_held (hdue : segmentDue k part s = true) (hnew : (entryOf s k).sent = []) (hhold : mustHold k s = true) :
    segmentSend k part s = setEntry k { entryOf s k with cond := .held } s := by
  have hgo : ((entryOf s k).sent.isEmpty && mustHold k s) = true := by rw [hnew, hhold]; rfl
  unfold segmentSend
  dsimp only
  rw [hdue]
  exact if_pos hgo

theorem segmentSend_still (hdue : segmentDue k part s = false) : segmentSend k part s = s := by
  simp only [segmentSend, hdue]
  rfl

/-- A response that fits its entry is accepted (R185 to R187). -/
theorem responseReceive_accepts {p : Pkt} {rest : List Pkt} {q e : Nat} (hv : v = nextResponse s)
    (hnext : v.fabric.inResp = p :: rest) (hu : u = { v with fabric := { v.fabric with inResp := rest } })
    (hq : q = bytesAt p.bytes 4 4) (he : e = q % 2 ^ 14) (hwait : (entryOf u e).cond = .waiting)
    (hgen : (entryOf u e).gen = q / 2 ^ 14 % 16) (hlen : 20 ≤ p.bytes.length)
    (hcheck : checkGood (foldPrefix (ownId u) (q % 2 ^ 24) (entryOf u e).desc.op) p.bytes = true)
    (hpart : part = if q / 2 ^ 23 % 2 = 1 then 16 else q / 2 ^ 18 % 16) (hsent : tget none (entryOf u e).sent part ≠ none)
    (hdone : (entryOf u e).done.contains part = false) :
    responseReceive s = acceptPart e part (bytesAt p.bytes 0 1) ((p.bytes.drop 16).take (p.bytes.length - 20)) u := by
  unfold responseReceive
  dsimp only
  rw [← hv, hnext]
  dsimp only
  rw [← hu, ← hq, ← he, ← hpart]
  have hmine : ¬ (decide ((entryOf u e).cond ≠ .waiting) || decide ((entryOf u e).gen ≠ q / 2 ^ 14 % 16)) = true := by
    rw [hwait, hgen]
    simp
  refine (if_neg hmine).trans ((if_neg ?check).trans (if_neg ?fresh))
  case check =>
    rw [decide_eq_true hlen, hcheck]
    decide
  case fresh =>
    rw [decide_eq_false hsent, hdone]
    decide

/-- A segment timer that has run out fails its operation with code 0x20 (R188 to R190). -/
theorem stitchTimeout_expires {eye : Bool} (hwait : (entryOf s k).cond = .waiting) (hnone : answerHere k s = false)
    (hexp : expired (entryOf s k) s = some eye) (hu : u = countStitch (if eye then 4 else 3) s)
    (hv : v = setEntry k { entryOf u k with error := if (entryOf u k).error = 0 then 0x20 else (entryOf u k).error } u) :
    stitchTimeout k s = failOp k (some (timeoutTicks eye (entryOf s k))) v := by
  unfold stitchTimeout
  dsimp only
  rw [hwait, hnone, hexp]
  dsimp only
  rw [← hu, modEntry, ← hv]
  rfl

/-- Settles O37, command by command. -/
theorem stitchInitiator : Obligations.StitchInitiator := by
  unfold Obligations.StitchInitiator
  refine ⟨?starts, ?waits, ?faults, ?grant, ?pool, fun k part s => segmentDue_iff, ?sends, ?unbound, ?held, ?copyFails,
    ?notDue, fun n s => restoreGo_idle n, ?release, ?response, ?timeout, ?quarantine⟩
  case starts =>
    intro t flaws s u st d w e hsends hu hst hd hw hfree
    subst hu
    show execStitch t flaws s = _
    rw [execStitch, sends_ready hsends, issue_of_due hst, stitchIssue_starts hd hw hfree]
  case waits =>
    intro t flaws s u st d w v hsends hu hst hd hw hfree hv
    subst hu
    show execStitch t flaws s = _
    rw [execStitch, sends_ready hsends, issue_of_due hst, stitchIssue_waits hd hw hfree hv]
  case faults =>
    intro t flaws s u st c hsends hu hst hd
    subst hu
    show execStitch t flaws s = _
    rw [execStitch, sends_ready hsends, issue_of_due hst, stitchIssue_faults hd]
  case grant =>
    intro s e w hsends hown
    show execStitchEntryGrant s = _
    rw [execStitchEntryGrant, sends_ready hsends]
    simp only [entryGrant, hown]
  case pool =>
    intro s hsends hown
    show execStitchEntryGrant s = _
    rw [execStitchEntryGrant, sends_ready hsends]
    simp only [entryGrant, hown]
  case sends =>
    intro k part flaws s u dest hsends hu hdue hcopy hheld hdest
    subst hu
    show execStitchSegmentSend k part flaws s = _
    rw [execStitchSegmentSend, sends_ready hsends, segmentSendRow_sends hcopy, segmentSend_ready hdue hheld hdest]
  case unbound =>
    intro k part flaws s u hsends hu hdue hcopy hheld hdest
    subst hu
    show execStitchSegmentSend k part flaws s = _
    rw [execStitchSegmentSend, sends_ready hsends, segmentSendRow_sends hcopy, segmentSend_unbound hdue hheld hdest]
  case held =>
    intro k part flaws s u hsends hu hdue hcopy hnew hhold
    subst hu
    show execStitchSegmentSend k part flaws s = _
    rw [execStitchSegmentSend, sends_ready hsends, segmentSendRow_sends hcopy, segmentSend_held hdue hnew hhold]
  case copyFails =>
    intro k part flaws s u v hsends hu hcopy
    subst hu
    show execStitchSegmentSend k part flaws s = _
    rw [execStitchSegmentSend, sends_ready hsends]
    simp only [segmentSendRow, hcopy]
  case notDue =>
    intro k part flaws s u hsends hu hdue
    subst hu
    show execStitchSegmentSend k part flaws s = _
    rw [execStitchSegmentSend, sends_ready hsends, segmentSendRow_sends (copyReadFails_of_not_due hdue),
      segmentSend_still hdue]
  case release =>
    intro k s hsends hheld hfree
    refine (sends_ready hsends).trans (congrArg _ ?_)
    exact if_pos (by simp [hheld, hfree])
  case response =>
    intro s v p rest u q e part hsends hv hnext hu hq he hwait hgen hlen hcheck hpart hsent hdone
    show execStitchResponseReceive s = _
    rw [execStitchResponseReceive, sends_ready hsends,
      responseReceive_accepts hv hnext hu hq he hwait hgen hlen hcheck hpart hsent hdone]
  case timeout =>
    intro k s eye u v hsends hwait hnone hexp hu hv
    show execStitchTimeout k s = _
    rw [execStitchTimeout, sends_ready hsends, stitchTimeout_expires hwait hnone hexp hu hv]
  case quarantine =>
    intro k s n m hfed hq hcond hlong
    refine (fed_ready hfed).trans (congrArg _ ?_)
    simp only [quarantineEnd, hq]
    exact if_pos (by simp [hcond, hlong])

/-! The target. -/

theorem nextRequest_queued (h : s.fabric.inReq ≠ []) : nextRequest s = s := by
  refine if_pos ?_
  cases hreq : s.fabric.inReq with
  | nil => exact absurd hreq h
  | cons p l => rfl

/-- The next request with a good check word is served (R180). -/
theorem requestReceive_serves {flaws : List Flaw} {p : Pkt} {rest : List Pkt} {q : Request} (hv : v = nextRequest s)
    (hnext : v.fabric.inReq = p :: rest) (hu : u = inject flaws { v with fabric := { v.fabric with inReq := rest } })
    (hq : q = readRequest p.bytes)
    (hgood : (28 ≤ p.bytes.length && checkGood (foldPrefix (ownId u) q.seq q.dest) p.bytes) = true) :
    requestReceive flaws s = serveRequest p u := by
  unfold requestReceive
  dsimp only
  rw [← hv, hnext]
  dsimp only
  rw [← hu, ← hq]
  exact if_pos hgood

/-- One with a bad check word is dropped and counted (R194). -/
theorem requestReceive_drops {flaws : List Flaw} {p : Pkt} {rest : List Pkt} {q : Request} (hv : v = nextRequest s)
    (hnext : v.fabric.inReq = p :: rest) (hu : u = inject flaws { v with fabric := { v.fabric with inReq := rest } })
    (hq : q = readRequest p.bytes)
    (hbad : (28 ≤ p.bytes.length && checkGood (foldPrefix (ownId u) q.seq q.dest) p.bytes) = false) :
    requestReceive flaws s = raiseLimited 0x4081 2 p.src (ticksMs 100) 1 (fun n => [word p.src, word p.cls, word n])
      { u with stitch := { u.stitch with counts := tset 0 u.stitch.counts 1 (tget 0 u.stitch.counts 1 + 1) } } := by
  unfold requestReceive
  dsimp only
  rw [← hv, hnext]
  dsimp only
  rw [← hu, ← hq]
  exact if_neg (by rw [hbad]; decide)

theorem requestReceive_none {flaws : List Flaw} (hnone : (nextRequest s).fabric.inReq = []) :
    requestReceive flaws s = nextRequest s := by
  simp only [requestReceive, hnone]

/-- STITCH_REQUEST_RECEIVE of a module that serves requests. -/
theorem exec_stitchRequestReceive {flaws : List Flaw} (hserving : serving s = true) (hfed : s.power.failing = false) :
    exec (.stitchRequestReceive flaws) s = .next (requestReceive flaws s) := by
  show execStitchRequestReceive flaws s = _
  rw [execStitchRequestReceive, fed_ready ⟨alive_of_serving hserving, hfed⟩, if_pos hserving]

section Serving

variable {p : Pkt} {q : Request}

theorem serveRequest_halted (hq : q = readRequest p.bytes) (hst : s.glb.state = .halted) :
    serveRequest p s = refuse p q 3 s := by
  subst hq
  exact if_pos hst

theorem serveRequest_badSpace (hq : q = readRequest p.bytes) (hst : s.glb.state ≠ .halted) (hspace : badSpace q = true) :
    serveRequest p s = refuse p q 4 s := by
  subst hq
  exact (if_neg hst).trans (if_pos hspace)

/-- A request for a good space goes by the place it is bound to here (R197). -/
theorem serveRequest_bound (hq : q = readRequest p.bytes) (hst : s.glb.state ≠ .halted) (hspace : badSpace q = false) :
    serveRequest p s = match boundPlace p q s with
      | none => refuse p q 1 s
      | some pl => match pageWaits q pl s with
        | some _ => holdRequest p q pl s
        | none => applyRequest p q pl s := by
  subst hq
  exact (if_neg hst).trans (if_neg (by rw [hspace]; decide))

end Serving

/-- Settles O38, by the checks of a request in their order. -/
theorem stitchTarget : Obligations.StitchTarget := by
  unfold Obligations.StitchTarget
  refine ⟨?halted, ?space, ?unbound, ?held, ?applied, ?badCheck, ?none, ?idle, fun s => nextRequest_queued⟩
  case halted =>
    intro flaws s v p rest u q hserving hfed hv hnext hu hq hgood hst
    rw [exec_stitchRequestReceive hserving hfed, requestReceive_serves hv hnext hu hq hgood, serveRequest_halted hq hst]
  case space =>
    intro flaws s v p rest u q hserving hfed hv hnext hu hq hgood hst hspace
    rw [exec_stitchRequestReceive hserving hfed, requestReceive_serves hv hnext hu hq hgood,
      serveRequest_badSpace hq hst hspace]
  case unbound =>
    intro flaws s v p rest u q hserving hfed hv hnext hu hq hgood hst hspace hplace
    rw [exec_stitchRequestReceive hserving hfed, requestReceive_serves hv hnext hu hq hgood,
      serveRequest_bound hq hst hspace, hplace]
  case held =>
    intro flaws s v p rest u q pl k hserving hfed hv hnext hu hq hgood hst hspace hplace hpage
    rw [exec_stitchRequestReceive hserving hfed, requestReceive_serves hv hnext hu hq hgood,
      serveRequest_bound hq hst hspace, hplace]
    simp only [hpage]
  case applied =>
    intro flaws s v p rest u q pl hserving hfed hv hnext hu hq hgood hst hspace hplace hpage
    rw [exec_stitchRequestReceive hserving hfed, requestReceive_serves hv hnext hu hq hgood,
      serveRequest_bound hq hst hspace, hplace]
    simp only [hpage]
  case badCheck =>
    intro flaws s v p rest u q hserving hfed hv hnext hu hq hbad
    rw [exec_stitchRequestReceive hserving hfed, requestReceive_drops hv hnext hu hq hbad]
  case none =>
    intro flaws s v hserving hfed hv hnone
    subst hv
    rw [exec_stitchRequestReceive hserving hfed, requestReceive_none hnone]
  case idle =>
    intro flaws s hfed hserving
    show execStitchRequestReceive flaws s = _
    rw [execStitchRequestReceive, fed_ready hfed, if_neg (by rw [hserving]; decide)]

end Sys2Proof.Machine
end

section
/-! PROOFS. Moving a region: copy, drain, flip, release, and an import that follows it (R155, R250 to R253). -/

namespace Sys2Proof.Machine

variable {s v w : State} {m : Move}

theorem copyDone_iff : copyDone m s = true ↔ m.todo = [] ∧ (∀ w ∈ s.stitch.waitList, w.purpose ≠ 5) ∧
    ∀ p ∈ s.stitch.table, p.2.purpose = 5 → incomplete p.2 = false := by
  simp [copyDone, and_assoc]

/-- A region that is copied whole goes to drain on every module of the job (R250, R251). -/
theorem moveCopyComplete_drains (hmove : s.place.move = some m) (hphase : m.phase = 1) (hdone : copyDone m s = true)
    (hv : v = holdWrites m.job m.region (rmMod m.job m.region (fun e => { e with move := 2 }) s)) :
    moveCopyComplete s = sendUpdates m.job m.region 2 m.oldBase m.newBase { v with
      place := { v.place with move := v.place.move.map (fun m =>
        { m with phase := 2, drainAt := v.clk, waiting := ownId v :: otherModules m.job v }) } } := by
  have hgo : ¬ (decide (m.phase ≠ 1) || !copyDone m s) = true := by simp [hphase, hdone]
  unfold moveCopyComplete
  simp only [hmove]
  rw [← hv]
  exact if_neg hgo

theorem moveCopyComplete_still (h : s.place.move = none ∨ ∃ m, s.place.move = some m ∧ (m.phase ≠ 1 ∨ copyDone m s = false)) :
    moveCopyComplete s = s := by
  obtain h | ⟨m, hmove, h⟩ := h
  · simp only [moveCopyComplete, h]
  · simp only [moveCopyComplete, hmove]
    exact if_pos (by simpa using h)

/-! Yarler copies in puts of at most 64 KiB (R251). -/

theorem copyAsk_last {off n : Nat} {l : List (Nat × Nat)} (hmove : s.place.move = some m) (htodo : m.todo = (off, n) :: l)
    (hn : n ≤ 65536) :
    copyAsk s = askPool 65 5
      { op := 1, phys := true, cls := 3, source := 2, len := n, target := (m.newBase + off : Nat), localPa := m.oldBase + off }
      { s with place := { s.place with move := some { m with todo := l } } } := by
  simp only [copyAsk, hmove, htodo, if_pos hn, Nat.min_eq_left hn]

theorem copyAsk_more {off n : Nat} {l : List (Nat × Nat)} (hmove : s.place.move = some m) (htodo : m.todo = (off, n) :: l)
    (hn : 65536 < n) :
    copyAsk s = askPool 65 5
      { op := 1, phys := true, cls := 3, source := 2, len := 65536, target := (m.newBase + off : Nat), localPa := m.oldBase + off }
      { s with
        place := { s.place with move := some { m with todo := (off + 65536, n - 65536) :: l } } } := by
  simp only [copyAsk, hmove, htodo, if_neg (Nat.not_le.mpr hn), Nat.min_eq_right (Nat.le_of_lt hn)]

/-! The acknowledgements of drain. -/

section Drain

variable {n : Nat}

/-- An acknowledgement that does not count. -/
theorem moveDrainAck_still (h : s.place.move = none ∨ ∃ m, s.place.move = some m ∧
    (m.phase ≠ 2 ∨ m.waiting.contains n = false ∨ (n = ownId s ∧ writesInFlight m.job m.region s = true))) :
    moveDrainAck n s = s := by
  obtain h | ⟨m, hmove, h⟩ := h
  · simp only [moveDrainAck, h]
  · simp only [moveDrainAck, hmove]
    refine if_pos ?_
    obtain h | h | ⟨hn, h⟩ := h
    · simp [h]
    · rw [h]
      simp
    · simp [← hn, h]

/-- An acknowledgement that counts is crossed off; with the last one the marked granules are copied again (R252). -/
theorem moveDrainAck_counts (hmove : s.place.move = some m) (hphase : m.phase = 2) (hwaits : m.waiting.contains n = true)
    (hmine : n ≠ ownId s ∨ writesInFlight m.job m.region s = false) :
    moveDrainAck n s = if !(m.waiting.filter (· ≠ n)).isEmpty
      then { s with place := { s.place with move := some { m with waiting := m.waiting.filter (· ≠ n) } } }
      else copyAsk { s with
        place := { s.place with
          move := some { m with
            waiting := [], phase := 3, todo := markedRanges m (match rmLookup m.job m.region s with
              | some e => e.size
              | none => 0) } } } := by
  have hgo : ¬ (decide (m.phase ≠ 2) || !m.waiting.contains n ||
      (decide (n = ownId s) && writesInFlight m.job m.region s)) = true := by
    rw [hwaits]
    obtain h | h := hmine <;> simp [hphase, h]
  simp only [moveDrainAck, hmove]
  rw [if_neg hgo] <;> rfl

end Drain

/-! The flip. -/

/-- The flip binds the new place, tells the other modules and lets the windows that waited go on (R253). -/
theorem moveFlip_binds {n : Nat} {u : State} (hw : w = rmMod m.job m.region (fun e =>
      { e with move := 0, base := m.newBase, newBase := 0, place := if pgaSpace m.newBase = 1 then 1 else 2, lost := false }) s)
    (hu : u = match regionOf m.job m.region w with
      | some x => setRegion m.job m.region (some { x with base := some m.newBase, pin := repin x.pin m.newBase }) w
      | none => w)
    (hn : n = match rmLookup m.job m.region s with
      | some e => e.size
      | none => 0)
    (hmove : s.place.move = some m) (hphase : m.phase = 3) (hdone : copyDone m s = true) (hdrain : s.resil.draining = none)
    (hv : v = { u with
      place := { u.place with
        move := none
        settling := u.place.settling ++ [{ job := m.job, region := m.region, oldBase := m.oldBase, size := n, flipAt := u.clk,
                                           waiting := otherModules m.job u, lastAck := u.clk }] } }) :
    moveFlip s = retryWindows (raise 0x3023 1 ([word m.job, word m.region] ++ dwords m.newBase
        ++ [word (heldByDrain m.job m.region s), word ((m.drainAt - m.copyAt) / 500),
            word (since m.drainAt (sendUpdates m.job m.region 0 m.newBase 0 v) / 500)])
        (sendUpdates m.job m.region 0 m.newBase 0 v)) := by
  have hgo : ¬ (decide (m.phase ≠ 3) || !copyDone m s || s.resil.draining.isSome) = true := by simp [hphase, hdone, hdrain]
  rw [hv, hu, hw, hn]
  simp only [moveFlip, hmove]
  exact if_neg hgo

theorem moveFlip_still (h : s.place.move = none ∨ ∃ m, s.place.move = some m ∧
    (m.phase ≠ 3 ∨ copyDone m s = false ∨ s.resil.draining ≠ none)) : moveFlip s = s := by
  obtain h | ⟨m, hmove, h⟩ := h
  · simp only [moveFlip, h]
  · simp only [moveFlip, hmove]
    exact if_pos (by simpa [or_assoc, Option.isSome_iff_ne_none] using h)

/-! The modules that are late. -/

theorem moveDrainTimeout_aborts {n : Nat} {l : List Nat} (hmove : s.place.move = some m) (hphase : m.phase = 2)
    (hwaits : m.waiting = n :: l) (hlate : ticksMs 50 ≤ since m.drainAt s) : moveDrainTimeout s = moveAbort 1 n s := by
  simp only [moveDrainTimeout, hmove, hwaits]
  exact if_pos (by simp [hphase, hlate])

theorem moveDrainTimeout_still (h : s.place.move = none ∨ ∃ m, s.place.move = some m ∧
    (m.phase ≠ 2 ∨ m.waiting = [] ∨ since m.drainAt s < ticksMs 50)) : moveDrainTimeout s = s := by
  unfold moveDrainTimeout
  split
  next => rfl
  next m hmove =>
    obtain ⟨m', hmove', h⟩ := h.resolve_left (by simp [hmove])
    cases hmove.symm.trans hmove'
    split
    next n l hwaits =>
      refine if_neg ?_
      obtain h | h | h := h
      · simp [h]
      · simp [h] at hwaits
      · simp [h]
    next => rfl

theorem moveFlipAckTimeout_tells {late : Settle → Option Nat} {x : Settle} {n : Nat}
    (hlate : late = fun x => if ticksMs 50 ≤ since x.flipAt s then x.waiting.find? (fun m => !x.told.contains m) else none)
    (hfind : s.place.settling.find? (fun x => (late x).isSome) = some x) (hn : late x = some n) :
    moveFlipAckTimeout s = raise 0x3026 2 [word x.job, word x.region, word n] { s with
      place := { s.place with
        settling := modFirst (fun y => (late y).isSome) (fun y => { y with told := y.told ++ [n] }) s.place.settling } } := by
  subst hlate
  dsimp only at hfind hn
  simp only [moveFlipAckTimeout, hfind, hn]

theorem moveFlipAckTimeout_still (h : s.place.settling.all (fun x =>
    decide (since x.flipAt s < ticksMs 50) || x.waiting.all (fun m => x.told.contains m)) = true) :
    moveFlipAckTimeout s = s := by
  have hnone : s.place.settling.find? (fun x => ((if ticksMs 50 ≤ since x.flipAt s then
      x.waiting.find? (fun m => !x.told.contains m) else none : Option Nat)).isSome) = none := by
    refine List.find?_eq_none.mpr fun x hx => ?_
    obtain hshort | htold := Bool.or_eq_true _ _ ▸ List.all_eq_true.mp h x hx
    · rw [if_neg (Nat.not_le.mpr (of_decide_eq_true hshort))]
      simp
    · split
      · rw [List.find?_eq_none.mpr fun n hn => by simpa using List.all_eq_true.mp htold n hn]
        simp
      · simp
  unfold moveFlipAckTimeout
  dsimp only
  rw [hnone]

/-! An import follows the updates of its home module (R252, R253). -/

section Update

variable {u : MoveUpdate} {j k : Nat} {e : RmEntry}

/-- MOVE_UPDATE_RECEIVE of a module that serves requests and does not stand in Halted. -/
theorem exec_moveUpdateReceive (hserving : serving s = true) (hst : s.glb.state ≠ .halted) :
    exec (.moveUpdateReceive u) s = .next (moveUpdateReceive u s) := by
  show execMoveUpdateReceive u s = _
  rw [execMoveUpdateReceive, live_alive (alive_of_serving hserving), if_neg (by rw [hserving]; decide), if_neg hst]

theorem moveUpdateReceive_copies (hjob : jobOfTag u.jobTag s = some j) (hk : k = u.region.toNat)
    (he : rmLookup j k s = some e) (hremote : e.remote = true) (hhome : pgaModule e.base = u.fromModule.toNat)
    (hphase : u.phase = 1) :
    moveUpdateReceive u s = rmMod j k (fun e => { e with move := 1, newBase := u.newBase.toNat }) s := by
  have h0 : ¬ u.phase = 0 := by rw [hphase]; decide
  have h2 : ¬ u.phase = 2 := by rw [hphase]; decide
  subst hk
  simp only [moveUpdateReceive, hjob, he, hremote, hhome, if_pos hphase, if_neg h0, if_neg h2, decide_true, Bool.and_true,
    if_true]
  split <;> rfl

theorem moveUpdateReceive_drains (hjob : jobOfTag u.jobTag s = some j) (hk : k = u.region.toNat)
    (he : rmLookup j k s = some e) (hremote : e.remote = true) (hhome : pgaModule e.base = u.fromModule.toNat)
    (hphase : u.phase = 2)
    (hv : v = holdWrites j k (rmMod j k (fun e => { e with move := 2, newBase := u.newBase.toNat }) s)) :
    moveUpdateReceive u s = sendAcks { v with
      place := { v.place with owedAcks := v.place.owedAcks ++ [(u.fromModule.toNat, u.jobTag, k)] } } := by
  have h0 : ¬ u.phase = 0 := by rw [hphase]; decide
  have h1 : ¬ u.phase = 1 := by rw [hphase]; decide
  subst hk
  simp only [moveUpdateReceive, hjob, he, hremote, hhome, if_pos hphase, if_neg h0, if_neg h1, decide_true, Bool.and_true,
    if_true]
  rw [← hv]
  cases regionOf j u.region.toNat v <;> rfl

theorem moveUpdateReceive_flips (hw : w = match regionOf j k v with
      | some x => setRegion j k (some { x with imported := some u.base.toNat }) v
      | none => v)
    (hjob : jobOfTag u.jobTag s = some j) (hk : k = u.region.toNat)
    (he : rmLookup j k s = some e) (hremote : e.remote = true) (hhome : pgaModule e.base = u.fromModule.toNat)
    (hphase : u.phase = 0)
    (hv : v = rmMod j k (fun e => { e with
      move := 0, base := u.base.toNat, newBase := 0, place := if pgaSpace u.base.toNat = 1 then 1 else 2 }) s) :
    moveUpdateReceive u s = sendAck u.fromModule.toNat u.jobTag k 0 { w with
      place := { w.place with owedAcks := w.place.owedAcks.filter (fun a =>
        !(a.1 = u.fromModule.toNat && a.2.1 = u.jobTag && a.2.2 = k)) } } := by
  have h1 : ¬ u.phase = 1 := by rw [hphase]; decide
  have h2 : ¬ u.phase = 2 := by rw [hphase]; decide
  subst hk
  simp only [moveUpdateReceive, hjob, he, hremote, hhome, if_pos hphase, if_neg h1, if_neg h2, decide_true, Bool.and_true,
    if_true]
  rw [← hv, hw] <;> rfl

end Update

/-- Settles O40, command by command. -/
theorem moveCommands : Obligations.MoveCommands := by
  unfold Obligations.MoveCommands
  refine ⟨?copied, ?copying, fun m s => copyDone_iff, fun s m off n l => copyAsk_last, fun s m off n l => copyAsk_more,
    ?ack, ?lastAck, ?ackStill, ?flip, ?flipStill, ?flipAck, ?release, ?timeout, ?timeoutStill, ?late, ?lateStill,
    ?update, ?halted⟩
  case copied =>
    intro flaws s t m v halive ht hmove hphase hdone hv
    subst ht
    show execMoveCopyComplete flaws s = _
    rw [execMoveCopyComplete, live_alive halive, moveCopyComplete_drains hmove hphase hdone hv]
  case copying =>
    intro flaws s t halive ht h
    subst ht
    show execMoveCopyComplete flaws s = _
    rw [execMoveCopyComplete, live_alive halive, moveCopyComplete_still h]
  case ack =>
    intro n flaws s t m halive ht hmove hphase hwaits hmine hleft
    subst ht
    show execMoveDrainAck n flaws s = _
    rw [execMoveDrainAck, live_alive halive, moveDrainAck_counts hmove hphase hwaits hmine]
    exact congrArg _ (if_pos (by simpa using hleft))
  case lastAck =>
    intro n flaws s t m k halive ht hmove hphase hwaits hmine hleft hk
    subst ht hk
    show execMoveDrainAck n flaws s = _
    rw [execMoveDrainAck, live_alive halive, moveDrainAck_counts hmove hphase hwaits hmine]
    exact congrArg _ (if_neg (by rw [hleft]; decide))
  case ackStill =>
    intro n flaws s t halive ht h
    subst ht
    show execMoveDrainAck n flaws s = _
    rw [execMoveDrainAck, live_alive halive, moveDrainAck_still h]
  case flip =>
    intro s m n w u v halive hmove hphase hdone hdrain hn hw hu hv
    exact (live_alive halive).trans (congrArg _ (moveFlip_binds hw hu hn hmove hphase hdone hdrain hv))
  case flipStill =>
    intro s halive h
    exact (live_alive halive).trans (congrArg _ (moveFlip_still h))
  case flipAck =>
    intro n s halive
    exact live_alive halive
  case release =>
    intro s due halive hdue
    subst hdue
    refine (live_alive halive).trans (congrArg _ ?_)
    unfold moveOldPlaceRelease
    dsimp only
    generalize s.place.settling.find? _ = found
    cases found <;> rfl
  case timeout =>
    intro s m n l halive hmove hphase hwaits hlate
    exact (live_alive halive).trans (congrArg _ (moveDrainTimeout_aborts hmove hphase hwaits hlate))
  case timeoutStill =>
    intro s halive h
    exact (live_alive halive).trans (congrArg _ (moveDrainTimeout_still h))
  case late =>
    intro s late x n halive hlate hfind hn
    exact (live_alive halive).trans (congrArg _ (moveFlipAckTimeout_tells hlate hfind hn))
  case lateStill =>
    intro s halive h
    exact (live_alive halive).trans (congrArg _ (moveFlipAckTimeout_still h))
  case update =>
    intro u s j k e hserving hst hjob hk he hremote hhome
    rw [exec_moveUpdateReceive hserving hst]
    refine ⟨?copies, ?drains, ?flips⟩
    case copies =>
      intro hphase
      rw [moveUpdateReceive_copies hjob hk he hremote hhome hphase]
    case drains =>
      intro hphase v hv
      rw [moveUpdateReceive_drains hjob hk he hremote hhome hphase hv]
    case flips =>
      intro hphase v w hv hw
      rw [moveUpdateReceive_flips hw hjob hk he hremote hhome hphase hv]
  case halted =>
    intro u s hserving hst
    show execMoveUpdateReceive u s = _
    rw [execMoveUpdateReceive, live_alive (alive_of_serving hserving), if_neg (by rw [hserving]; decide), if_pos hst]

end Sys2Proof.Machine
end

section
/-! PROOFS. Lanes and units: hellos, lock, errors, retries, training and relace (R262 to R288). -/

namespace Sys2Proof.Machine

variable {s v w : State} {u n : Nat}

/-! Hellos. -/

theorem helloSend_torus (hu : u < 6) (hn : n < 8) (htrained : (unitOf s u).trained = true) :
    helloSend u n s = lineOut u n (frameHeader 0 0 511 3 0 0) (helloBody u n s) (bump u 0 1 s) := by
  simp [helloSend, hu, hn, htrained]

theorem helloSend_optical (hu : 6 ≤ u) (hon : s.welt.powered = true) (hlaced : (laceOf s.welt.active n).isSome = true)
    (hlane : hasLane u n s = true) :
    helloSend u n s = useFresh 1 (lineOut u n (frameHeader 0 0 511 3 0 0) (helloBody u n s) (bump u 0 1 s)) := by
  simp [helloSend, Nat.not_lt.mpr hu, hon, hlaced, hlane]

/-- A laced lane that no eyelet has sends its hello under a free unit (R262). -/
theorem helloSend_eyeless (heyeless : (List.range 16).all (fun e => match eyeletOf s e with
      | some x => !bit x.lanes n
      | none => true) = true)
    (hu : 6 ≤ u) (hon : s.welt.powered = true) (hlaced : (laceOf s.welt.active n).isSome = true)
    (hlane : hasLane u n s = false) :
    helloSend u n s = useFresh 1 (lineOut u n (frameHeader 0 0 511 3 0 0) (helloBody u n s) s) := by
  unfold helloSend
  dsimp only
  rw [if_neg (Nat.not_lt.mpr hu), hon, hlaced, hlane]
  exact if_pos heyeless

theorem helloSend_still (h : (u < 6 ∧ (8 ≤ n ∨ (unitOf s u).trained = false)) ∨
    (6 ≤ u ∧ (s.welt.powered = false ∨ laceOf s.welt.active n = none))) : helloSend u n s = s := by
  obtain ⟨hu, h⟩ | ⟨hu, h⟩ := h
  · obtain h | h := h
    · simp [helloSend, hu, Nat.not_lt.mpr h]
    · simp [helloSend, hu, h]
  · obtain h | h := h <;> simp [helloSend, Nat.not_lt.mpr hu, h]

theorem hasLane_bump {u' i k : Nat} : hasLane u n (bump u' i k s) = hasLane u n s := rfl

theorem laneOf_bump {u' i k key : Nat} : laneOf (bump u' i k s) key = laneOf s key := rfl

/-- A hello on a lane out of service that is not being tried is only counted (R265). -/
theorem helloReceive_ignored {body : List Byte} (hlane : hasLane u n s = true) (hout : (laneOf s (laneKey u n)).svc = .out)
    (htried : (laneOf s (laneKey u n)).tried = false) : helloReceive u n body s = bump u 1 1 s := by
  simp [helloReceive, hello, hasLane_bump, laneOf_bump, hlane, hout, htried]

/-- A hello that is taken is kept, and compared with the plan (R265, R267). -/
theorem helloReceive_taken {body : List Byte} {l : Lane} {m : Nat} (hlane : hasLane u n s = true)
    (hl : l = laneOf s (laneKey u n)) (htaken : l.svc ≠ .out ∨ l.tried = true) (hm : m = leNat (body.take 2))
    (hv : v = modUnit u (fun x => { x with seenModule := m, seenUnit := leNat ((body.drop 2).take 1) })
      (setLane (laneKey u n) { l with hello := true, seenModule := m, seenUnit := leNat ((body.drop 2).take 1),
                                      seenLane := leNat ((body.drop 3).take 1) } (bump u 1 1 s)))
    (hw : w = evalUnit 0x4001 u (forAll (unitLanes u v) (fun k w =>
        modLane (laneKey u k) (fun l => { l with heard := leNat ((body.drop 8).take 4) / 2 ^ k % 2 = 1 }) w) v)) :
    helloReceive u n body s =
      if ((m, leNat ((body.drop 2).take 1)) = expected u v ∧ m ≠ 0xFFFF) ∨ unitPlanned u v = false then
        (if u < 6 then w else forAll (List.range 4) (fun c w => modUnit u (fun x => { x with
          freedSeen := tset 0 x.freedSeen c (word (leNat ((body.drop (12 + 4 * c)).take 4))) }) w) w)
      else if m ≠ 0xFFFF ∧ l.svc = .inService then laneOutOfService u n 4 v
      else evalUnit 0x4003 u v := by
  have hgo : ¬ (!hasLane u n (bump u 1 1 s) || (decide (l.svc = .out) && !l.tried)) = true := by
    rw [hasLane_bump, hlane]
    obtain h | h := htaken <;> simp [h]
  unfold helloReceive hello
  dsimp only
  rw [if_pos hlane, laneOf_bump, ← hl, if_neg hgo, ← hm, ← hv, ← hw]
  simp only [Bool.or_eq_true, Bool.and_eq_true, decide_eq_true_iff, Bool.not_eq_true']

/-! Lock. -/

theorem laneLockGained_lane {l : Lane} (hlane : hasLane u n s = true) (hl : l = laneOf s (laneKey u n))
    (hv : v = if 6 ≤ u ∧ l.locked = true ∧ l.lock = false then bump u 5 1 s else s) :
    laneLockGained u n s = evalUnit 0x4001 u (setLane (laneKey u n) { l with
      lock := true, locked := true, lockAt := if l.lock then l.lockAt else s.clk,
      svc := if l.svc = .idle ∧ laneLive u n s = true then .inService else l.svc } v) := by
  have hlive : laneLive u n v = laneLive u n s := by
    rw [hv]
    split
    next hout =>
      have htorus : ¬ u < 6 := Nat.not_lt.mpr hout.1
      simp only [laneLive, if_neg htorus]
      rfl
    next => rfl
  have hclk : v.clk = s.clk := by
    rw [hv]
    split <;> rfl
  have hcond : (if 6 ≤ u && l.locked && !l.lock then bump u 5 1 s else s) = v := by
    rw [hv]
    simp only [Bool.and_eq_true, decide_eq_true_iff, Bool.not_eq_true', and_assoc]
  unfold laneLockGained
  dsimp only
  rw [if_pos hlane, ← hl, hcond, hlive, hclk]
  simp only [Bool.and_eq_true, decide_eq_true_iff]

theorem laneLockGained_noLane (hlane : hasLane u n s = false) : laneLockGained u n s =
    if 6 ≤ u then setLane (laneKey u n) { laneOf s (laneKey u n) with lock := true, locked := true, lockAt := s.clk } s
    else s := by
  simp [laneLockGained, hlane]

/-- A lane in use, past the 5 ms that a relace may take, is judged (R267). -/
theorem laneLockTimeout_judges {deaf : Bool} {l : Lane} (hlane : hasLane u n s = true) (hlive : laneLive u n s = true)
    (hl : l = laneOf s (laneKey u n)) (hsvc : l.svc ≠ .out) (hquiet : ∀ t, l.quiet = some t → 5000000 ≤ siteDiff (siteNow s) t)
    (hv : v = modLane (laneKey u n) (fun l => { l with lock := false, hello := false }) s) :
    laneLockTimeout u n deaf s =
      if deaf then (if l.svc = .inService ∧ l.heard = false ∧ l.deaf = false then sendingOut u n s else s)
      else if (unitLanes u s).any (fun k => k ≠ n && (laneOf s (laneKey u k)).lock) = true ∨ l.quiet ≠ none
        then laneOutOfService u n 1 v else evalUnit 0x4005 u v := by
  unfold laneLockTimeout
  dsimp only
  rw [← hl, ← hv]
  refine (if_neg ?judged).trans ?_
  case judged =>
    rw [hlane, hlive, decide_eq_false hsvc]
    split
    next t ht => simpa using hquiet t ht
    next => decide
  by_cases hany : (unitLanes u s).any (fun k => k ≠ n && (laneOf s (laneKey u k)).lock) = true
  · simp only [hany, true_or, if_true, Bool.and_eq_true, decide_eq_true_iff, Bool.not_eq_true', and_assoc]
  · simp only [hany, false_or, Bool.false_eq_true, if_false, Bool.and_eq_true, decide_eq_true_iff, Bool.not_eq_true', and_assoc,
      Option.isSome_iff_ne_none]

theorem laneLockTimeout_still {deaf : Bool} (h : hasLane u n s = false ∨ laneLive u n s = false ∨
    (laneOf s (laneKey u n)).svc = .out ∨ ∃ t, (laneOf s (laneKey u n)).quiet = some t ∧ siteDiff (siteNow s) t < 5000000) :
    laneLockTimeout u n deaf s = s := by
  refine if_pos ?_
  obtain h | h | h | ⟨t, ht, h⟩ := h
  · simp [h]
  · simp [h]
  · simp [h]
  · simp [ht, h]

/-! Errors, the retry of a lane and its return (R285 to R288). -/

theorem laneErrorCheck_judges {unc corr recv : Nat} (hlane : hasLane u n s = true)
    (hsvc : (laneOf s (laneKey u n)).svc = .inService)
    (hv : v = if unc = 0 then s else setLane (laneKey u n) { laneOf s (laneKey u n) with badAt := some s.clk } s) :
    laneErrorCheck u n unc corr recv s = if 16 < unc then laneOutOfService u n 2 v
      else if recv < 10000 * corr then laneOutOfService u n 3 v else v := by
  have hbad : (if unc ≠ 0 && hasLane u n s then
      setLane (laneKey u n) { laneOf s (laneKey u n) with badAt := some s.clk } s else s) = v := by
    rw [hv, hlane]
    by_cases h : unc = 0 <;> simp [h]
  have hlane' : hasLane u n v = true := by
    rw [hv]
    split <;> exact hlane
  unfold laneErrorCheck
  dsimp only
  rw [hbad]
  exact if_neg (by simp [hlane', hsvc])

theorem laneErrorCheck_noLane {unc corr recv : Nat} (hlane : hasLane u n s = false) : laneErrorCheck u n unc corr recv s = s := by
  simp [laneErrorCheck, hlane]

theorem laneRetry_eq {l : Lane} {q : Bool} (hl : l = laneOf s (laneKey u n))
    (hq : q = (hasLane u n s && (decide (l.svc = .out) || l.deaf) && decide (ticksS 10 ≤ since l.outAt s))) :
    laneRetry u n s = if q then setLane (laneKey u n) { l with tried := true, outAt := s.clk } s else s := by
  subst hl hq
  rfl

theorem laneReturn_returns {l x : Lane} (hx : x = { l with
      svc := .inService, deaf := false, tried := false, quiet := (match l.quiet with
        | some t => if reached t s then none else some t
        | none => none) })
    (hlane : hasLane u n s = true) (hl : l = laneOf s (laneKey u n)) (hout : l.svc = .out ∨ l.deaf = true)
    (htried : l.tried = true) (hlock : l.lock = true) (hlong : ticksS 1 ≤ since l.lockAt s)
    (hclean : ∀ t, l.badAt = some t → ticksS 1 ≤ since t s) :
    laneReturn u n s = evalUnit 0x4006 u (raise 0x4006 1 [word u, word n] (setLane (laneKey u n) x s)) := by
  have hout' : (decide (l.svc = .out) || l.deaf) = true := by simpa using hout
  subst hx
  unfold laneReturn
  dsimp only
  rw [← hl]
  refine if_pos ?_
  rw [hlane, hout', htried, hlock, decide_eq_true hlong]
  split
  next t ht => simpa using hclean t ht
  next => rfl

theorem laneReturn_still {l : Lane} (hl : l = laneOf s (laneKey u n)) (h : hasLane u n s = false ∨
    (l.svc ≠ .out ∧ l.deaf = false) ∨ l.tried = false ∨ l.lock = false ∨ since l.lockAt s < ticksS 1 ∨
    ∃ t, l.badAt = some t ∧ since t s < ticksS 1) : laneReturn u n s = s := by
  subst hl
  refine if_neg ?_
  obtain h | ⟨hsvc, hdeaf⟩ | h | h | h | ⟨t, ht, h⟩ := h
  · simp [h]
  · simp [hsvc, hdeaf]
  · simp [h]
  · simp [h]
  · simp [Nat.not_le.mpr h]
  · simp [ht, Nat.not_le.mpr h]

/-! Units. -/

theorem unitMissing_raises {t : Nat} (ht : (unitOf s u).badSince = some t) (hnew : (unitOf s u).missing = false)
    (hlong : ticksMs 1 ≤ since t s) (hgrace : (unitOf s u).graceEnd ≤ s.clk) :
    unitMissing u s = reevaluate 0x4002 (raise 0x4002 2 [word u, word (unitOf s u).state, word (unitOf s u).seenModule]
      (setUnit u { unitOf s u with missing := true } s)) := by
  unfold unitMissing
  dsimp only
  split
  next t' ht' =>
    cases ht.symm.trans ht'
    exact if_pos (by simp [hnew, hlong, hgrace])
  next hnone => exact absurd (ht.symm.trans hnone) (by simp)

theorem unitMissing_still (h : (unitOf s u).missing = true ∨ s.clk < (unitOf s u).graceEnd ∨
    ∀ t, (unitOf s u).badSince = some t → since t s < ticksMs 1) : unitMissing u s = s := by
  unfold unitMissing
  dsimp only
  split
  next t ht =>
    refine if_neg ?_
    obtain h | h | h := h
    · simp [h]
    · simp [Nat.not_le.mpr h]
    · simp [Nat.not_le.mpr (h t ht)]
  next => rfl

/-- A port that has trained for the first time puts its eight lanes into service (R287). -/
theorem linkTrainingComplete_trains {p : Nat} (hnew : (unitOf s p).retrainAt = none)
    (hv : v = setUnit p { unitOf s p with trained := true } s) :
    linkTrainingComplete p true s = evalUnit 0x4001 p (linkFresh p (forAll (List.range 8)
      (fun n w => modLane (8 * p + n) (fun _ => { lock := true, lockAt := v.clk, svc := .inService }) w) v)) := by
  unfold linkTrainingComplete
  dsimp only
  split
  next t _ ht _ => exact absurd (hnew.symm.trans ht) (by simp)
  next => rw [← hv]
  next hfalse => exact absurd hfalse (by simp)

/-- A port that has trained again says so, and resends what it was asked for (R287). -/
theorem linkTrainingComplete_retrains {p k : Nat} {u : State} (hk : (unitOf s p).retrainAt = some k)
    (hu : u = setUnit p { unitOf s p with retrainAt := none } s)
    (hv : v = forAll (List.range 8) (fun n w => modLane (8 * p + n) (fun l => { l with lock := true, lockAt := u.clk }) w) u)
    (hw : w = evalUnit 0x400A p (raise 0x400A 1 [word p, 1, word (since k v / 500)] v)) :
    linkTrainingComplete p true s = match (unitOf s p).replay with
      | some r => resend p r.1 w
      | none => w := by
  have hclk : u.clk = s.clk := by
    rw [hu]
    rfl
  rw [hclk] at hv
  unfold linkTrainingComplete
  dsimp only
  rw [← hu, ← hv]
  split
  next t _ ht _ =>
    cases hk.symm.trans ht
    rw [← hw]
    cases (unitOf s p).replay <;> rfl
  next hnone _ => exact absurd (hk.symm.trans hnone) (by simp)
  next hfalse => exact absurd hfalse (by simp)

theorem linkTrainingComplete_fails {p : Nat} : linkTrainingComplete p false s =
    evalUnit 0x4005 p (forAll (List.range 8) (fun n u => modLane (8 * p + n) (fun _ => {}) u)
      (setUnit p { unitOf s p with trained := false, retrainAt := none } s)) := by
  unfold linkTrainingComplete
  dsimp only
  split
  next htrue => exact absurd htrue (by simp)
  next htrue => exact absurd htrue (by simp)
  next => rfl

/-! A relace and the lanes it touches (R286). -/

theorem relaceQuiesce_quiesces {q : BitVec 16} {i : Nat} {e : Entry} {u : State}
    (hfind : s.sched.entries.find? (fun e => e.2.st = .armed && e.2.action = 1 && e.2.seq = q && !e.2.quiesced) = some (i, e))
    (hnear : -100000 ≤ siteDiff (siteNow s) e.instant) (hu : u = setSched i { e with quiesced := true } s) :
    relaceQuiesce q s = forAll (u.welt.shadowLanes)
      (fun n v => modLane (48 + n) (fun l => { l with quiet := some e.instant }) v) u := by
  subst hu
  simp only [relaceQuiesce, hfind]
  exact if_pos hnear

theorem relaceQuiesce_still {q : BitVec 16} (h : ∀ i e, s.sched.entries.find? (fun e =>
    e.2.st = .armed && e.2.action = 1 && e.2.seq = q && !e.2.quiesced) = some (i, e) →
      siteDiff (siteNow s) e.instant < -100000) : relaceQuiesce q s = s := by
  unfold relaceQuiesce
  split
  next i e hfind => exact if_neg (Int.not_le.mpr (h i e hfind))
  next => rfl

theorem laneDealResume_resumes {t : BitVec 48} (ht : (laneOf s (48 + n)).quiet = some t)
    (hlock : (laneOf s (48 + n)).lock = true) (hheard : (laneOf s (48 + n)).heard = true) (hover : 0 ≤ siteDiff (siteNow s) t) :
    laneDealResume n s = endQuiet n true s := by
  simp only [laneDealResume, ht, hlock, hheard, reached, decide_eq_true hover]
  rfl

theorem laneDealResume_still (h : ∀ t, (laneOf s (48 + n)).quiet = some t →
    ((laneOf s (48 + n)).lock = false ∨ (laneOf s (48 + n)).heard = false ∨ siteDiff (siteNow s) t < 0)) :
    laneDealResume n s = s := by
  unfold laneDealResume
  dsimp only
  split
  next t ht =>
    obtain h | h | h := h t ht
    · simp [h]
    · simp [h]
    · simp [reached, Int.not_le.mpr h]
  next => rfl

/-- Settles O41, command by command. -/
theorem laneCommands : Obligations.LaneCommands := by
  unfold Obligations.LaneCommands
  refine ⟨?torus, ?optical, ?eyeless, ?noHello, ?taken, ?noLaneHello, ?ignored, ?illFormed, ?gained, ?gainedNoLane, ?lost,
    ?deaf, ?timeoutStill, ?errors, ?errorsNoLane, ?retry, ?returns, ?returnStill, ?missing, ?missingStill, ?trains,
    ?retrains, ?fails, ?quiesces, ?quiesceStill, ?resumes, ?resumeStill⟩
  case torus =>
    intro u n s hfed hu hn htrained
    exact (fed_ready hfed).trans (congrArg _ (helloSend_torus hu hn htrained))
  case optical =>
    intro u n s hfed hu hon hlaced hlane
    exact (fed_ready hfed).trans (congrArg _ (helloSend_optical hu hon hlaced hlane))
  case eyeless =>
    intro u n s hfed hu hon hlaced heyeless hlane
    exact (fed_ready hfed).trans (congrArg _ (helloSend_eyeless heyeless hu hon hlaced hlane))
  case noHello =>
    intro u n s hfed h
    exact (fed_ready hfed).trans (congrArg _ (helloSend_still h))
  case taken =>
    intro u n body s l m v w hfed hlen hlane hl htaken hm hv hw
    exact (if_neg (not_not_intro hlen)).trans
      ((fed_ready hfed).trans (congrArg _ (helloReceive_taken hlane hl htaken hm hv hw)))
  case noLaneHello =>
    intro u n body s hfed hlen hlane
    refine (if_neg (not_not_intro hlen)).trans ((fed_ready hfed).trans (congrArg _ ?_))
    simp [helloReceive, hlane]
  case ignored =>
    intro u n body s hfed hlen hlane hout htried
    exact (if_neg (not_not_intro hlen)).trans
      ((fed_ready hfed).trans (congrArg _ (helloReceive_ignored hlane hout htried)))
  case illFormed =>
    intro u n body s hlen
    exact if_pos hlen
  case gained =>
    intro u n s l v hfed hlane hl hv
    exact (fed_ready hfed).trans (congrArg _ (laneLockGained_lane hlane hl hv))
  case gainedNoLane =>
    intro u n s hfed hlane
    exact (fed_ready hfed).trans (congrArg _ (laneLockGained_noLane hlane))
  case lost =>
    intro u n s l v hfed hlane hlive hl hsvc hquiet hv
    exact (fed_ready hfed).trans (congrArg _ (laneLockTimeout_judges hlane hlive hl hsvc hquiet hv))
  case deaf =>
    intro u n s l hfed hlane hlive hl hsvc hquiet
    exact (fed_ready hfed).trans (congrArg _ (laneLockTimeout_judges hlane hlive hl hsvc hquiet rfl))
  case timeoutStill =>
    intro u n deaf s hfed h
    exact (fed_ready hfed).trans (congrArg _ (laneLockTimeout_still h))
  case errors =>
    intro u n unc corr recv s v hfed hlane hsvc hv
    exact (fed_ready hfed).trans (congrArg _ (laneErrorCheck_judges hlane hsvc hv))
  case errorsNoLane =>
    intro u n unc corr recv s hfed hlane
    exact (fed_ready hfed).trans (congrArg _ (laneErrorCheck_noLane hlane))
  case retry =>
    intro u n s l q hfed hl hq
    exact (fed_ready hfed).trans (congrArg _ (laneRetry_eq hl hq))
  case returns =>
    intro u n s l hfed hlane hl hout htried hlock hlong hclean
    exact (fed_ready hfed).trans (congrArg _ (laneReturn_returns rfl hlane hl hout htried hlock hlong hclean))
  case returnStill =>
    intro u n s l hfed hl h
    exact (fed_ready hfed).trans (congrArg _ (laneReturn_still hl h))
  case missing =>
    intro u s t hfed ht hnew hlong hgrace
    exact (fed_ready hfed).trans (congrArg _ (unitMissing_raises ht hnew hlong hgrace))
  case missingStill =>
    intro u s hfed h
    exact (fed_ready hfed).trans (congrArg _ (unitMissing_still h))
  case trains =>
    intro p s t hfed hnew ht
    exact (fed_ready hfed).trans (congrArg _ (linkTrainingComplete_trains hnew ht))
  case retrains =>
    intro p s k u v w hfed hk hu hv hw
    exact (fed_ready hfed).trans (congrArg _ (linkTrainingComplete_retrains hk hu hv hw))
  case fails =>
    intro p s hfed
    exact (fed_ready hfed).trans (congrArg _ linkTrainingComplete_fails)
  case quiesces =>
    intro q s i e u hfed hfind hnear hu
    exact (fed_ready hfed).trans (congrArg _ (relaceQuiesce_quiesces hfind hnear hu))
  case quiesceStill =>
    intro q s hfed h
    exact (fed_ready hfed).trans (congrArg _ (relaceQuiesce_still h))
  case resumes =>
    intro n s t hfed ht hlock hheard hover
    exact (fed_ready hfed).trans (congrArg _ (laneDealResume_resumes ht hlock hheard hover))
  case resumeStill =>
    intro n s hfed h
    exact (fed_ready hfed).trans (congrArg _ (laneDealResume_still h))

end Sys2Proof.Machine
end

section
/-! PROOFS. Frames and packets (R183, R260 to R278). -/

namespace Sys2Proof.Machine

variable {s v : State} {u n : Nat}

/-! Frames. -/

theorem frameReceive_lost {cw : Codeword} (hlane : hasLane u n s = true) (hbad : 16 < cw.symErrs) :
    frameReceive u n cw s = uncorrectable u n s := by
  simp [frameReceive, hlane, hbad]

theorem frameReceive_taken {cw : Codeword} (hlane : hasLane u n s = true) (hgood : cw.symErrs ≤ 16)
    (hsvc : (laneOf s (laneKey u n)).svc ≠ .out ∨ (laneOf s (laneKey u n)).tried = true) :
    frameReceive u n cw s = goodFrame u n cw s := by
  obtain h | h := hsvc <;> simp [frameReceive, hlane, Nat.not_lt.mpr hgood, h]

theorem frameReceive_still {cw : Codeword} (h : hasLane u n s = false ∨ (cw.symErrs ≤ 16 ∧
    (laneOf s (laneKey u n)).svc = .out ∧ (laneOf s (laneKey u n)).tried = false)) : frameReceive u n cw s = s := by
  obtain h | ⟨hgood, hsvc, htried⟩ := h
  · simp [frameReceive, h]
  · simp [frameReceive, Nat.not_lt.mpr hgood, hsvc, htried]

/-- A replay request resends from its frame on; the eighth for one seq retrains the port first (R270). -/
theorem replay_eq {p k : Nat} {ack : BitVec 16} (hk : k = match (unitOf s p).replay with
      | some r => if r.1 = ack then r.2 + 1 else 1
      | none => 1) :
    replay p ack s = if 8 ≤ k then
        forAll (List.range 8) (fun l u => modLane (8 * p + l) (fun y => { y with lock := false }) u)
          (modUnit p (fun x => { x with replay := some (ack, 0), retrainAt := some s.clk }) (bump p 5 1 s))
      else resend p ack (modUnit p (fun x => { x with replay := some (ack, k) }) s) := by
  subst hk
  unfold replay
  dsimp only
  cases (unitOf s p).replay <;> rfl

/-! Packets. -/

theorem packetSend_deals (hv : v = meshSettle s) (hcarries : unitCarries u v = true) (hlane : (dealLane u true v).isSome = true) :
    packetSend u s = match unitGrant u v with
      | some g => sendPacket u g.1 g.2
      | none => v := by
  unfold packetSend
  dsimp only
  rw [← hv, hcarries, ← Option.not_isSome, hlane]
  cases unitGrant u v <;> rfl

theorem packetSend_stuck (hv : v = meshSettle s) (h : unitCarries u v = false ∨ dealLane u true v = none) :
    packetSend u s = if unitCarries u v then v else flushQueue u v := by
  unfold packetSend
  dsimp only
  rw [← hv]
  cases hcarries : unitCarries u v with
  | false => rfl
  | true =>
    rw [h.resolve_left (by simp [hcarries])]
    rfl

/-- The head of a receive buffer goes on, or is dropped, by its fate (R275, R278). -/
theorem packetForward_head {b : Nat} {p : Pkt} {l : List Pkt} (hhead : tget [] (unitOf s u).rxq b = p :: l)
    (hv : v = popBuffer u b s) :
    packetForward u b s = match fateOf u p s with
      | .send q p2 => meshPut (65 + u) (65 + q) p2 v
      | .deliver => if p.cls = 1 ∨ answerCredit p s = true then freeBuffer p (meshPut (65 + u) (localGoal p v) p v) else s
      | .drop k c => freeBuffer p (dropPacket k c p v) := by
  subst hv
  unfold packetForward
  rw [hhead]
  dsimp only
  cases fateOf u p s with
  | send q p2 => rfl
  | drop k c => rfl
  | deliver =>
    simp only [Bool.or_eq_true, decide_eq_true_iff]
    rfl

theorem packetForward_empty {b : Nat} (hnone : tget [] (unitOf s u).rxq b = []) : packetForward u b s = s := by
  simp only [packetForward, hnone]

/-- Settles O42, command by command. -/
theorem packetCommands : Obligations.PacketCommands := by
  unfold Obligations.PacketCommands
  refine ⟨?lost, ?taken, ?noFrame, ?illFormed, ?request, ?replays, ?gap, ?noGap, ?deals, ?stuck, ?head, ?empty⟩
  case lost =>
    intro u n cw s hfed hlen hlane hbad
    exact (if_neg (not_not_intro hlen)).trans ((fed_ready hfed).trans (congrArg _ (frameReceive_lost hlane hbad)))
  case taken =>
    intro u n cw s hfed hlen hlane hgood hsvc
    exact (if_neg (not_not_intro hlen)).trans ((fed_ready hfed).trans (congrArg _ (frameReceive_taken hlane hgood hsvc)))
  case noFrame =>
    intro u n cw s hfed hlen h
    exact (if_neg (not_not_intro hlen)).trans ((fed_ready hfed).trans (congrArg _ (frameReceive_still h)))
  case illFormed =>
    intro u n cw s hlen
    exact if_pos hlen
  case request =>
    intro p ack s hfed
    show execReplayRequestReceive p ack s = _
    rw [execReplayRequestReceive, fed_ready hfed]
  case replays =>
    intro p ack k s hk
    exact ⟨fun hfew => (replay_eq hk).trans (if_neg (Nat.not_le.mpr hfew)), fun hmany => (replay_eq hk).trans (if_pos hmany)⟩
  case gap =>
    intro e s t hfed ht
    refine (fed_ready hfed).trans (congrArg _ ?_)
    simp only [eyeletSeqGapTimeout, ht]
  case noGap =>
    intro e s hfed hnone
    refine (fed_ready hfed).trans (congrArg _ ?_)
    simp only [eyeletSeqGapTimeout, hnone]
  case deals =>
    intro u s v hfed hv hcarries hlane
    exact (fed_ready hfed).trans (congrArg _ (packetSend_deals hv hcarries hlane))
  case stuck =>
    intro u s v hfed hv h
    exact (fed_ready hfed).trans (congrArg _ (packetSend_stuck hv h))
  case head =>
    intro u b s p l v hfed hhead hv
    exact (fed_ready hfed).trans (congrArg _ (packetForward_head hhead hv))
  case empty =>
    intro u b s hfed hnone
    exact (fed_ready hfed).trans (congrArg _ (packetForward_empty hnone))

end Sys2Proof.Machine
end
